-- ==== Sys2Proof/Word.lean ====
section
/-!
DEFINITION. The word types of the model: bytes, 32-bit lanes, 64-bit words, the 128-bit keystone value, and the slot words of a bundle (R182).
-/

namespace Sys2Proof

/-- One byte. -/
abbrev Byte := BitVec 8

/-- A 32-bit lane of a tile register (R147). -/
abbrev Lane := BitVec 32

/-- A 64-bit word: a scalar register, a tie, a register-page word. -/
abbrev Word := BitVec 64

/-- The value V of a keystone element (R114). -/
abbrev Wide := BitVec 128

/-- Slot words of a 256-bit bundle (R182). -/
abbrev SWord := BitVec 32
abbrev MWord := BitVec 64
abbrev VWord := BitVec 56
abbrev TWord := BitVec 24
abbrev XWord := BitVec 48
abbrev YWord := BitVec 24

end Sys2Proof
end

