-- ==== Sys2Proof/Syntax.lean ====
section
/-!
DEFINITION. The commands of the block, one constructor per row of spec/opcode_table.json, with the operands that the spec's rules give the row.
A slot command carries the core ID and the 256-bit bundle (R182) whose slot it issues; the bits of the opcode field of that slot are the constructor's own.
A packet command carries the packet and the bond port it arrives on, 8 when it comes over the die's own mesh; the TYPE and subtype of the command are the constructor's own.
-/

namespace Sys2Proof

/-- A 256-bit bundle in the bit numbering of R182. -/
abbrev Bundle := BitVec 256

/-- The slots of a bundle, in the order of R182. -/
inductive Slot where
  | s | m | v | t | x | y
  deriving DecidableEq, Repr

/-- A packet: four header words (R270) and the payload. -/
structure Packet where
  w0 : Word
  w1 : Word
  w2 : Word
  w3 : Word
  payload : List Byte
  deriving DecidableEq, Repr

/-- The path on which a write reaches the die (R292, R320, R350, R422): the sideband, a management-lane WRITE from a hub die of
the die's own package, the trowel, or any other packet. -/
inductive Path where
  | sideband | hub | trowel | other
  deriving DecidableEq, Repr

/-- A frame as a receiver sees it (R262, R263): its control flit, the symbol errors of its nine codewords, and the packets whose last
flit it carries. -/
structure Frame where
  fseq : Nat
  ack : Nat
  nak : Bool
  credits : List Nat
  errors : List Nat
  packets : List Packet
  deriving DecidableEq, Repr

/-- What a run of the power loop samples (R317): the estimated power of each group and of everything else in mW before calibration,
the VDD_CORE share of it, and the 128 sensor readings in °C. -/
structure LoopSample where
  groups : List Nat
  rest : Nat
  core : Nat
  temps : List Nat
  deriving DecidableEq, Repr

/-- A failure that a memory test finds (R342, R343). -/
inductive TestFault where
  | line (core bank row : Nat)
  | spareLine (core bank : Nat)
  | row (slice row : Nat)
  | spareRow (slice e : Nat)
  | array (core a : Nat)
  /-- A sequencer, dresser, template unit, local mover or tie file of a core (R31). -/
  | part (core : Nat)
  deriving DecidableEq, Repr

/-- The outcome of a bring-up phase (R339, R345, R391): its duration in ms, and whether the PUF key and the PLL came up. -/
structure PhaseResult where
  ms : Nat
  puf : Bool
  pll : Bool
  deriving DecidableEq, Repr

/-- A trowel line as the UART front end hands it over: whether the input buffer overflowed in it, and its characters without the end of
line (R413). -/
structure Line where
  past : Bool
  text : List Byte
  deriving DecidableEq, Repr

/-- The commands: one constructor a row of the table; those without operands stand last. -/
inductive Instr where
  /-- VDD_PLINTH_UP (R373): VDD_PLINTH enters tolerance at power-up; if ledger contents were lost the die zeroes HEAD_SEQ and ACK_SEQ and prepares the ring. -/
  | vddPlinthUp
  /-- VDD_PLINTH_LOSS (R373): VDD_PLINTH is lost, so the ledger, fine minute count and all plinth state are lost. -/
  | vddPlinthLoss
  /-- PWRGOOD_RISE (R437): PWRGOOD rises: the die samples DIE_POS and MASTER_SEL and, on the first rise since VDD_PLINTH came up, burns one power-cycle step. -/
  | pwrgoodRise (pos : Nat) (master : Bool)
  /-- PWRGOOD_LOW (R436): PWRGOOD held low for at least 1 µs starts a whole-die reset and the ports stop sending frames. -/
  | pwrgoodLow
  /-- RESET_N_LOW (R439): RESET_N held low for at least 1 µs starts a whole-die reset; shorter pulses are ignored. -/
  | resetNLow
  /-- RESET_N_RELEASE (R437): RESET_N is seen high with PWRGOOD high and bring-up phase 1 (ROM) starts. -/
  | resetNRelease
  /-- COMP_RESET_N_LOW (R439): COMP_RESET_N held low for at least 1 µs starts a compute-part reset, held until phase 7 if it comes earlier. -/
  | compResetNLow
  /-- COMP_RESET_N_RELEASE (R439): COMP_RESET_N is seen high and the compute-part reset phases run from that cycle. -/
  | compResetNRelease
  /-- WHOLE_DIE_RESET (R348): RESET command with SCOPE 0 resets everything except antifuse and the ledger, takes every port down and runs phases 1 to 7. -/
  | wholeDieReset (path : Path) (seq : Nat) (target : Nat) (a0 : Nat) (a1 : Nat) (a2 : Nat) (a3 : Nat)
  /-- COMPUTE_PART_RESET (R348): RESET command with SCOPE 1 resets cores, memories, mesh, sync plane and movers, keeps plinth-held pages, and runs phases 3, 4 quick, 6 and 7. -/
  | computePartReset (path : Path) (seq : Nat) (target : Nat) (a0 : Nat) (a1 : Nat) (a2 : Nat) (a3 : Nat)
  /-- CORE_GROUP_RESET (R348): RESET command with SCOPE 2 resets the 16 cores of group g, initialises, tests and reloads them and republishes the floor plan, or is refused BUSY. -/
  | coreGroupReset (path : Path) (seq : Nat) (target : Nat) (a0 : Nat) (a1 : Nat) (a2 : Nat) (a3 : Nat)
  /-- BOOT_PHASE (R339): A bring-up phase ends, its BOOT_PHASE record is written and the next phase begins. -/
  | bootPhase (r : PhaseResult)
  /-- STAGE_WRITE (R340): A write into the STAGE pages delivers manifest, firmware or repair set data, and is refused outside phase 2 with STAGE_WRITE_REFUSED. -/
  | stageWrite (path : Path) (off : Nat) (data : List Byte)
  /-- DELIVERED (R394): A write of 1 to BOOT.CTRL.DELIVERED ends phase 2 deliveries and the foreman verifies the manifest in the order of checks 1 to 5. -/
  | delivered (path : Path)
  /-- ENUM_GO (R344): A write of 1 to BOOT.CTRL.ENUM_GO releases step 2 of enumeration, held until ENUM_WAIT is set. -/
  | enumGo (path : Path)
  /-- ENUMERATION_START (R281): Once ports have trained, PACKAGE_ID is written and bring-up reaches enumeration, the die sends HUB_QUERY and the master sends TOKEN. -/
  | enumerationStart
  /-- HUB_QUERY_TIMEOUT (R282): No HUB_REPLY arrives within 10 µs on a hub port, which takes role unused. -/
  | hubQueryTimeout (port : Nat)
  /-- HUB_REPLY (R269): A HUB_REPLY gives a hub port its peer ID, or marks the port unused when the ID or PKG is bad. -/
  | hubReply (port : Nat) (p : Packet)
  /-- TOKEN (R282): An ENUM TOKEN arrives: the die checks PKG and NEXT, takes DIE_ID or sets its EXCL bit, and forwards the token; at the master it sets RING_SIZE and sends DONE. -/
  | token (port : Nat) (p : Packet)
  /-- TOKEN_RETURN_TIMEOUT (R284): The master waits 1 ms for its token, resends up to 3 times, and after that enumeration fails. -/
  | tokenReturnTimeout
  /-- TOKEN_WAIT_TIMEOUT (R284): A die sees no TOKEN within 5 ms of step 2 and records ENUM_FAIL. -/
  | tokenWaitTimeout
  /-- DONE (R282): An ENUM DONE sets RING_SIZE, ROLE, PEER, the hub map, RING.LINKS and NEXT_HOP, and is forwarded once around the ring. -/
  | enumDone (port : Nat) (p : Packet)
  /-- HELLO (R282): A HELLO on BP2 or BP3 is checked against the expected skip peer ID. -/
  | hello (port : Nat) (p : Packet)
  /-- SYNC_TICK_EDGE (R285): A rising SYNC_TICK edge forms and sends ALIGN on the master at E0, sets the timestamp to V at E1, or updates LAG and EDGES. -/
  | syncTickEdge (refs : Nat)
  /-- GO_ALIGN (R285): A write of 1 to RING.ALIGN.GO on the master with no task running starts tick alignment at the next SYNC_TICK edge. -/
  | goAlign (path : Path)
  /-- ALIGN (R285): A TIME ALIGN arrives: the die forwards it once and prepares to set its timestamp at the next edge. -/
  | align (port : Nat) (p : Packet)
  /-- TRAINING_STATE_EXIT (R264): A port direction meets the exit condition of its training state and moves to the next state, choosing its width in WIDTH. -/
  | trainingStateExit (port : Nat) (tx : Bool) (mask : Nat) (us : Nat)
  /-- TRAINING_TIMEOUT (R264): A training state does not exit within its bound and the port goes DOWN with cause UNTRAINED. -/
  | trainingTimeout (port : Nat)
  /-- RETRAIN (R264): A write of 1 to LINK.CTRL.RETRAIN with no task running retrains the port; it is ignored while a task runs. -/
  | retrain (path : Path) (port : Nat)
  /-- FRAME (R263): A frame arrives: codewords are decoded, ACK, NAK and credits are applied, and uncorrectable frames are discarded with NAK and replay. -/
  | frame (port : Nat) (f : Frame)
  /-- LOSS_OF_FRAME (R267): No valid frame arrives for 1,700 cycles and the ACTIVE port goes DOWN with cause loss of frame. -/
  | lossOfFrame (port : Nat)
  /-- LINK_DOWN (R289): An ENUM LINK_DOWN is applied to RING.LINKS or the hub map and forwarded once, or dropped if its PKG differs. -/
  | linkDown (port : Nat) (p : Packet)
  /-- ROUTE_TABLE_INSTALL (R289): Within 1,024 cycles of a link change the die installs a new RING.NEXT_HOP and HUB_HOP. -/
  | routeTableInstall
  /-- CREDIT_RETURN (R274): Credits return on a port or mesh lane and waiting packets, and credit holds, may proceed. -/
  | creditReturn (port : Nat) (c : Nat) (vl : Nat) (cls : Nat) (n : Nat)
  /-- PACKET_FORWARD (R277): A packet not addressed to this die is routed to its next hop by the case order and forwarded. -/
  | packetForward (port : Nat) (p : Packet)
  /-- WRITE (R20): A WRITE addressed to this die is checked and written to the die-local map, window or sync region, or discarded with an answer. -/
  | pktWrite (port : Nat) (p : Packet)
  /-- WRITE_S (R246): A WRITE.S to an open window is accepted, its bed writes requested, and its signal marked for application after its last write. -/
  | pktWriteS (port : Nat) (p : Packet)
  /-- READ_REQ (R20): A READ_REQ to this die is served from the die-local map, sync region or register pages and answered with a READ_RSP. -/
  | pktReadReq (port : Nat) (p : Packet)
  /-- READ_RSP (R249): A READ_RSP brings data for a MOVE, restore or rebond, which forms its write, or counts as a NACK when its status is non-zero. -/
  | pktReadRsp (port : Nat) (p : Packet)
  /-- TIE_ADD_PACKET (R234): A TIE_ADD packet from another die is delivered to its home tie file within 10 cycles of the port. -/
  | pktTieAdd (port : Nat) (p : Packet)
  /-- COMPLETE (R249): A COMPLETE returns to the mover, completing a MOVE, a rebond owner, or a context image. -/
  | pktComplete (port : Nat) (p : Packet)
  /-- NACK (R249): A NACK returns, is counted and recorded, and may fail-stop the task or abandon a rebond owner. -/
  | pktNack (port : Nat) (p : Packet)
  /-- ARCH_ARRIVE (R253): An arch-arrival MSG reaches the master's root, which decides closure once every member die has arrived. -/
  | archArrive (port : Nat) (p : Packet)
  /-- ARCH_RELEASE (R253): An arch release from the master reaches a member die, whose cores close the arch. -/
  | archRelease (port : Nat) (p : Packet)
  /-- SLIP (R53): A TIME SLIP with the current epoch makes the die start no course at the target tick and forward the notice once. -/
  | slip (port : Nat) (p : Packet)
  /-- EPOCH_WRITE (R292): A write of RING.EPOCH.CURRENT through an accepted path changes the job epoch from the next cycle. -/
  | epochWrite (path : Path) (v : Nat)
  /-- COURSE_TICK (R43): The course tick expires: pending settings take effect, suspends and cancels take effect, and each core reads its header, fetches bundles and admits its course. -/
  | courseTick
  /-- DEMAND_FETCH (R191): The sequencer reaches a bundle missing from the bundle buffer, fetches it and holds as a late fetch. -/
  | demandFetch (c : Nat)
  /-- RUNAHEAD_FILL (R57): The run-ahead pointer performs a feed-buffer fill into a shadow bank in a free bank cycle. -/
  | runaheadFill (c : Nat) (index : Nat) (b : Bundle) (depth : Nat)
  /-- COURSE_END_RETIRE (R46): COURSE_END retires once every drain condition closes, and NEXT_ENTRY takes effect. -/
  | courseEndRetire (c : Nat)
  /-- COURSE_OVERRUN (R51): The course deadline passes with a core not retired, so the task fail-stops or the die slips. -/
  | courseOverrun
  /-- BED_GRANT (R204): A bed bank grants a waiting request, writes take effect, and reads complete and release any hold waiting on them. -/
  | bedGrant (c : Nat) (b : Nat) (forced : Bool) (lat : Nat)
  /-- YARD_GRANT (R210): A yard sub-bank grants a 128-B piece, whose write takes effect or whose read completes 10 cycles later. -/
  | yardGrant (u : Nat) (b : Nat)
  /-- SCRUB_READ (R220): The scrubber reads a bed line or yard row in an idle cycle and corrects, rechecks or queues it for repair. -/
  | scrubRead (mem : Nat) (u : Nat) (row : Nat) (flips : List (Nat × Nat)) (hard : List Nat)
  /-- BED_REPAIR_WINDOW (R223): The foreman opens a bed repair window once the core has no task or a free course end, and switches a line to its spare. -/
  | bedRepairWindow (c : Nat)
  /-- YARD_REPAIR_WINDOW (R224): The foreman holds a yard slice for 16 cycles and switches a row to spare row e. -/
  | yardRepairWindow (slice : Nat)
  /-- TIE_UPDATE_DELIVERED (R239): Updates reach a tie file and, in the cycle's fixed order, adds, decrements, waits, takes and timeouts are applied to the tie. -/
  | tieUpdateDelivered (h : Nat) (t : Nat) (n : Nat)
  /-- WAIT_REGISTRATION (R237): A wait reaches its home tie file and takes the lowest free wait slot. -/
  | waitRegistration (c : Nat)
  /-- WAIT_TIMEOUT (R238): A wait passes its deadline unsatisfied and the task fail-stops. -/
  | waitTimeout (c : Nat)
  /-- WAKE (R242): A wait result reaches a held core, which ungates its clocks and issues its next bundle. -/
  | wake (c : Nat)
  /-- WINDOW_SIGNAL (R247): After the last bed write of a marked packet, the window signal adds 1 to its tie, autocloses if set, and a COMPLETE is sent. -/
  | windowSignal (c : Nat) (w : Nat)
  /-- ARCH_CLOSURE (R252): Four cycles after the last member arrives the arch closes, clearing ARRIVED and satisfying AWAITs, or starting course 0. -/
  | archClosure (a : Nat)
  /-- ARCH_FORCE (R254): A write of 1 to ARCH.CTRL.FORCE closes the arch, or completes the local root on a non-master die. -/
  | archForce (path : Path) (a : Nat)
  /-- HANDSET_TIE (R257): A hand-set with KIND 0 sets the tie to HANDSET_VALUE before that cycle's adds. -/
  | handsetTie (path : Path) (c : Nat) (index : Nat)
  /-- HANDSET_OPEN (R257): A hand-set with KIND 1 opens the window as by WOPEN. -/
  | handsetOpen (path : Path) (c : Nat) (index : Nat)
  /-- HANDSET_CLOSE (R257): A hand-set with KIND 2 closes the window as by WCLOSE. -/
  | handsetClose (path : Path) (c : Nat) (index : Nat)
  /-- DUMP_GO (R256): A write of 1 to ARCH.DUMP.GO starts the sync dump into the yard when DUMP_BASE is valid. -/
  | dumpGo (path : Path) (base : Nat)
  /-- DUMP_DONE (R256): The sync dump completes and DUMP_BUSY clears. -/
  | dumpDone
  /-- NOP (R188): An empty operation in any slot issues nothing. -/
  | nop (c : Nat) (slot : Slot) (b : Bundle)
  /-- ADD (R188): Scalar ADD writes ra + rb to rd. -/
  | add (c : Nat) (b : Bundle)
  /-- SUB (R188): Scalar SUB writes ra − rb to rd. -/
  | sub (c : Nat) (b : Bundle)
  /-- MUL (R188): Scalar MUL writes the low 64 bits of ra × rb to rd. -/
  | mul (c : Nat) (b : Bundle)
  /-- AND (R188): Scalar AND writes ra & rb to rd. -/
  | sAnd (c : Nat) (b : Bundle)
  /-- OR (R188): Scalar OR writes ra | rb to rd. -/
  | sOr (c : Nat) (b : Bundle)
  /-- XOR (R188): Scalar XOR writes ra ^ rb to rd. -/
  | sXor (c : Nat) (b : Bundle)
  /-- SHL (R188): Scalar SHL shifts ra left by rb[5:0]. -/
  | shl (c : Nat) (b : Bundle)
  /-- SHR (R188): Scalar SHR shifts ra right by rb[5:0], filling with zeros. -/
  | shr (c : Nat) (b : Bundle)
  /-- SAR (R188): Scalar SAR shifts ra right by rb[5:0], filling with the sign. -/
  | sar (c : Nat) (b : Bundle)
  /-- SLT (R188): SLT sets rd to 1 if ra < rb signed, else 0. -/
  | slt (c : Nat) (b : Bundle)
  /-- SLTU (R188): SLTU sets rd to 1 if ra < rb unsigned, else 0. -/
  | sltu (c : Nat) (b : Bundle)
  /-- ADDI (R188): ADDI writes ra plus the sign-extended imm16 to rd. -/
  | addi (c : Nat) (b : Bundle)
  /-- ANDI (R188): ANDI writes ra & the zero-extended imm16 to rd. -/
  | andi (c : Nat) (b : Bundle)
  /-- ORI (R188): ORI writes ra | the zero-extended imm16 to rd. -/
  | ori (c : Nat) (b : Bundle)
  /-- LIQ (R188): LIQ writes imm16 into quarter q of rd, leaving other bits. -/
  | liq (c : Nat) (b : Bundle)
  /-- LD (R189): LD reads 8 B of bed through a narrow-view handle into rd, holding a too-early reader. -/
  | ld (c : Nat) (b : Bundle)
  /-- ST (R189): ST writes rd to 8 B of bed through a narrow-view handle in cycle c + 2. -/
  | st (c : Nat) (b : Bundle)
  /-- RDSYS (R188): RDSYS reads a system value such as timestamp, course number, core ID, tag, die ID, package ID or epoch into rd. -/
  | rdsys (c : Nat) (b : Bundle)
  /-- HSET (R211): HSET writes handle h from scalar registers ra to ra + 3. -/
  | hset (c : Nat) (b : Bundle)
  /-- BEQ (R190): BEQ branches to p + off16 when ra = rb. -/
  | beq (c : Nat) (b : Bundle)
  /-- BNE (R190): BNE branches to p + off16 when ra ≠ rb. -/
  | bne (c : Nat) (b : Bundle)
  /-- BLT (R190): BLT branches to p + off16 when ra < rb signed. -/
  | blt (c : Nat) (b : Bundle)
  /-- BGE (R190): BGE branches to p + off16 when ra ≥ rb signed. -/
  | bge (c : Nat) (b : Bundle)
  /-- JMP (R190): JMP branches to bundle p + off16. -/
  | jmp (c : Nat) (b : Bundle)
  /-- JR (R190): JR branches to the bundle index in s(ra). -/
  | jr (c : Nat) (b : Bundle)
  /-- LSET (R188): LSET loads loop counter lc from s(ra)[31:0]. -/
  | lset (c : Nat) (b : Bundle)
  /-- LSETI (R188): LSETI loads loop counter lc from imm16. -/
  | lseti (c : Nat) (b : Bundle)
  /-- BLOOP (R188): BLOOP decrements lc and branches back while lc > 1, else clears lc. -/
  | bloop (c : Nat) (b : Bundle)
  /-- DELAYI (R184): DELAYI adds imm20 empty course cycles after its bundle. -/
  | delayi (c : Nat) (b : Bundle)
  /-- PHASE_HINT (R328): PHASE_HINT fills a hint slot describing expected matrix work AHEAD courses on for SPAN courses at LEVEL. -/
  | phaseHint (c : Nat) (b : Bundle)
  /-- COURSE_END (R46): COURSE_END issues, carrying the next ENTRY, and retires at once or holds as Drain. -/
  | courseEnd (c : Nat) (b : Bundle)
  /-- MM (R95): A matrix instruction streams K-steps through the masked arrays and promotes each run into its accumulator entries. -/
  | mm (c : Nat) (b : Bundle)
  /-- KADD (R125): KADD reads a keystone image from bed and adds it into or overwrites an accumulator entry. -/
  | kadd (c : Nat) (b : Bundle)
  /-- EXPORT (R132): An export scales, fuses and rounds an accumulator tile once and writes it to bed, a tile register or the hod queue. -/
  | exportTile (c : Nat) (b : Bundle)
  /-- FADD (R151): FADD adds FP32 lanes under RM. -/
  | fadd (c : Nat) (b : Bundle)
  /-- FSUB (R151): FSUB subtracts FP32 lanes under RM. -/
  | fsub (c : Nat) (b : Bundle)
  /-- FMUL (R151): FMUL multiplies FP32 lanes under RM. -/
  | fmul (c : Nat) (b : Bundle)
  /-- FMA (R151): FMA computes a × b + c with one rounding. -/
  | fma (c : Nat) (b : Bundle)
  /-- FMS (R151): FMS computes a × b − c with one rounding. -/
  | fms (c : Nat) (b : Bundle)
  /-- FMAX (R151): FMAX takes the FP32 maximum under the special-value rules. -/
  | fmax (c : Nat) (b : Bundle)
  /-- FMIN (R151): FMIN takes the FP32 minimum under the special-value rules. -/
  | fmin (c : Nat) (b : Bundle)
  /-- FABS (R151): FABS clears the sign of each lane. -/
  | fabs (c : Nat) (b : Bundle)
  /-- FNEG (R151): FNEG inverts the sign of each lane. -/
  | fneg (c : Nat) (b : Bundle)
  /-- IADD (R151): IADD adds INT32 lanes, then saturates or wraps. -/
  | iadd (c : Nat) (b : Bundle)
  /-- ISUB (R151): ISUB subtracts INT32 lanes, then saturates or wraps. -/
  | isub (c : Nat) (b : Bundle)
  /-- IMUL (R151): IMUL multiplies INT32 lanes, then saturates or wraps. -/
  | imul (c : Nat) (b : Bundle)
  /-- IMAX (R151): IMAX takes the signed maximum. -/
  | imax (c : Nat) (b : Bundle)
  /-- IMIN (R151): IMIN takes the signed minimum. -/
  | imin (c : Nat) (b : Bundle)
  /-- V_SHL (R151): Vector SHL shifts lanes left by b[4:0]. -/
  | vShl (c : Nat) (b : Bundle)
  /-- V_SHR (R151): Vector SHR shifts lanes right with zero fill. -/
  | vShr (c : Nat) (b : Bundle)
  /-- V_SAR (R151): Vector SAR shifts lanes right with sign fill. -/
  | vSar (c : Nat) (b : Bundle)
  /-- V_AND (R151): Vector AND of lanes. -/
  | vAnd (c : Nat) (b : Bundle)
  /-- V_OR (R151): Vector OR of lanes. -/
  | vOr (c : Nat) (b : Bundle)
  /-- V_XOR (R151): Vector XOR of lanes. -/
  | vXor (c : Nat) (b : Bundle)
  /-- ANDN (R151): ANDN computes a & ~b per lane. -/
  | andn (c : Nat) (b : Bundle)
  /-- MOV (R151): MOV copies a per lane. -/
  | mov (c : Nat) (b : Bundle)
  /-- FCMP (R151): FCMP compares FP32 lanes by cc and writes all-ones or zero. -/
  | fcmp (c : Nat) (b : Bundle)
  /-- ICMP (R151): ICMP compares INT32 lanes signed by cc and writes all-ones or zero. -/
  | icmp (c : Nat) (b : Bundle)
  /-- SEL (R151): SEL copies a where m ≠ 0, else b. -/
  | sel (c : Nat) (b : Bundle)
  /-- PERM (R151): PERM gathers lanes of a by the index tile. -/
  | perm (c : Nat) (b : Bundle)
  /-- SHUF (R151): SHUF rearranges lanes by one of eight fixed patterns. -/
  | shuf (c : Nat) (b : Bundle)
  /-- PACK (R156): PACK packs narrow lane elements into a byte stream. -/
  | pack (c : Nat) (b : Bundle)
  /-- UNPACK (R156): UNPACK spreads a packed byte stream into lanes, zero-extended. -/
  | unpack (c : Nat) (b : Bundle)
  /-- CVT (R154): CVT converts lanes between formats, counting NaN, saturated and vanished results. -/
  | cvt (c : Nat) (b : Bundle)
  /-- CVT_S (R154): CVT.S converts lanes with an E8M0 block scale applied exactly before rounding. -/
  | cvtS (c : Nat) (b : Bundle)
  /-- SPLIT2 (R155): SPLIT2 cuts FP32 lanes into BF16 hi and mid pieces in two registers. -/
  | split2 (c : Nat) (b : Bundle)
  /-- SPLIT3 (R155): SPLIT3 cuts FP32 lanes into BF16 hi, mid and lo pieces in three registers. -/
  | split3 (c : Nat) (b : Bundle)
  /-- RSUM (R157): RSUM sums along an axis in the fixed pairwise tree. -/
  | rsum (c : Nat) (b : Bundle)
  /-- RMAX (R157): RMAX takes the maximum along an axis. -/
  | rmax (c : Nat) (b : Bundle)
  /-- RMIN (R157): RMIN takes the minimum along an axis. -/
  | rmin (c : Nat) (b : Bundle)
  /-- RSSQ (R157): RSSQ sums rounded squares along an axis. -/
  | rssq (c : Nat) (b : Bundle)
  /-- RMV (R157): RMV computes mean and variance along an axis. -/
  | rmv (c : Nat) (b : Bundle)
  /-- AMAXS (R158): AMAXS derives a block scale from the block's absolute maximum for a target format. -/
  | amaxs (c : Nat) (b : Bundle)
  /-- VLD (R153): VLD loads tile rows from bed through a wide-view handle. -/
  | vld (c : Nat) (b : Bundle)
  /-- VST (R153): VST stores tile rows to bed through a wide-view handle. -/
  | vst (c : Nat) (b : Bundle)
  /-- SETVL (R149): SETVL sets VL and RL from immediates. -/
  | setvl (c : Nat) (b : Bundle)
  /-- SETVL_R (R149): SETVL.R sets VL and RL from scalar registers, clamped. -/
  | setvlR (c : Nat) (b : Bundle)
  /-- PULL (R159): PULL fetches an accumulator entry into a tile register as a short FP32 or INT32 export. -/
  | pull (c : Nat) (b : Bundle)
  /-- TEVAL (R179): TEVAL evaluates EXP, LOG, RCP, RSQ or SQRT on tile lanes through the active bank or strict iteration. -/
  | teval (c : Nat) (b : Bundle)
  /-- TLOAD (R174): TLOAD reads segments of a range from bed into the shadow bank. -/
  | tload (c : Nat) (b : Bundle)
  /-- TLOAD_COMPLETE (R174): The last shadow write of a TLOAD lands and SHADOW_READY sets. -/
  | tloadComplete (c : Nat)
  /-- TSWAP (R175): TSWAP requests the shadow bank become active once earlier lookups and loads drain. -/
  | tswap (c : Nat) (b : Bundle)
  /-- TSWAP_EFFECT (R175): A pending swap takes effect: banks exchange, SHADOW_READY clears and SWAPS increments. -/
  | tswapEffect (c : Nat)
  /-- BEYLER_WRITE (R177): A write changing DRESS.CONFIG.BEYLER starts a copy of the Beyler or native image into both banks, or is refused while running. -/
  | beylerWrite (c : Nat) (v : Nat)
  /-- IMAGE_COPY_DONE (R177): The table image copy ends and TPL.STATUS.LOADING clears. -/
  | imageCopyDone (c : Nat)
  /-- FILLA (R199): FILLA fills the activation broadcast buffer from bed in 512-B chunks, committing any run-ahead shadow. -/
  | filla (c : Nat) (b : Bundle)
  /-- FILLW (R199): FILLW fills a weight feed buffer bank of one array from bed. -/
  | fillw (c : Nat) (b : Bundle)
  /-- FILLB (R199): FILLB fills bundles into the bundle buffer from the course program. -/
  | fillb (c : Nat) (b : Bundle)
  /-- MOVE (R297): MOVE queues a copy between handles in the local mover, with optional window signal and completion tie. -/
  | moveCopy (c : Nat) (b : Bundle)
  /-- MOVE_BEGIN (R298): The local mover begins the next queued MOVE and forms one request per cycle. -/
  | moveBegin (c : Nat)
  /-- SIGNAL (R234): SIGNAL sends an add of 1 to the tie named by a TIE handle. -/
  | signal (c : Nat) (b : Bundle)
  /-- TIE_ADD (R234): TIE_ADD sends an add of a register amount to the tie named by a TIE handle. -/
  | tieAdd (c : Nat) (b : Bundle)
  /-- TIE_ADD_L (R234): TIE_ADD.L adds an immediate amount to a local or bound home tie. -/
  | tieAddL (c : Nat) (b : Bundle)
  /-- DEC (R234): DEC sends a decrement to a local or bound home tie. -/
  | dec (c : Nat) (b : Bundle)
  /-- WAIT (R237): WAIT registers a threshold wait on a tie and holds the core until satisfied or timed out. -/
  | waitTie (c : Nat) (b : Bundle)
  /-- WAIT_TAKE (R240): WAIT.TAKE registers a consuming wait that subtracts N when granted. -/
  | waitTake (c : Nat) (b : Bundle)
  /-- ARRIVE (R251): ARRIVE sets the core's ARRIVED bit and sends an arrival up the arch tree. -/
  | arrive (c : Nat) (b : Bundle)
  /-- AWAIT (R251): AWAIT holds the core until the arch's closure clears ARRIVED. -/
  | await (c : Nat) (b : Bundle)
  /-- WOPEN (R245): WOPEN opens a closed window and zeroes its counters. -/
  | wopen (c : Nat) (b : Bundle)
  /-- WCLOSE (R245): WCLOSE clears a window's OPEN bit. -/
  | wclose (c : Nat) (b : Bundle)
  /-- REGISTER_WRITE (R420): A write to register fields without their own step takes effect field by field, refused fields counted in REFUSED. -/
  | registerWrite (path : Path) (a : Nat) (v : Nat)
  /-- HIST_CLEAR (R146): A write of 1 to a HIST_CLEAR bit clears every counter of that histogram set. -/
  | histClear (c : Nat) (v : Nat)
  /-- ACK_SEQ (R378): A sideband write of LEDGER.ACK_SEQ acknowledges records up to that SEQ, if within range. -/
  | ackSeq (path : Path) (v : Nat)
  /-- DOM_OFF (R429): A write of DIR.DOM_OFF requests core-group domains off or on, refused while a long operation runs. -/
  | domOff (path : Path) (v : Nat)
  /-- DOM_OFF_YQ (R429): A write of DIR.DOM_OFF_YQ requests yard-quadrant domains off or on. -/
  | domOffYq (path : Path) (v : Nat)
  /-- START (R354): START creates a task on the live participants, resets counters and starts it at a tick or arch closure, or is refused. -/
  | start (path : Path) (seq : Nat) (target : Nat) (a0 : Nat) (a1 : Nat) (a2 : Nat) (a3 : Nat)
  /-- SUSPEND (R354): SUSPEND moves an operation to stopping and fixes its boundary, with optional context save and power-off for a task. -/
  | suspend (path : Path) (seq : Nat) (target : Nat) (a0 : Nat) (a1 : Nat) (a2 : Nat) (a3 : Nat)
  /-- RESUME (R356): RESUME with FROM = 0 restarts a task suspended in place, or continues another suspended operation. -/
  | resume (path : Path) (seq : Nat) (target : Nat) (a0 : Nat) (a1 : Nat) (a2 : Nat) (a3 : Nat)
  /-- RESUME_FROM_IMAGE (R356): RESUME with FROM = 1 powers, initialises, loads and restores every participant from its context image. -/
  | resumeFromImage (path : Path) (seq : Nat) (target : Nat) (a0 : Nat) (a1 : Nat) (a2 : Nat) (a3 : Nat)
  /-- CANCEL (R357): CANCEL ends an operation: a task at the next tick, a failed task at once. -/
  | cancel (path : Path) (seq : Nat) (target : Nat) (a0 : Nat) (a1 : Nat) (a2 : Nat) (a3 : Nat)
  /-- MEMTEST (R342): MEMTEST runs the full or quick memory test as a long operation. -/
  | memtest (path : Path) (seq : Nat) (target : Nat) (a0 : Nat) (a1 : Nat) (a2 : Nat) (a3 : Nat)
  /-- MEMTEST_DONE (R343): The memory test ends, having mapped out failures and initialised memories. -/
  | memtestDone (faults : List TestFault)
  /-- BROADCAST (R346): BROADCAST reloads the held core firmware image into every live core. -/
  | broadcast (path : Path) (seq : Nat) (target : Nat) (a0 : Nat) (a1 : Nat) (a2 : Nat) (a3 : Nat)
  /-- FLOOD_PACKET (R346): A core receives a flood or unicast firmware packet, digest table or end marker, checks segments and writes its NEED entry. -/
  | floodPacket (c : Nat) (k : Nat) (data : List Byte)
  /-- REBOND (R300): REBOND starts a rebond operation from a descriptor, validating it, or is refused busy. -/
  | rebond (path : Path) (seq : Nat) (target : Nat) (a0 : Nat) (a1 : Nat) (a2 : Nat) (a3 : Nat)
  /-- REBOND_PACKET (R304): A rebond mover forms its next packet of a destination run, stopping at packet boundaries on suspend or cancel. -/
  | rebondPacket (m : Nat)
  /-- REBOND_TIMEOUT (R308): A rebond response not returned within REBOND.TIMEOUT fails the operation. -/
  | rebondTimeout (m : Nat)
  /-- REPAIR (R222): REPAIR starts field repair of the queued rows, also started by the foreman when HARD_PENDING becomes non-zero. -/
  | repair (path : Path) (seq : Nat) (target : Nat) (a0 : Nat) (a1 : Nat) (a2 : Nat) (a3 : Nat)
  /-- CONTEXT_TRANSFER (R359): A rebond mover sends or fetches the next 512-B piece of a core context image. -/
  | contextTransfer (g : Nat)
  /-- POWER_LOOP (R318): The power controller loop runs each microsecond, computing target, levels, ALL flags, thermal and droop terms. -/
  | powerLoop (x : LoopSample)
  /-- POWER_WINDOW (R319): A 64-cycle limiter window starts and new levels take effect, withholding cycles as power holds. -/
  | powerWindow (holds : List (Nat × Nat))
  /-- ENVELOPE_TARGET (R320): A write of POWER.ENVELOPE_TARGET from an accepted path is held for the next loop, or refused. -/
  | envelopeTarget (path : Path) (v : Nat)
  /-- TELEMETRY (R324): A TELEMETRY message gives a rail's current; the die forms MEAS and updates calibration. -/
  | telemetry (f : List Byte)
  /-- DROOP_TRIP (R327): A droop detector trips and every arithmetic-clock block stretches its cycles. -/
  | droopTrip (d : Nat)
  /-- DROOP_CLEAR (R327): The last tripped detector clears and stretching ends 4 cycles later. -/
  | droopClear (d : Nat) (n : Nat) (total : Nat)
  /-- ALERT (R336): A write of 1 to a POWER.ALERT bit clears it, and it sets again at the next loop if its condition holds. -/
  | alert (path : Path) (v : Nat)
  /-- REPOINTING (R337): A write to POWER.AGE.GO, or every 1,000 operating hours, measures ageing and raises MARGIN and VID_REQ. -/
  | repointing (path : Path)
  /-- REPOINTING_DONE (R337): Repointing ends, BUSY clears and REPOINT is recorded. -/
  | repointingDone (mon : Nat) (delay : Nat)
  /-- RAIL_REQ_TIMEOUT (R444): A RAIL_REQ unanswered for 100 ms closes and the waiting step proceeds. -/
  | railReqTimeout (rail : Nat)
  /-- ATTEST_GO (R397): A write of 1 to ATTEST.CTRL.GO latches the nonce and starts building a signed report. -/
  | attestGo (path : Path)
  /-- LOCK (R399): A write of 1 to MARK.LOCK, or entry to phase 7, makes every RWL field read-only. -/
  | markLock (path : Path)
  /-- DEBUG_FREEZE (R403): A write of 1 to DEBUG.CTRL.FREEZE makes the die drive FREEZE_N low. -/
  | debugFreeze (path : Path)
  /-- FREEZE_N_HIGH (R404): FREEZE_N high is seen, clocks restart, and FREEZE and THAW are recorded. -/
  | freezeNHigh (refs : Nat)
  /-- DEBUG_MODE (R409): A write of DEBUG.CTRL.MODE enters or leaves debug mode, mapping the accumulator view. -/
  | debugMode (path : Path) (v : Bool)
  /-- TRACE_ENABLE (R410): A write of DEBUG.TRACE.EN = 1 in debug mode with no task zeroes the trace regions. -/
  | traceEnable (path : Path) (v : Nat)
  /-- TRACE_RECORD (R411): A trace record leaves the core's FIFO and is written into its yard region. -/
  | traceRecord (c : Nat)
  /-- BYPASS (R407): The BYPASS TAP instruction selects the 1-bit bypass register. -/
  | bypass (code : Nat)
  /-- FREEZE_CTL (R408): The FREEZE_CTL instrument sets or releases the die's DRIVE of FREEZE_N. -/
  | freezeCtl (on : Bool)
  /-- CORESCAN (R408): The CORESCAN instrument reads every flop of a core while frozen. -/
  | corescan (c : Nat)
  /-- MEMRD (R408): The MEMRD instrument reads any die-local word with raw check bits while frozen. -/
  | memrd (a : Nat)
  /-- PEEK (R414): Trowel peek reads n words from a die-local address. -/
  | trowelPeek (l : Line)
  /-- POKE (R414): Trowel poke writes one word with sideband rights and records TROWEL_WRITE. -/
  | trowelPoke (l : Line)
  /-- FLOOR (R414): Trowel floor prints the floor-plan summary and non-full cores. -/
  | trowelFloor (l : Line)
  /-- LEDGER (R414): Trowel ledger prints records from a SEQ. -/
  | trowelLedger (l : Line)
  /-- TIES (R414): Trowel ties prints tie values, bindings and wait slots of a core. -/
  | trowelTies (l : Line)
  /-- ARCHES (R414): Trowel arches prints per-arch state. -/
  | trowelArches (l : Line)
  /-- PORTS (R414): Trowel ports prints per-port link state, links and epoch. -/
  | trowelPorts (l : Line)
  /-- POWER (R414): Trowel power prints envelope, estimates, levels and throttled groups. -/
  | trowelPower (l : Line)
  /-- FREEZE (R414): Trowel freeze drives FREEZE_N and answers once frozen. -/
  | trowelFreeze (l : Line)
  /-- THAW (R414): Trowel thaw releases this die's drive of FREEZE_N. -/
  | trowelThaw (held : Bool) (l : Line)
  /-- DUMP (R414): Trowel dump starts the sync dump and answers when it is done. -/
  | trowelDump (l : Line)
  /-- SET_TIE (R414): Trowel set-tie hand-sets a tie and answers with old and new values. -/
  | trowelSetTie (l : Line)
  /-- REG_WRITE (R443): Sideband REG_WRITE writes 1 to 32 register words as a sideband write. -/
  | sbRegWrite (f : List Byte)
  /-- REG_READ (R443): Sideband REG_READ returns 1 to 32 register words. -/
  | sbRegRead (f : List Byte)
  /-- ENVELOPE (R443): Sideband ENVELOPE writes POWER.ENVELOPE_TARGET. -/
  | sbEnvelope (f : List Byte)
  /-- RAIL_DONE (R444): Sideband RAIL_DONE closes a matching RAIL_REQ so the waiting step proceeds. -/
  | sbRailDone (f : List Byte)
  /-- LEDGER_READ (R443): Sideband LEDGER_READ returns one ledger record, or NOT_HELD. -/
  | sbLedgerRead (f : List Byte)
  /-- SETDASA (R441): The SETDASA CCC assigns the dynamic address from the static address. -/
  | setdasa (static : Nat) (dyn : Nat)
  /-- SETMWL (R441): The SETMWL CCC sets the maximum write length. -/
  | setmwl (n : Nat)
  /-- SETMRL (R441): The SETMRL CCC sets the maximum read length. -/
  | setmrl (n : Nat)
  /-- MEMTEST_PASS_END (R353): A step-1 pass, retention hold or array check of the memory test ends, so a pending suspend takes effect or the next rail setting is requested. -/
  | memtestPassEnd (last : Bool)
  /-- DOMAIN_SWITCH_DONE (R429): Every requested domain switch completes, DOM_BUSY clears and DOM_CHANGES increments. -/
  | domainSwitchDone
  /-- BROADCAST_ROUND (R347): The foreman reads the NEED entries and serves incomplete cores in a new round, or marks them dead after round 3. -/
  | broadcastRound
  /-- REBOND_MOVER_START (R303): After validation the rebond movers start walking their owners. -/
  | rebondMoverStart
  /-- TELEMETRY_LOST (R326): No telemetry for 200 µs declares telemetry lost. -/
  | telemetryLost
  /-- DROOP_LONG (R327): Stretching lasting more than 8,500 cycles is recorded. -/
  | droopLong
  /-- COOLANT_OK_FALL (R333): COOLANT_OK goes low and the die starts timing the low level. -/
  | coolantOkFall
  /-- COOLANT_STOP (R333): COOLANT_OK low for 1 µs stops the compute clocks and fails the task. -/
  | coolantStop
  /-- COOLANT_RESTORED (R333): COOLANT_OK rises, counting a glitch or recording restoration while clocks stay stopped. -/
  | coolantRestored
  /-- THROTTLE_SUMMARY (R335): Once a second one summary record is written per throttle reason that counted. -/
  | throttleSummary
  /-- RAIL_REQ_REPEAT (R444): A RAIL_REQ not yet answered is raised again every 1 ms. -/
  | railReqRepeat
  /-- LEDGER_RECORD (R376): The foreman accepts an event, assigns SEQ and writes its record into the ring. -/
  | ledgerRecord
  /-- LEDGER_IBI_REPEAT (R444): A LEDGER IBI is raised again every 100 µs until ACK_SEQ passes it. -/
  | ledgerIbiRepeat
  /-- RATE_SUMMARY (R377): At the end of each 1 ms period one summary per suppressed event code is written. -/
  | rateSummary
  /-- MINUTE_COUNT (R380): The fine operating-minute count advances and at 960 burns one hour-thermometer step. -/
  | minuteCount
  /-- ATTEST_REPORT_DONE (R398): The report is written, REPORT_SEQ incremented, DONE and STATUS set, and ATTEST recorded. -/
  | attestReportDone
  /-- FREEZE_N_LOW (R404): FREEZE_N low is seen and every PLL-derived clock stops two cycles later. -/
  | freezeNLow
  /-- TRACE_READY (R410): Trace regions are zeroed and READY sets. -/
  | traceReady
  /-- IDCODE (R407): The IDCODE TAP instruction selects the 32-bit identification register. -/
  | idcode
  /-- IJTAG (R407): The IJTAG TAP instruction selects the IEEE 1687 network. -/
  | ijtag
  /-- TAP_RESET (R446): TRST_N low for 100 ns resets the TAP. -/
  | tapReset
  /-- PRIVATE_READ (R442): A sideband private read returns the response to the last message, or is NACKed. -/
  | sbPrivateRead
  /-- ENEC (R441): The ENEC CCC enables IBIs, releasing held ones. -/
  | enec
  /-- DISEC (R441): The DISEC CCC disables IBIs, which are then held. -/
  | disec
  /-- RSTDAA (R441): The RSTDAA CCC resets the dynamic address. -/
  | rstdaa
  /-- GETMWL (R441): The GETMWL CCC returns the maximum write length. -/
  | getmwl
  /-- GETMRL (R441): The GETMRL CCC returns the maximum read length. -/
  | getmrl
  /-- GETPID (R441): The GETPID CCC returns the provisional ID. -/
  | getpid
  /-- GETBCR (R441): The GETBCR CCC returns BCR 0x06. -/
  | getbcr
  /-- GETDCR (R441): The GETDCR CCC returns DCR 0x00. -/
  | getdcr
  /-- GETSTATUS (R441): The GETSTATUS CCC returns the target status. -/
  | getstatus
  /-- CMD_RESULT (R350): Within 2,000 cycles of accepting a command the foreman writes RESULT with STATUS, SEQ and OP_ID and clears BUSY. -/
  | cmdResult
  deriving DecidableEq, Repr

end Sys2Proof
end

