-- ==== Sys2Proof/Decode.lean ====
section
/-!
DEFINITION. Table words. The block's commands come as packets, pin levels, bus messages and register writes; no row of the opcode table
gives bits, so no word spells a command.
-/

namespace Sys2Proof

/-- The command that a table word spells: none, since the table gives no row any bits (notes/assumptions/1.md). -/
def decodeTableWord (_nbits _w : Nat) : Option Instr := none

end Sys2Proof
end

