-- ==== Sys2Proof/Config.lean ====
section
/-!
DEFINITION. What an implementation fixes and the free values: constants without a body, so that no proof can see their value.
-/

namespace Sys2Proof.Config

/-- What SECDED finds in a codeword with three or more wrong bits at a key: clean, corrected or uncorrectable (R217; notes/assumptions/6.md). -/
opaque tripleError : Nat → Fin 3

/-- The fixed contents of the Beyler image, segment by segment (R177; notes/assumptions/7.md). -/
opaque beylerSegment : Nat → BitVec 97

/-- The calibration gain, above its lower bound of 3,072, after a telemetry message that meets an estimate of 0, by the gain before and
MEAS (R324; notes/assumptions/30.md). -/
opaque gainAtZero : Nat → Nat → Fin 2049

/-- What an uncorrectable word at an address holds after its row was copied to a spare (R222–R224; notes/assumptions/32.md). -/
opaque badWord : Nat → BitVec 64

/-- The signature of an attestation report by the identity key (R398; notes/assumptions/33.md). -/
opaque signature : List (BitVec 8) → BitVec 3072

/-- What CORESCAN shifts out of a core that holds the given words, in the ICL order that is supplied with the die (R408; notes/assumptions/40.md). -/
opaque coreScan : List Nat → List Nat

/-- Raw check bits of the codeword of a 64-bit word at an address, with a number of wrong bits in it (R217, R408; notes/assumptions/41.md). -/
opaque checkBits : Nat → Nat → Nat → BitVec 8

/-- The raw word and the syndrome behind a stored word at an address with at least one wrong bit (R217, R408; notes/assumptions/41.md). -/
opaque rawWord : Nat → Nat → Nat → BitVec 64
opaque syndrome : Nat → Nat → Nat → BitVec 8

/-- The answer to GETSTATUS at a timestamp with the given IBIs pending (R441; notes/assumptions/45.md). -/
opaque i3cStatus : Nat → List (Nat × List (BitVec 8)) → BitVec 16

end Sys2Proof.Config
end

