-- ==== Sys2Proof/Machine/Fields.lean ====
section
/-!
DEFINITION. The register fields of every page, one row per field of the spec's register tables (R18, R32, R63, R64, R89, R107, R129, R146, R165, R181, R202, R227–R230, R259, R260, R295, R296, R312, R313, R338, R364, R365, R386, R400–R402, R415, R426): page, offset, stride and count of a repeated register, bit position, width, access type and reset value.
Reset values 'fuse', 'strap', 'pin', 'repair set', 'const' and 'core ID' (R418) are read from the state's fuses, straps and pins; the number in such a row is the model's default (notes/assumptions/3.md).
-/

namespace Sys2Proof.Machine

/-- Access types of R417. -/
inductive Acc where
  | ro | rw | w1c | wo | rws | rwl
  deriving DecidableEq, Repr

/-- One register field: `core` says core page or die page; `pages` how many pages carry it (ports of LINK,
slices of YREP, the two floor-plan pages); copy `i` of a repeated register lies at `off + stride * i`. -/
structure Row where
  core : Bool
  page : Nat
  pages : Nat
  off : Nat
  stride : Nat
  count : Nat
  lsb : Nat
  width : Nat
  acc : Acc
  reset : Nat
  /-- The reset value is the core ID (R418). -/
  byId : Bool := false
  deriving DecidableEq, Repr

/-- The address of a field in unit `u` (core, port, slice, floor-plan page), copy `i` (R22, R424, R427). -/
def Row.addr (r : Row) (u i : Nat) : Nat :=
  if r.core then 0x10000000000 + u * 0x100000 + 0xE0000 + r.page * 0x1000 + r.off + r.stride * i
  else 0x20000000000 + (r.page + u) * 0x1000 + r.off + r.stride * i

/-- The key of a field in the register store. -/
def Row.key (r : Row) (u i : Nat) : Nat := r.addr u i * 64 + r.lsb

/-- The reset value of a field (R418). -/
def Row.resetOf (r : Row) (u : Nat) : Nat := if r.byId then u else r.reset

/-- The REFUSED counter of a page's header (R416). -/
def Reg.refused (core : Bool) (page : Nat) : Row := ⟨core, page, 1, 0x18, 0, 1, 0, 32, .ro, 0, false⟩

namespace Reg

/-- R18. -/
def PLACE_DIE_ID : Row := ⟨false, 1, 1, 0x40, 0, 1, 0, 4, .ro, 0x0, false⟩
/-- R18. -/
def PLACE_VALID : Row := ⟨false, 1, 1, 0x40, 0, 1, 4, 1, .ro, 0x0, false⟩
/-- R18. -/
def PLACE_POS_STRAP : Row := ⟨false, 1, 1, 0x40, 0, 1, 5, 3, .ro, 0x0, false⟩
/-- R18. -/
def PLACE_RING_SIZE : Row := ⟨false, 1, 1, 0x40, 0, 1, 8, 4, .ro, 0x0, false⟩
/-- R18. -/
def PLACE_MASTER : Row := ⟨false, 1, 1, 0x40, 0, 1, 12, 1, .ro, 0x0, false⟩
/-- R18. -/
def PLACE_PACKAGE_ID : Row := ⟨false, 1, 1, 0x48, 0, 1, 0, 16, .rwl, 0x0, false⟩
/-- R18. -/
def PLACE_ROLE : Row := ⟨false, 1, 1, 0x50, 0, 1, 0, 16, .ro, 0x0, false⟩
/-- R18. -/
def PLACE_PEER : Row := ⟨false, 1, 1, 0x58, 0, 1, 0, 32, .ro, 0x0, false⟩
/-- R32. -/
def FLOOR_GEN : Row := ⟨false, 2, 1, 0x40, 0, 1, 0, 32, .ro, 0x0, false⟩
/-- R32. -/
def FLOOR_SOURCE : Row := ⟨false, 2, 1, 0x40, 0, 1, 32, 2, .ro, 0x0, false⟩
/-- R32. -/
def FLOOR_FULL_COUNT : Row := ⟨false, 2, 1, 0x48, 0, 1, 0, 11, .ro, 0x0, false⟩
/-- R32. -/
def FLOOR_NARROW_COUNT : Row := ⟨false, 2, 1, 0x48, 0, 1, 11, 11, .ro, 0x0, false⟩
/-- R32. -/
def FLOOR_DEAD_COUNT : Row := ⟨false, 2, 1, 0x48, 0, 1, 22, 11, .ro, 0x0, false⟩
/-- R32. -/
def FLOOR_FUSED_FULL : Row := ⟨false, 2, 1, 0x48, 0, 1, 33, 11, .ro, 0x400, false⟩
/-- R32. -/
def FLOOR_STATE : Row := ⟨false, 2, 2, 0x800, 4, 512, 0, 2, .ro, 0x0, false⟩
/-- R32. -/
def FLOOR_ARRAYS : Row := ⟨false, 2, 2, 0x800, 4, 512, 2, 4, .ro, 0x0, false⟩
/-- R32. -/
def FLOOR_SPARE_ROW : Row := ⟨false, 2, 2, 0x800, 4, 512, 6, 4, .ro, 0x0, false⟩
/-- R32. -/
def FLOOR_SPARE_COL : Row := ⟨false, 2, 2, 0x800, 4, 512, 10, 4, .ro, 0x0, false⟩
/-- R32. -/
def FLOOR_BED_SPARES : Row := ⟨false, 2, 2, 0x800, 4, 512, 14, 5, .ro, 0x0, false⟩
/-- R32. -/
def FLOOR_CAUSE : Row := ⟨false, 2, 2, 0x800, 4, 512, 19, 3, .ro, 0x0, false⟩
/-- R32. -/
def FLOOR_CHANGED : Row := ⟨false, 2, 2, 0x800, 4, 512, 22, 1, .ro, 0x0, false⟩
/-- R63. -/
def CTRL_SLIP_ENABLE : Row := ⟨false, 4, 1, 0x40, 0, 1, 0, 1, .rw, 0x0, false⟩
/-- R63. -/
def CTRL_QUEUE_MODE : Row := ⟨false, 4, 1, 0x40, 0, 1, 1, 1, .rw, 0x0, false⟩
/-- R63. -/
def CTRL_PERIOD : Row := ⟨false, 4, 1, 0x48, 0, 1, 0, 24, .rw, 0x2134, false⟩
/-- R63. -/
def CTRL_SLACK_RESERVE : Row := ⟨false, 4, 1, 0x50, 0, 1, 0, 24, .rw, 0x1A9, false⟩
/-- R63. -/
def CTRL_SLIP_LEAD : Row := ⟨false, 4, 1, 0x50, 0, 1, 24, 24, .rw, 0x200, false⟩
/-- R63. -/
def CTRL_TIMESTAMP : Row := ⟨false, 4, 1, 0x58, 0, 1, 0, 64, .ro, 0x0, false⟩
/-- R63. -/
def CTRL_COURSE_NUMBER : Row := ⟨false, 4, 1, 0x60, 0, 1, 0, 40, .ro, 0x0, false⟩
/-- R63. -/
def CTRL_SLIP_COUNT : Row := ⟨false, 4, 1, 0x68, 0, 1, 0, 32, .ro, 0x0, false⟩
/-- R63. -/
def CTRL_SLIPPING : Row := ⟨false, 4, 1, 0x68, 0, 1, 32, 1, .ro, 0x0, false⟩
/-- R63. -/
def CTRL_LAST_SLIP_TICK : Row := ⟨false, 4, 1, 0x70, 0, 1, 0, 40, .ro, 0x0, false⟩
/-- R63. -/
def CTRL_LAST_SLIP_REMOTE : Row := ⟨false, 4, 1, 0x70, 0, 1, 40, 1, .ro, 0x0, false⟩
/-- R63. -/
def CTRL_OVERRUN_CORE : Row := ⟨false, 4, 1, 0x78, 0, 1, 0, 10, .ro, 0x0, false⟩
/-- R63. -/
def CTRL_OVERRUN_VALID : Row := ⟨false, 4, 1, 0x78, 0, 1, 10, 1, .w1c, 0x0, false⟩
/-- R64. -/
def SEQ_RUN : Row := ⟨true, 0, 1, 0x40, 0, 1, 0, 2, .ro, 0x0, false⟩
/-- R64. -/
def SEQ_DONE : Row := ⟨true, 0, 1, 0x40, 0, 1, 2, 1, .ro, 0x0, false⟩
/-- R64. -/
def SEQ_ENTRY : Row := ⟨true, 0, 1, 0x48, 0, 1, 0, 14, .rw, 0x0, false⟩
/-- R64. -/
def SEQ_LAST_HOLD : Row := ⟨true, 0, 1, 0x50, 0, 1, 0, 24, .ro, 0x0, false⟩
/-- R64. -/
def SEQ_MAX_HOLD : Row := ⟨true, 0, 1, 0x50, 0, 1, 24, 24, .ro, 0x0, false⟩
/-- R64. -/
def SEQ_LAST_SLACK : Row := ⟨true, 0, 1, 0x58, 0, 1, 0, 24, .ro, 0x0, false⟩
/-- R64. -/
def SEQ_MIN_SLACK : Row := ⟨true, 0, 1, 0x58, 0, 1, 24, 24, .ro, 0x0, false⟩
/-- R64. -/
def SEQ_ECC_HOLD : Row := ⟨true, 0, 1, 0x60, 0, 1, 0, 32, .ro, 0x0, false⟩
/-- R64. -/
def SEQ_FEED_HOLD : Row := ⟨true, 0, 1, 0x60, 0, 1, 32, 32, .ro, 0x0, false⟩
/-- R64. -/
def SEQ_WAIT_HOLD : Row := ⟨true, 0, 1, 0x68, 0, 1, 0, 32, .ro, 0x0, false⟩
/-- R64. -/
def SEQ_QUEUE_HOLD : Row := ⟨true, 0, 1, 0x68, 0, 1, 32, 32, .ro, 0x0, false⟩
/-- R64. -/
def SEQ_CREDIT_HOLD : Row := ⟨true, 0, 1, 0x70, 0, 1, 0, 32, .ro, 0x0, false⟩
/-- R64. -/
def SEQ_FETCH_HOLD : Row := ⟨true, 0, 1, 0x70, 0, 1, 32, 32, .ro, 0x0, false⟩
/-- R64. -/
def SEQ_POWER_HOLD : Row := ⟨true, 0, 1, 0x78, 0, 1, 0, 32, .ro, 0x0, false⟩
/-- R64. -/
def SEQ_DRAIN_HOLD : Row := ⟨true, 0, 1, 0x78, 0, 1, 32, 32, .ro, 0x0, false⟩
/-- R64. -/
def SEQ_COMMITS : Row := ⟨true, 0, 1, 0x80, 0, 1, 0, 32, .ro, 0x0, false⟩
/-- R64. -/
def SEQ_DISCARDS : Row := ⟨true, 0, 1, 0x80, 0, 1, 32, 32, .ro, 0x0, false⟩
/-- R89. -/
def NUM_SEED : Row := ⟨true, 3, 1, 0x40, 0, 1, 0, 64, .rw, 0x0, false⟩
/-- R89. -/
def NUM_TAG : Row := ⟨true, 3, 1, 0x48, 0, 1, 0, 10, .rw, 0x0, true⟩
/-- R89. -/
def NUM_VSTRICT : Row := ⟨true, 3, 1, 0x50, 0, 1, 0, 1, .rw, 0x0, false⟩
/-- R89. -/
def NUM_SR_COUNT : Row := ⟨true, 3, 1, 0x58, 0, 1, 0, 32, .ro, 0x0, false⟩
/-- R107. -/
def ARRAY_REPAIR : Row := ⟨true, 1, 1, 0x40, 0, 1, 0, 64, .ro, 0x0, false⟩
/-- R107. -/
def ARRAY_ISSUED0 : Row := ⟨true, 1, 1, 0x48, 0, 1, 0, 32, .ro, 0x0, false⟩
/-- R107. -/
def ARRAY_ISSUED1 : Row := ⟨true, 1, 1, 0x48, 0, 1, 32, 32, .ro, 0x0, false⟩
/-- R107. -/
def ARRAY_ISSUED2 : Row := ⟨true, 1, 1, 0x50, 0, 1, 0, 32, .ro, 0x0, false⟩
/-- R107. -/
def ARRAY_ISSUED3 : Row := ⟨true, 1, 1, 0x50, 0, 1, 32, 32, .ro, 0x0, false⟩
/-- R107. -/
def ARRAY_FEED0 : Row := ⟨true, 1, 1, 0x58, 0, 1, 0, 32, .ro, 0x0, false⟩
/-- R107. -/
def ARRAY_FEED1 : Row := ⟨true, 1, 1, 0x58, 0, 1, 32, 32, .ro, 0x0, false⟩
/-- R107. -/
def ARRAY_FEED2 : Row := ⟨true, 1, 1, 0x60, 0, 1, 0, 32, .ro, 0x0, false⟩
/-- R107. -/
def ARRAY_FEED3 : Row := ⟨true, 1, 1, 0x60, 0, 1, 32, 32, .ro, 0x0, false⟩
/-- R107. -/
def ARRAY_FAULT : Row := ⟨true, 1, 1, 0x68, 0, 1, 0, 3, .ro, 0x0, false⟩
/-- R107. -/
def ARRAY_FAULT_ARRAY : Row := ⟨true, 1, 1, 0x68, 0, 1, 3, 3, .ro, 0x0, false⟩
/-- R107. -/
def ARRAY_FAULT_CYCLE : Row := ⟨true, 1, 1, 0x68, 0, 1, 6, 24, .ro, 0x0, false⟩
/-- R129. -/
def ACC_WINDOW_LOSS : Row := ⟨true, 2, 1, 0x40, 0, 1, 0, 48, .ro, 0x0, false⟩
/-- R129. -/
def ACC_ROUNDED : Row := ⟨true, 2, 1, 0x48, 0, 1, 0, 32, .ro, 0x0, false⟩
/-- R129. -/
def ACC_LOSS_EVENTS : Row := ⟨true, 2, 1, 0x48, 0, 1, 32, 32, .ro, 0x0, false⟩
/-- R129. -/
def ACC_FAULT : Row := ⟨true, 2, 1, 0x50, 0, 1, 0, 2, .ro, 0x0, false⟩
/-- R129. -/
def ACC_FAULT_ARRAY : Row := ⟨true, 2, 1, 0x50, 0, 1, 2, 2, .ro, 0x0, false⟩
/-- R129. -/
def ACC_FAULT_ENTRY : Row := ⟨true, 2, 1, 0x50, 0, 1, 4, 4, .ro, 0x0, false⟩
/-- R129. -/
def ACC_FAULT_ELEMENT : Row := ⟨true, 2, 1, 0x50, 0, 1, 8, 8, .ro, 0x0, false⟩
/-- R129. -/
def ACC_FAULT_CYCLE : Row := ⟨true, 2, 1, 0x50, 0, 1, 16, 24, .ro, 0x0, false⟩
/-- R129. -/
def ACC_DBG_ARRAY : Row := ⟨true, 2, 1, 0x58, 0, 1, 0, 2, .rw, 0x0, false⟩
/-- R129. -/
def ACC_DBG_ENTRY : Row := ⟨true, 2, 1, 0x58, 0, 1, 2, 4, .rw, 0x0, false⟩
/-- R129. -/
def ACC_DBG_ELEMENT : Row := ⟨true, 2, 1, 0x58, 0, 1, 6, 8, .rw, 0x0, false⟩
/-- R129. -/
def ACC_DBG_META : Row := ⟨true, 2, 1, 0x60, 0, 1, 0, 32, .ro, 0x0, false⟩
/-- R146. -/
def POINT_BIN_BASE : Row := ⟨true, 4, 1, 0x40, 0, 1, 0, 8, .rw, 0xE0, false⟩
/-- R146. -/
def POINT_HIST_CLEAR : Row := ⟨true, 4, 1, 0x48, 0, 1, 0, 2, .wo, 0x0, false⟩
/-- R146. -/
def POINT_SAT : Row := ⟨true, 4, 1, 0x50, 0, 1, 0, 4, .ro, 0x0, false⟩
/-- R146. -/
def POINT_LAST_SAT : Row := ⟨true, 4, 1, 0x50, 0, 1, 4, 4, .ro, 0x0, false⟩
/-- R146. -/
def POINT_SAT_COUNT : Row := ⟨true, 4, 1, 0x58, 0, 1, 0, 32, .ro, 0x0, false⟩
/-- R146. -/
def POINT_VANISH_COUNT : Row := ⟨true, 4, 1, 0x58, 0, 1, 32, 32, .ro, 0x0, false⟩
/-- R146. -/
def POINT_NAN_COUNT : Row := ⟨true, 4, 1, 0x60, 0, 1, 0, 32, .ro, 0x0, false⟩
/-- R146. -/
def POINT_REPLAY_ROWS : Row := ⟨true, 4, 1, 0x60, 0, 1, 32, 32, .ro, 0x0, false⟩
/-- R146. -/
def POINT_EXPORTS : Row := ⟨true, 4, 1, 0x68, 0, 1, 0, 32, .ro, 0x0, false⟩
/-- R146. -/
def POINT_FAULT : Row := ⟨true, 4, 1, 0x70, 0, 1, 0, 3, .ro, 0x0, false⟩
/-- R146. -/
def POINT_FAULT_ARRAY : Row := ⟨true, 4, 1, 0x70, 0, 1, 3, 2, .ro, 0x0, false⟩
/-- R146. -/
def POINT_FAULT_CYCLE : Row := ⟨true, 4, 1, 0x70, 0, 1, 5, 24, .ro, 0x0, false⟩
/-- R146. -/
def POINT_BIN0 : Row := ⟨true, 4, 1, 0x100, 4, 64, 0, 32, .ro, 0x0, false⟩
/-- R146. -/
def POINT_BIN1 : Row := ⟨true, 4, 1, 0x300, 4, 64, 0, 32, .ro, 0x0, false⟩
/-- R146. -/
def POINT_ZERO : Row := ⟨true, 4, 1, 0x200, 512, 2, 0, 32, .ro, 0x0, false⟩
/-- R146. -/
def POINT_VANISHED : Row := ⟨true, 4, 1, 0x204, 512, 2, 0, 32, .ro, 0x0, false⟩
/-- R146. -/
def POINT_SATURATED : Row := ⟨true, 4, 1, 0x208, 512, 2, 0, 32, .ro, 0x0, false⟩
/-- R146. -/
def POINT_NAN : Row := ⟨true, 4, 1, 0x20C, 512, 2, 0, 32, .ro, 0x0, false⟩
/-- R146. -/
def POINT_INF : Row := ⟨true, 4, 1, 0x210, 512, 2, 0, 32, .ro, 0x0, false⟩
/-- R165. -/
def DRESS_BEYLER : Row := ⟨true, 5, 1, 0x40, 0, 1, 0, 1, .rw, 0x0, false⟩
/-- R165. -/
def DRESS_VL : Row := ⟨true, 5, 1, 0x48, 0, 1, 0, 7, .ro, 0x40, false⟩
/-- R165. -/
def DRESS_RL : Row := ⟨true, 5, 1, 0x48, 0, 1, 7, 5, .ro, 0x10, false⟩
/-- R165. -/
def DRESS_IV : Row := ⟨true, 5, 1, 0x50, 0, 1, 0, 1, .w1c, 0x0, false⟩
/-- R165. -/
def DRESS_DZ : Row := ⟨true, 5, 1, 0x50, 0, 1, 1, 1, .w1c, 0x0, false⟩
/-- R165. -/
def DRESS_OF : Row := ⟨true, 5, 1, 0x50, 0, 1, 2, 1, .w1c, 0x0, false⟩
/-- R165. -/
def DRESS_UF : Row := ⟨true, 5, 1, 0x50, 0, 1, 3, 1, .w1c, 0x0, false⟩
/-- R165. -/
def DRESS_NX : Row := ⟨true, 5, 1, 0x50, 0, 1, 4, 1, .w1c, 0x0, false⟩
/-- R165. -/
def DRESS_AZ : Row := ⟨true, 5, 1, 0x50, 0, 1, 5, 1, .w1c, 0x0, false⟩
/-- R165. -/
def DRESS_CVT_NAN : Row := ⟨true, 5, 1, 0x58, 0, 1, 0, 32, .ro, 0x0, false⟩
/-- R165. -/
def DRESS_CVT_SAT : Row := ⟨true, 5, 1, 0x58, 0, 1, 32, 32, .ro, 0x0, false⟩
/-- R165. -/
def DRESS_CVT_VANISH : Row := ⟨true, 5, 1, 0x60, 0, 1, 0, 32, .ro, 0x0, false⟩
/-- R165. -/
def DRESS_AMAX_ZERO : Row := ⟨true, 5, 1, 0x60, 0, 1, 32, 32, .ro, 0x0, false⟩
/-- R165. -/
def DRESS_HOD_COUNT : Row := ⟨true, 5, 1, 0x68, 0, 1, 0, 3, .ro, 0x0, false⟩
/-- R165. -/
def DRESS_HOD_FINAL : Row := ⟨true, 5, 1, 0x68, 0, 1, 3, 3, .ro, 0x0, false⟩
/-- R165. -/
def DRESS_COUPLING : Row := ⟨true, 5, 1, 0x68, 0, 1, 6, 1, .ro, 0x0, false⟩
/-- R165. -/
def DRESS_VOPS : Row := ⟨true, 5, 1, 0x70, 0, 1, 0, 32, .ro, 0x0, false⟩
/-- R165. -/
def DRESS_BUSY : Row := ⟨true, 5, 1, 0x70, 0, 1, 32, 32, .ro, 0x0, false⟩
/-- R165. -/
def DRESS_FAULT : Row := ⟨true, 5, 1, 0x78, 0, 1, 0, 3, .ro, 0x0, false⟩
/-- R165. -/
def DRESS_FAULT_CYCLE : Row := ⟨true, 5, 1, 0x78, 0, 1, 3, 24, .ro, 0x0, false⟩
/-- R181. -/
def TPL_ACTIVE : Row := ⟨true, 6, 1, 0x40, 0, 1, 0, 1, .ro, 0x0, false⟩
/-- R181. -/
def TPL_SHADOW_READY : Row := ⟨true, 6, 1, 0x40, 0, 1, 1, 1, .ro, 0x0, false⟩
/-- R181. -/
def TPL_LOADING : Row := ⟨true, 6, 1, 0x40, 0, 1, 2, 1, .ro, 0x0, false⟩
/-- R181. -/
def TPL_BEYLER : Row := ⟨true, 6, 1, 0x40, 0, 1, 3, 1, .ro, 0x0, false⟩
/-- R181. -/
def TPL_TABLE_BUSY : Row := ⟨true, 6, 1, 0x48, 0, 1, 0, 1, .w1c, 0x0, false⟩
/-- R181. -/
def TPL_EVALS : Row := ⟨true, 6, 1, 0x50, 0, 1, 0, 32, .ro, 0x0, false⟩
/-- R181. -/
def TPL_SWAPS : Row := ⟨true, 6, 1, 0x50, 0, 1, 32, 32, .ro, 0x0, false⟩
/-- R181. -/
def TPL_LOADS : Row := ⟨true, 6, 1, 0x58, 0, 1, 0, 32, .ro, 0x0, false⟩
/-- R181. -/
def TPL_REFUSED : Row := ⟨true, 6, 1, 0x58, 0, 1, 32, 32, .ro, 0x0, false⟩
/-- R181. -/
def TPL_FAULT : Row := ⟨true, 6, 1, 0x60, 0, 1, 0, 3, .ro, 0x0, false⟩
/-- R181. -/
def TPL_FAULT_CYCLE : Row := ⟨true, 6, 1, 0x60, 0, 1, 3, 24, .ro, 0x0, false⟩
/-- R181. -/
def TPL_IMG_BANK : Row := ⟨true, 6, 1, 0x68, 0, 1, 0, 1, .rw, 0x0, false⟩
/-- R181. -/
def TPL_IMG_SEG : Row := ⟨true, 6, 1, 0x68, 0, 1, 1, 11, .rw, 0x0, false⟩
/-- R181. -/
def TPL_IMG_LO : Row := ⟨true, 6, 1, 0x70, 0, 1, 0, 64, .ro, 0x0, false⟩
/-- R181. -/
def TPL_IMG_HI : Row := ⟨true, 6, 1, 0x78, 0, 1, 0, 64, .ro, 0x0, false⟩
/-- R202. -/
def ISSUE_FAULT : Row := ⟨true, 7, 1, 0x40, 0, 1, 0, 3, .ro, 0x0, false⟩
/-- R202. -/
def ISSUE_SLOT : Row := ⟨true, 7, 1, 0x40, 0, 1, 3, 3, .ro, 0x0, false⟩
/-- R202. -/
def ISSUE_REASON : Row := ⟨true, 7, 1, 0x40, 0, 1, 6, 4, .ro, 0x0, false⟩
/-- R202. -/
def ISSUE_CYCLE : Row := ⟨true, 7, 1, 0x40, 0, 1, 10, 24, .ro, 0x0, false⟩
/-- R202. -/
def ISSUE_INDEX : Row := ⟨true, 7, 1, 0x40, 0, 1, 34, 14, .ro, 0x0, false⟩
/-- R202. -/
def ISSUE_BUNDLE0 : Row := ⟨true, 7, 1, 0x48, 0, 1, 0, 64, .ro, 0x0, false⟩
/-- R202. -/
def ISSUE_BUNDLE1 : Row := ⟨true, 7, 1, 0x50, 0, 1, 0, 64, .ro, 0x0, false⟩
/-- R202. -/
def ISSUE_BUNDLE2 : Row := ⟨true, 7, 1, 0x58, 0, 1, 0, 64, .ro, 0x0, false⟩
/-- R202. -/
def ISSUE_BUNDLE3 : Row := ⟨true, 7, 1, 0x60, 0, 1, 0, 64, .ro, 0x0, false⟩
/-- R202. -/
def ISSUE_ISSUED : Row := ⟨true, 7, 1, 0x68, 0, 1, 0, 32, .ro, 0x0, false⟩
/-- R202. -/
def ISSUE_DELAYED : Row := ⟨true, 7, 1, 0x68, 0, 1, 32, 32, .ro, 0x0, false⟩
/-- R202. -/
def ISSUE_TAKEN : Row := ⟨true, 7, 1, 0x70, 0, 1, 0, 32, .ro, 0x0, false⟩
/-- R202. -/
def ISSUE_DEMAND : Row := ⟨true, 7, 1, 0x70, 0, 1, 32, 32, .ro, 0x0, false⟩
/-- R227. -/
def HANDLE_BASE : Row := ⟨true, 8, 1, 0x800, 32, 64, 0, 64, .rw, 0x0, false⟩
/-- R227. -/
def HANDLE_EXTENT : Row := ⟨true, 8, 1, 0x808, 32, 64, 0, 40, .rw, 0x0, false⟩
/-- R227. -/
def HANDLE_KIND : Row := ⟨true, 8, 1, 0x808, 32, 64, 40, 4, .rw, 0x0, false⟩
/-- R227. -/
def HANDLE_VIEW : Row := ⟨true, 8, 1, 0x808, 32, 64, 44, 2, .rw, 0x0, false⟩
/-- R227. -/
def HANDLE_INDEX : Row := ⟨true, 8, 1, 0x808, 32, 64, 48, 8, .rw, 0x0, false⟩
/-- R227. -/
def HANDLE_ASSOC : Row := ⟨true, 8, 1, 0x808, 32, 64, 56, 1, .rw, 0x0, false⟩
/-- R228. -/
def BED_CORR_WIDE : Row := ⟨true, 9, 1, 0x40, 0, 1, 0, 32, .ro, 0x0, false⟩
/-- R228. -/
def BED_CORR_NARROW : Row := ⟨true, 9, 1, 0x40, 0, 1, 32, 32, .ro, 0x0, false⟩
/-- R228. -/
def BED_CORR_ACC : Row := ⟨true, 9, 1, 0x48, 0, 1, 0, 32, .ro, 0x0, false⟩
/-- R228. -/
def BED_LATE_ACCESS : Row := ⟨true, 9, 1, 0x48, 0, 1, 32, 32, .ro, 0x0, false⟩
/-- R228. -/
def BED_MAX_WAIT : Row := ⟨true, 9, 1, 0x50, 0, 1, 0, 8, .ro, 0x0, false⟩
/-- R228. -/
def BED_FORCED : Row := ⟨true, 9, 1, 0x58, 0, 1, 0, 32, .ro, 0x0, false⟩
/-- R228. -/
def BED_PARTIAL : Row := ⟨true, 9, 1, 0x58, 0, 1, 32, 32, .ro, 0x0, false⟩
/-- R228. -/
def BED_SPARE_LO : Row := ⟨true, 9, 1, 0x60, 0, 1, 0, 64, .ro, 0x0, false⟩
/-- R228. -/
def BED_SPARE_HI : Row := ⟨true, 9, 1, 0x68, 0, 1, 0, 64, .ro, 0x0, false⟩
/-- R228. -/
def BED_UE_BANK : Row := ⟨true, 9, 1, 0x70, 0, 1, 0, 4, .ro, 0x0, false⟩
/-- R228. -/
def BED_UE_LINE : Row := ⟨true, 9, 1, 0x70, 0, 1, 4, 6, .ro, 0x0, false⟩
/-- R228. -/
def BED_UE_WORD : Row := ⟨true, 9, 1, 0x70, 0, 1, 10, 6, .ro, 0x0, false⟩
/-- R228. -/
def BED_UE_VALID : Row := ⟨true, 9, 1, 0x70, 0, 1, 16, 1, .ro, 0x0, false⟩
/-- R229. -/
def YARD_YARD_CORR : Row := ⟨false, 5, 1, 0x40, 0, 1, 0, 32, .ro, 0x0, false⟩
/-- R229. -/
def YARD_YARD_UE : Row := ⟨false, 5, 1, 0x40, 0, 1, 32, 32, .ro, 0x0, false⟩
/-- R229. -/
def YARD_BED_CORR : Row := ⟨false, 5, 1, 0x48, 0, 1, 0, 32, .ro, 0x0, false⟩
/-- R229. -/
def YARD_BED_UE : Row := ⟨false, 5, 1, 0x48, 0, 1, 32, 32, .ro, 0x0, false⟩
/-- R229. -/
def YARD_EXHAUSTED : Row := ⟨false, 5, 1, 0x50, 0, 1, 0, 64, .ro, 0x0, false⟩
/-- R229. -/
def YARD_SCRUB_EN : Row := ⟨false, 5, 1, 0x58, 0, 1, 0, 1, .rws, 0x1, false⟩
/-- R229. -/
def YARD_HARD_PENDING : Row := ⟨false, 5, 1, 0x60, 0, 1, 0, 16, .ro, 0x0, false⟩
/-- R229. -/
def YARD_REPAIRED : Row := ⟨false, 5, 1, 0x60, 0, 1, 16, 16, .ro, 0x0, false⟩
/-- R229. -/
def YARD_PASSES : Row := ⟨false, 5, 1, 0x60, 0, 1, 32, 32, .ro, 0x0, false⟩
/-- R229. -/
def YARD_REPAIR_STATE : Row := ⟨false, 5, 1, 0x68, 0, 1, 0, 2, .ro, 0x0, false⟩
/-- R229. -/
def YARD_REPAIR_MEM : Row := ⟨false, 5, 1, 0x68, 0, 1, 2, 1, .ro, 0x0, false⟩
/-- R229. -/
def YARD_REPAIR_UNIT : Row := ⟨false, 5, 1, 0x68, 0, 1, 3, 10, .ro, 0x0, false⟩
/-- R229. -/
def YARD_REPAIR_ROW : Row := ⟨false, 5, 1, 0x68, 0, 1, 13, 12, .ro, 0x0, false⟩
/-- R230. -/
def YREP_USED : Row := ⟨false, 64, 64, 0x40, 0, 1, 0, 10, .ro, 0x0, false⟩
/-- R230. -/
def YREP_BAD : Row := ⟨false, 64, 64, 0x40, 0, 1, 10, 10, .ro, 0x0, false⟩
/-- R230. -/
def YREP_ROW : Row := ⟨false, 64, 64, 0x800, 4, 512, 0, 12, .ro, 0x0, false⟩
/-- R230. -/
def YREP_VALID : Row := ⟨false, 64, 64, 0x800, 4, 512, 12, 1, .ro, 0x0, false⟩
/-- R230. -/
def YREP_SPARE_BAD : Row := ⟨false, 64, 64, 0x800, 4, 512, 13, 1, .ro, 0x0, false⟩
/-- R230. -/
def YREP_ORIGIN : Row := ⟨false, 64, 64, 0x800, 4, 512, 14, 2, .ro, 0x0, false⟩
/-- R259. -/
def SYNC_NACK_STOP : Row := ⟨true, 10, 1, 0x40, 0, 1, 0, 1, .rw, 0x1, false⟩
/-- R259. -/
def SYNC_ARRIVED : Row := ⟨true, 10, 1, 0x48, 0, 1, 0, 8, .ro, 0x0, false⟩
/-- R259. -/
def SYNC_TIE_FAIL0 : Row := ⟨true, 10, 1, 0x50, 0, 1, 0, 64, .w1c, 0x0, false⟩
/-- R259. -/
def SYNC_TIE_FAIL1 : Row := ⟨true, 10, 1, 0x58, 0, 1, 0, 64, .w1c, 0x0, false⟩
/-- R259. -/
def SYNC_TIE_FAIL2 : Row := ⟨true, 10, 1, 0x60, 0, 1, 0, 64, .w1c, 0x0, false⟩
/-- R259. -/
def SYNC_TIE_FAIL3 : Row := ⟨true, 10, 1, 0x68, 0, 1, 0, 64, .w1c, 0x0, false⟩
/-- R259. -/
def SYNC_ADDS_SENT : Row := ⟨true, 10, 1, 0x70, 0, 1, 0, 32, .ro, 0x0, false⟩
/-- R259. -/
def SYNC_ADDS_APPLIED : Row := ⟨true, 10, 1, 0x70, 0, 1, 32, 32, .ro, 0x0, false⟩
/-- R259. -/
def SYNC_UNDERFLOWS : Row := ⟨true, 10, 1, 0x78, 0, 1, 0, 32, .ro, 0x0, false⟩
/-- R259. -/
def SYNC_OVERFLOWS : Row := ⟨true, 10, 1, 0x78, 0, 1, 32, 32, .ro, 0x0, false⟩
/-- R259. -/
def SYNC_LATE_WRITES : Row := ⟨true, 10, 1, 0x80, 0, 1, 0, 32, .ro, 0x0, false⟩
/-- R259. -/
def SYNC_NACKS_RECEIVED : Row := ⟨true, 10, 1, 0x80, 0, 1, 32, 32, .ro, 0x0, false⟩
/-- R259. -/
def SYNC_MOVE_FAILS : Row := ⟨true, 10, 1, 0x88, 0, 1, 0, 32, .ro, 0x0, false⟩
/-- R259. -/
def SYNC_WAITS : Row := ⟨true, 10, 1, 0x88, 0, 1, 32, 32, .ro, 0x0, false⟩
/-- R259. -/
def SYNC_FAULT : Row := ⟨true, 10, 1, 0x90, 0, 1, 0, 3, .ro, 0x0, false⟩
/-- R259. -/
def SYNC_FAULT_CYCLE : Row := ⟨true, 10, 1, 0x90, 0, 1, 3, 24, .ro, 0x0, false⟩
/-- R259. -/
def SYNC_FAULT_INDEX : Row := ⟨true, 10, 1, 0x90, 0, 1, 27, 8, .ro, 0x0, false⟩
/-- R259. -/
def SYNC_SLOTS_USED : Row := ⟨true, 10, 1, 0x98, 0, 1, 0, 5, .ro, 0x0, false⟩
/-- R259. -/
def SYNC_HOME_CORE : Row := ⟨true, 10, 1, 0x400, 4, 256, 0, 10, .rw, 0x0, false⟩
/-- R259. -/
def SYNC_HOME_TIE : Row := ⟨true, 10, 1, 0x400, 4, 256, 10, 8, .rw, 0x0, false⟩
/-- R259. -/
def SYNC_BOUND : Row := ⟨true, 10, 1, 0x400, 4, 256, 18, 1, .rw, 0x0, false⟩
/-- R259. -/
def SYNC_THRESHOLD : Row := ⟨true, 10, 1, 0x800, 16, 16, 0, 64, .ro, 0x0, false⟩
/-- R259. -/
def SYNC_VALID : Row := ⟨true, 10, 1, 0x808, 16, 16, 0, 1, .ro, 0x0, false⟩
/-- R259. -/
def SYNC_TAKE : Row := ⟨true, 10, 1, 0x808, 16, 16, 1, 1, .ro, 0x0, false⟩
/-- R259. -/
def SYNC_TIE : Row := ⟨true, 10, 1, 0x808, 16, 16, 2, 8, .ro, 0x0, false⟩
/-- R259. -/
def SYNC_REQUESTER : Row := ⟨true, 10, 1, 0x808, 16, 16, 10, 11, .ro, 0x0, false⟩
/-- R259. -/
def SYNC_REMAIN : Row := ⟨true, 10, 1, 0x808, 16, 16, 21, 32, .ro, 0x0, false⟩
/-- R260. -/
def ARCH_CROSS : Row := ⟨false, 6, 1, 0x40, 8, 8, 0, 1, .rw, 0x0, false⟩
/-- R260. -/
def ARCH_DIES : Row := ⟨false, 6, 1, 0x40, 8, 8, 1, 8, .rw, 0x0, false⟩
/-- R260. -/
def ARCH_FORCE : Row := ⟨false, 6, 1, 0x40, 8, 8, 9, 1, .wo, 0x0, false⟩
/-- R260. -/
def ARCH_OPEN : Row := ⟨false, 6, 1, 0x40, 8, 8, 10, 1, .ro, 0x0, false⟩
/-- R260. -/
def ARCH_ARRIVED_COUNT : Row := ⟨false, 6, 1, 0x40, 8, 8, 11, 11, .ro, 0x0, false⟩
/-- R260. -/
def ARCH_CLOSURES : Row := ⟨false, 6, 1, 0x40, 8, 8, 22, 32, .ro, 0x0, false⟩
/-- R260. -/
def ARCH_PLANE_STALL : Row := ⟨false, 6, 1, 0x80, 0, 1, 0, 32, .ro, 0x0, false⟩
/-- R260. -/
def ARCH_FORCED : Row := ⟨false, 6, 1, 0x80, 0, 1, 32, 32, .ro, 0x0, false⟩
/-- R260. -/
def ARCH_CORE : Row := ⟨false, 6, 1, 0x88, 0, 1, 0, 10, .rw, 0x0, false⟩
/-- R260. -/
def ARCH_KIND : Row := ⟨false, 6, 1, 0x88, 0, 1, 10, 2, .rw, 0x0, false⟩
/-- R260. -/
def ARCH_INDEX : Row := ⟨false, 6, 1, 0x88, 0, 1, 12, 8, .rw, 0x0, false⟩
/-- R260. -/
def ARCH_GO : Row := ⟨false, 6, 1, 0x88, 0, 1, 20, 1, .wo, 0x0, false⟩
/-- R260. -/
def ARCH_DONE : Row := ⟨false, 6, 1, 0x88, 0, 1, 21, 1, .ro, 0x0, false⟩
/-- R260. -/
def ARCH_HANDSET_VALUE : Row := ⟨false, 6, 1, 0x90, 0, 1, 0, 64, .rw, 0x0, false⟩
/-- R260. -/
def ARCH_DUMP_BASE : Row := ⟨false, 6, 1, 0x98, 0, 1, 0, 27, .rw, 0x0, false⟩
/-- R260. -/
def ARCH_DUMP_GO : Row := ⟨false, 6, 1, 0x98, 0, 1, 27, 1, .wo, 0x0, false⟩
/-- R260. -/
def ARCH_DUMP_BUSY : Row := ⟨false, 6, 1, 0x98, 0, 1, 28, 1, .ro, 0x0, false⟩
/-- R260. -/
def ARCH_MASK : Row := ⟨false, 6, 1, 0x800, 8, 128, 0, 64, .rw, 0x0, false⟩
/-- R295. -/
def RING_CURRENT : Row := ⟨false, 7, 1, 0x40, 0, 1, 0, 16, .rws, 0x0, false⟩
/-- R295. -/
def RING_ENUM_STATE : Row := ⟨false, 7, 1, 0x48, 0, 1, 0, 3, .ro, 0x0, false⟩
/-- R295. -/
def RING_EXCL : Row := ⟨false, 7, 1, 0x48, 0, 1, 3, 8, .ro, 0x0, false⟩
/-- R295. -/
def RING_LINKS : Row := ⟨false, 7, 1, 0x50, 0, 1, 0, 16, .ro, 0x0, false⟩
/-- R295. -/
def RING_NEXT_HOP : Row := ⟨false, 7, 1, 0x58, 0, 1, 0, 32, .ro, 0xFFFFFFFF, false⟩
/-- R295. -/
def RING_HUB_HOP : Row := ⟨false, 7, 1, 0x58, 0, 1, 32, 32, .ro, 0xFFFFFFFF, false⟩
/-- R295. -/
def RING_ALIGN_GO : Row := ⟨false, 7, 1, 0x60, 0, 1, 0, 1, .wo, 0x0, false⟩
/-- R295. -/
def RING_ALIGNED : Row := ⟨false, 7, 1, 0x60, 0, 1, 1, 1, .ro, 0x0, false⟩
/-- R295. -/
def RING_LAG : Row := ⟨false, 7, 1, 0x68, 0, 1, 0, 32, .ro, 0x0, false⟩
/-- R295. -/
def RING_EDGES : Row := ⟨false, 7, 1, 0x68, 0, 1, 32, 32, .ro, 0x0, false⟩
/-- R295. -/
def RING_STALE : Row := ⟨false, 7, 1, 0x70, 0, 1, 0, 32, .ro, 0x0, false⟩
/-- R295. -/
def RING_STALE_EPOCH : Row := ⟨false, 7, 1, 0x70, 0, 1, 32, 16, .ro, 0x0, false⟩
/-- R295. -/
def RING_STALE_PKG : Row := ⟨false, 7, 1, 0x70, 0, 1, 48, 16, .ro, 0x0, false⟩
/-- R295. -/
def RING_STALE_DIE : Row := ⟨false, 7, 1, 0x78, 0, 1, 0, 4, .ro, 0x0, false⟩
/-- R295. -/
def RING_STALE_VALID : Row := ⟨false, 7, 1, 0x78, 0, 1, 4, 1, .ro, 0x0, false⟩
/-- R295. -/
def RING_UNROUTABLE : Row := ⟨false, 7, 1, 0x80, 0, 1, 0, 32, .ro, 0x0, false⟩
/-- R295. -/
def RING_MALFORMED : Row := ⟨false, 7, 1, 0x80, 0, 1, 32, 32, .ro, 0x0, false⟩
/-- R295. -/
def RING_LINK_DOWNS : Row := ⟨false, 7, 1, 0x88, 0, 1, 0, 16, .ro, 0x0, false⟩
/-- R296. -/
def LINK_STATE : Row := ⟨false, 16, 8, 0x40, 0, 1, 0, 3, .ro, 0x0, false⟩
/-- R296. -/
def LINK_TX_WIDTH : Row := ⟨false, 16, 8, 0x40, 0, 1, 3, 6, .ro, 0x0, false⟩
/-- R296. -/
def LINK_RX_WIDTH : Row := ⟨false, 16, 8, 0x40, 0, 1, 9, 6, .ro, 0x0, false⟩
/-- R296. -/
def LINK_DOWN_CAUSE : Row := ⟨false, 16, 8, 0x40, 0, 1, 15, 4, .ro, 0x0, false⟩
/-- R296. -/
def LINK_TX_LANES : Row := ⟨false, 16, 8, 0x48, 0, 1, 0, 32, .ro, 0x0, false⟩
/-- R296. -/
def LINK_RX_LANES : Row := ⟨false, 16, 8, 0x48, 0, 1, 32, 32, .ro, 0x0, false⟩
/-- R296. -/
def LINK_FEC_CORR : Row := ⟨false, 16, 8, 0x50, 0, 1, 0, 32, .ro, 0x0, false⟩
/-- R296. -/
def LINK_FEC_UNCORR : Row := ⟨false, 16, 8, 0x50, 0, 1, 32, 32, .ro, 0x0, false⟩
/-- R296. -/
def LINK_REPLAYS : Row := ⟨false, 16, 8, 0x58, 0, 1, 0, 32, .ro, 0x0, false⟩
/-- R296. -/
def LINK_LOST : Row := ⟨false, 16, 8, 0x58, 0, 1, 32, 32, .ro, 0x0, false⟩
/-- R296. -/
def LINK_TX_FLITS : Row := ⟨false, 16, 8, 0x60, 0, 1, 0, 64, .ro, 0x0, false⟩
/-- R296. -/
def LINK_RX_FLITS : Row := ⟨false, 16, 8, 0x68, 0, 1, 0, 64, .ro, 0x0, false⟩
/-- R296. -/
def LINK_RETRAIN : Row := ⟨false, 16, 8, 0x70, 0, 1, 0, 1, .wo, 0x0, false⟩
/-- R296. -/
def LINK_TRAIN_US : Row := ⟨false, 16, 8, 0x78, 0, 1, 0, 24, .ro, 0x0, false⟩
/-- R312. -/
def REBOND_OP_ID : Row := ⟨false, 8, 1, 0x40, 0, 1, 0, 32, .ro, 0x0, false⟩
/-- R312. -/
def REBOND_STATE : Row := ⟨false, 8, 1, 0x40, 0, 1, 32, 3, .ro, 0x0, false⟩
/-- R312. -/
def REBOND_CAUSE : Row := ⟨false, 8, 1, 0x40, 0, 1, 35, 4, .ro, 0x0, false⟩
/-- R312. -/
def REBOND_DESC : Row := ⟨false, 8, 1, 0x48, 0, 1, 0, 27, .ro, 0x0, false⟩
/-- R312. -/
def REBOND_TIMEOUT : Row := ⟨false, 8, 1, 0x50, 0, 1, 0, 32, .rw, 0xCF850, false⟩
/-- R312. -/
def REBOND_BYTES : Row := ⟨false, 8, 1, 0x58, 0, 1, 0, 48, .ro, 0x0, false⟩
/-- R312. -/
def REBOND_PACKETS : Row := ⟨false, 8, 1, 0x60, 0, 1, 0, 32, .ro, 0x0, false⟩
/-- R312. -/
def REBOND_NACKS : Row := ⟨false, 8, 1, 0x60, 0, 1, 32, 32, .ro, 0x0, false⟩
/-- R312. -/
def REBOND_SIGNALS : Row := ⟨false, 8, 1, 0x68, 0, 1, 0, 32, .ro, 0x0, false⟩
/-- R312. -/
def REBOND_ABANDONED : Row := ⟨false, 8, 1, 0x68, 0, 1, 32, 32, .ro, 0x0, false⟩
/-- R312. -/
def REBOND_FAULT_OWNER : Row := ⟨false, 8, 1, 0x70, 0, 1, 0, 12, .ro, 0x0, false⟩
/-- R312. -/
def REBOND_FAULT_MAP : Row := ⟨false, 8, 1, 0x70, 0, 1, 12, 1, .ro, 0x0, false⟩
/-- R312. -/
def REBOND_OWNER : Row := ⟨false, 8, 1, 0x800, 8, 64, 0, 13, .ro, 0x0, false⟩
/-- R312. -/
def REBOND_OFFSET : Row := ⟨false, 8, 1, 0x800, 8, 64, 13, 28, .ro, 0x0, false⟩
/-- R312. -/
def REBOND_ACTIVE : Row := ⟨false, 8, 1, 0x800, 8, 64, 41, 1, .ro, 0x0, false⟩
/-- R313. -/
def MOVER_OUTSTANDING : Row := ⟨true, 11, 1, 0x40, 0, 1, 0, 4, .ro, 0x0, false⟩
/-- R313. -/
def MOVER_MOVES : Row := ⟨true, 11, 1, 0x48, 0, 1, 0, 32, .ro, 0x0, false⟩
/-- R313. -/
def MOVER_PACKETS : Row := ⟨true, 11, 1, 0x48, 0, 1, 32, 32, .ro, 0x0, false⟩
/-- R313. -/
def MOVER_BYTES : Row := ⟨true, 11, 1, 0x50, 0, 1, 0, 64, .ro, 0x0, false⟩
/-- R313. -/
def MOVER_FAULT : Row := ⟨true, 11, 1, 0x58, 0, 1, 0, 1, .ro, 0x0, false⟩
/-- R313. -/
def MOVER_FAULT_CYCLE : Row := ⟨true, 11, 1, 0x58, 0, 1, 1, 24, .ro, 0x0, false⟩
/-- R338. -/
def POWER_SETPOINT : Row := ⟨false, 9, 1, 0x40, 0, 1, 0, 12, .rws, 0x320, false⟩
/-- R338. -/
def POWER_RAMP_UP : Row := ⟨false, 9, 1, 0x40, 0, 1, 12, 12, .rws, 0x50, false⟩
/-- R338. -/
def POWER_TRACK : Row := ⟨false, 9, 1, 0x40, 0, 1, 24, 1, .rws, 0x0, false⟩
/-- R338. -/
def POWER_SEQ : Row := ⟨false, 9, 1, 0x40, 0, 1, 32, 16, .rws, 0x0, false⟩
/-- R338. -/
def POWER_TARGET_NOW : Row := ⟨false, 9, 1, 0x48, 0, 1, 0, 20, .ro, 0xC3500, false⟩
/-- R338. -/
def POWER_APPLIED_SEQ : Row := ⟨false, 9, 1, 0x48, 0, 1, 20, 16, .ro, 0x0, false⟩
/-- R338. -/
def POWER_CLAMPED : Row := ⟨false, 9, 1, 0x48, 0, 1, 36, 1, .ro, 0x0, false⟩
/-- R338. -/
def POWER_MISS : Row := ⟨false, 9, 1, 0x48, 0, 1, 37, 1, .ro, 0x0, false⟩
/-- R338. -/
def POWER_EST_MW : Row := ⟨false, 9, 1, 0x50, 0, 1, 0, 20, .ro, 0x0, false⟩
/-- R338. -/
def POWER_MEAS_MW : Row := ⟨false, 9, 1, 0x50, 0, 1, 20, 20, .ro, 0x0, false⟩
/-- R338. -/
def POWER_CAL : Row := ⟨false, 9, 1, 0x50, 0, 1, 40, 16, .ro, 0x1000, false⟩
/-- R338. -/
def POWER_CAL_FAULT : Row := ⟨false, 9, 1, 0x58, 0, 1, 0, 1, .ro, 0x0, false⟩
/-- R338. -/
def POWER_TEL_LOST : Row := ⟨false, 9, 1, 0x58, 0, 1, 1, 1, .ro, 0x0, false⟩
/-- R338. -/
def POWER_DISAGREE : Row := ⟨false, 9, 1, 0x58, 0, 1, 2, 4, .ro, 0x0, false⟩
/-- R338. -/
def POWER_AGREE : Row := ⟨false, 9, 1, 0x58, 0, 1, 6, 8, .ro, 0x0, false⟩
/-- R338. -/
def POWER_TELEMETRY : Row := ⟨false, 9, 1, 0x58, 0, 1, 32, 32, .ro, 0x0, false⟩
/-- R338. -/
def POWER_CURRENT_LIMIT : Row := ⟨false, 9, 1, 0x60, 0, 1, 0, 11, .rws, 0x474, false⟩
/-- R338. -/
def POWER_DROOP_THRESH : Row := ⟨false, 9, 1, 0x60, 0, 1, 11, 7, .rws, 0x10, false⟩
/-- R338. -/
def POWER_THROTTLE_C : Row := ⟨false, 9, 1, 0x60, 0, 1, 18, 7, .rws, 0x69, false⟩
/-- R338. -/
def POWER_TOOTH_PATTERN : Row := ⟨false, 9, 1, 0x68, 0, 1, 0, 3, .rws, 0x0, false⟩
/-- R338. -/
def POWER_TOOTH_TICK : Row := ⟨false, 9, 1, 0x68, 0, 1, 3, 1, .rws, 0x0, false⟩
/-- R338. -/
def POWER_TOOTH_ARCH : Row := ⟨false, 9, 1, 0x68, 0, 1, 4, 2, .rws, 0x0, false⟩
/-- R338. -/
def POWER_TOOTH_ARM_LEVEL : Row := ⟨false, 9, 1, 0x68, 0, 1, 6, 6, .rws, 0x20, false⟩
/-- R338. -/
def POWER_FULL_W : Row := ⟨false, 9, 1, 0x70, 0, 1, 0, 10, .rws, 0x48, false⟩
/-- R338. -/
def POWER_PRELIMIT : Row := ⟨false, 9, 1, 0x70, 0, 1, 10, 1, .rws, 0x1, false⟩
/-- R338. -/
def POWER_Q_DIE : Row := ⟨false, 9, 1, 0x78, 0, 1, 0, 7, .ro, 0x40, false⟩
/-- R338. -/
def POWER_ALL : Row := ⟨false, 9, 1, 0x78, 0, 1, 7, 1, .ro, 0x0, false⟩
/-- R338. -/
def POWER_TJ_MAX : Row := ⟨false, 9, 1, 0x78, 0, 1, 8, 8, .ro, 0x0, false⟩
/-- R338. -/
def POWER_TJ_SENSOR : Row := ⟨false, 9, 1, 0x78, 0, 1, 16, 7, .ro, 0x0, false⟩
/-- R338. -/
def POWER_ALERT_CAL_FAULT : Row := ⟨false, 9, 1, 0x80, 0, 1, 0, 1, .w1c, 0x0, false⟩
/-- R338. -/
def POWER_ALERT_TEL_LOST : Row := ⟨false, 9, 1, 0x80, 0, 1, 1, 1, .w1c, 0x0, false⟩
/-- R338. -/
def POWER_ALERT_THERMAL : Row := ⟨false, 9, 1, 0x80, 0, 1, 2, 1, .w1c, 0x0, false⟩
/-- R338. -/
def POWER_ALERT_THERMAL_TRIP : Row := ⟨false, 9, 1, 0x80, 0, 1, 3, 1, .w1c, 0x0, false⟩
/-- R338. -/
def POWER_ALERT_COOLANT_STOP : Row := ⟨false, 9, 1, 0x80, 0, 1, 4, 1, .w1c, 0x0, false⟩
/-- R338. -/
def POWER_ALERT_ENVELOPE_MISS : Row := ⟨false, 9, 1, 0x80, 0, 1, 5, 1, .w1c, 0x0, false⟩
/-- R338. -/
def POWER_ALERT_AGEING_LIMIT : Row := ⟨false, 9, 1, 0x80, 0, 1, 6, 1, .w1c, 0x0, false⟩
/-- R338. -/
def POWER_ALERT_MASK : Row := ⟨false, 9, 1, 0x88, 0, 1, 0, 7, .rws, 0x7F, false⟩
/-- R338. -/
def POWER_COOLANT_OK : Row := ⟨false, 9, 1, 0x90, 0, 1, 0, 1, .ro, 0x0, false⟩
/-- R338. -/
def POWER_STOPPED : Row := ⟨false, 9, 1, 0x90, 0, 1, 1, 1, .ro, 0x0, false⟩
/-- R338. -/
def POWER_STOP_SOURCE : Row := ⟨false, 9, 1, 0x90, 0, 1, 2, 1, .ro, 0x0, false⟩
/-- R338. -/
def POWER_GLITCHES : Row := ⟨false, 9, 1, 0x90, 0, 1, 16, 16, .ro, 0x0, false⟩
/-- R338. -/
def POWER_MARGIN : Row := ⟨false, 9, 1, 0x98, 0, 1, 0, 6, .ro, 0x0, false⟩
/-- R338. -/
def POWER_MARGIN_MAX : Row := ⟨false, 9, 1, 0x98, 0, 1, 6, 6, .ro, 0x28, false⟩
/-- R338. -/
def POWER_LAST_HOURS : Row := ⟨false, 9, 1, 0x98, 0, 1, 12, 20, .ro, 0x0, false⟩
/-- R338. -/
def POWER_WORST_MON : Row := ⟨false, 9, 1, 0x98, 0, 1, 32, 9, .ro, 0x0, false⟩
/-- R338. -/
def POWER_WORST_DELAY : Row := ⟨false, 9, 1, 0x98, 0, 1, 41, 15, .ro, 0x0, false⟩
/-- R338. -/
def POWER_AGE_GO : Row := ⟨false, 9, 1, 0x98, 0, 1, 56, 1, .wo, 0x0, false⟩
/-- R338. -/
def POWER_AGE_BUSY : Row := ⟨false, 9, 1, 0x98, 0, 1, 57, 1, .ro, 0x0, false⟩
/-- R338. -/
def POWER_VID_BASE : Row := ⟨false, 9, 1, 0xA0, 0, 1, 0, 7, .ro, 0x3C, false⟩
/-- R338. -/
def POWER_VID_REQ : Row := ⟨false, 9, 1, 0xA0, 0, 1, 8, 7, .ro, 0x3C, false⟩
/-- R338. -/
def POWER_EVENTS : Row := ⟨false, 9, 1, 0x100, 16, 7, 0, 32, .ro, 0x0, false⟩
/-- R338. -/
def POWER_DURATION : Row := ⟨false, 9, 1, 0x108, 16, 7, 0, 64, .ro, 0x0, false⟩
/-- R338. -/
def POWER_TOOTH_TABLE : Row := ⟨false, 9, 1, 0x200, 1, 64, 0, 6, .rws, 0x0, false⟩
/-- R338. -/
def POWER_LEVEL : Row := ⟨false, 9, 1, 0x800, 8, 64, 0, 7, .ro, 0x40, false⟩
/-- R338. -/
def POWER_GROUP_ALL : Row := ⟨false, 9, 1, 0x800, 8, 64, 7, 1, .ro, 0x0, false⟩
/-- R338. -/
def POWER_Q_THERM : Row := ⟨false, 9, 1, 0x800, 8, 64, 8, 7, .ro, 0x40, false⟩
/-- R338. -/
def POWER_Q_PRE : Row := ⟨false, 9, 1, 0x800, 8, 64, 15, 7, .ro, 0x40, false⟩
/-- R338. -/
def POWER_Q_DROOP : Row := ⟨false, 9, 1, 0x800, 8, 64, 22, 7, .ro, 0x40, false⟩
/-- R338. -/
def POWER_TMAX : Row := ⟨false, 9, 1, 0x800, 8, 64, 29, 8, .ro, 0x0, false⟩
/-- R338. -/
def POWER_HINT_LEVEL : Row := ⟨false, 9, 1, 0x800, 8, 64, 37, 6, .ro, 0x0, false⟩
/-- R338. -/
def POWER_REASON : Row := ⟨false, 9, 1, 0x800, 8, 64, 43, 3, .ro, 0x0, false⟩
/-- R364. -/
def CMD_ARG0 : Row := ⟨false, 10, 1, 0x40, 0, 1, 0, 64, .rw, 0x0, false⟩
/-- R364. -/
def CMD_ARG1 : Row := ⟨false, 10, 1, 0x48, 0, 1, 0, 64, .rw, 0x0, false⟩
/-- R364. -/
def CMD_ARG2 : Row := ⟨false, 10, 1, 0x50, 0, 1, 0, 64, .rw, 0x0, false⟩
/-- R364. -/
def CMD_ARG3 : Row := ⟨false, 10, 1, 0x58, 0, 1, 0, 64, .rw, 0x0, false⟩
/-- R364. -/
def CMD_CODE : Row := ⟨false, 10, 1, 0x60, 0, 1, 0, 8, .wo, 0x0, false⟩
/-- R364. -/
def CMD_SEQ : Row := ⟨false, 10, 1, 0x60, 0, 1, 16, 16, .wo, 0x0, false⟩
/-- R364. -/
def CMD_TARGET : Row := ⟨false, 10, 1, 0x60, 0, 1, 32, 32, .wo, 0x0, false⟩
/-- R364. -/
def CMD_STATUS : Row := ⟨false, 10, 1, 0x68, 0, 1, 0, 8, .ro, 0x0, false⟩
/-- R364. -/
def CMD_RSEQ : Row := ⟨false, 10, 1, 0x68, 0, 1, 8, 16, .ro, 0x0, false⟩
/-- R364. -/
def CMD_BUSY : Row := ⟨false, 10, 1, 0x68, 0, 1, 24, 1, .ro, 0x0, false⟩
/-- R364. -/
def CMD_OP_ID : Row := ⟨false, 10, 1, 0x68, 0, 1, 32, 32, .ro, 0x0, false⟩
/-- R364. -/
def CMD_DROPPED : Row := ⟨false, 10, 1, 0x70, 0, 1, 0, 32, .ro, 0x0, false⟩
/-- R364. -/
def CMD_CAUSE : Row := ⟨false, 10, 1, 0x78, 0, 1, 0, 4, .ro, 0x0, false⟩
/-- R364. -/
def CMD_SUSPEND_TICK : Row := ⟨false, 10, 1, 0x78, 0, 1, 4, 40, .ro, 0x0, false⟩
/-- R364. -/
def CMD_CTX_OP : Row := ⟨false, 10, 1, 0x80, 0, 1, 0, 32, .ro, 0x0, false⟩
/-- R364. -/
def CMD_OPS_ID : Row := ⟨false, 10, 1, 0x100, 16, 6, 0, 32, .ro, 0x0, false⟩
/-- R364. -/
def CMD_OPS_STATE : Row := ⟨false, 10, 1, 0x100, 16, 6, 32, 3, .ro, 0x0, false⟩
/-- R364. -/
def CMD_PROGRESS : Row := ⟨false, 10, 1, 0x108, 16, 6, 0, 64, .ro, 0x0, false⟩
/-- R364. -/
def CMD_PARTICIPANTS : Row := ⟨false, 10, 1, 0x800, 8, 16, 0, 64, .rw, 0x0, false⟩
/-- R365. -/
def BOOT_PHASE : Row := ⟨false, 11, 1, 0x40, 0, 1, 0, 4, .ro, 0x0, false⟩
/-- R365. -/
def BOOT_STATUS : Row := ⟨false, 11, 1, 0x40, 0, 1, 4, 8, .ro, 0x0, false⟩
/-- R365. -/
def BOOT_WARM_TAKEN : Row := ⟨false, 11, 1, 0x40, 0, 1, 12, 1, .ro, 0x0, false⟩
/-- R365. -/
def BOOT_ENUM_WAIT : Row := ⟨false, 11, 1, 0x40, 0, 1, 13, 1, .ro, 0x0, false⟩
/-- R365. -/
def BOOT_WARM : Row := ⟨false, 11, 1, 0x48, 0, 1, 0, 1, .rw, 0x0, false⟩
/-- R365. -/
def BOOT_DELIVERED : Row := ⟨false, 11, 1, 0x48, 0, 1, 1, 1, .wo, 0x0, false⟩
/-- R365. -/
def BOOT_ENUM_GO : Row := ⟨false, 11, 1, 0x48, 0, 1, 2, 1, .wo, 0x0, false⟩
/-- R365. -/
def BOOT_ELAPSED_MS : Row := ⟨false, 11, 1, 0x50, 0, 1, 0, 20, .ro, 0x0, false⟩
/-- R365. -/
def BOOT_MEMTEST_MS : Row := ⟨false, 11, 1, 0x50, 0, 1, 20, 20, .ro, 0x0, false⟩
/-- R365. -/
def BOOT_SEGMENTS : Row := ⟨false, 11, 1, 0x58, 0, 1, 0, 4, .ro, 0x0, false⟩
/-- R365. -/
def BOOT_ROUND : Row := ⟨false, 11, 1, 0x58, 0, 1, 4, 2, .ro, 0x0, false⟩
/-- R365. -/
def BOOT_INCOMPLETE : Row := ⟨false, 11, 1, 0x58, 0, 1, 6, 11, .ro, 0x0, false⟩
/-- R365. -/
def BOOT_NEED : Row := ⟨false, 11, 1, 0x800, 2, 1024, 0, 8, .rw, 0x0, false⟩
/-- R365. -/
def BOOT_TABLE : Row := ⟨false, 11, 1, 0x800, 2, 1024, 8, 1, .rw, 0x0, false⟩
/-- R386. -/
def LEDGER_HEAD_SEQ : Row := ⟨false, 12, 1, 0x40, 0, 1, 0, 48, .ro, 0x0, false⟩
/-- R386. -/
def LEDGER_ACK_SEQ : Row := ⟨false, 12, 1, 0x48, 0, 1, 0, 48, .rw, 0x0, false⟩
/-- R386. -/
def LEDGER_LOST : Row := ⟨false, 12, 1, 0x50, 0, 1, 0, 32, .ro, 0x0, false⟩
/-- R386. -/
def LEDGER_SUPPRESSED : Row := ⟨false, 12, 1, 0x50, 0, 1, 32, 32, .ro, 0x0, false⟩
/-- R386. -/
def LEDGER_HOURS : Row := ⟨false, 12, 1, 0x58, 0, 1, 0, 17, .ro, 0x0, false⟩
/-- R386. -/
def LEDGER_MINUTES : Row := ⟨false, 12, 1, 0x58, 0, 1, 17, 6, .ro, 0x0, false⟩
/-- R386. -/
def LEDGER_HOURS_SAT : Row := ⟨false, 12, 1, 0x58, 0, 1, 23, 1, .ro, 0x0, false⟩
/-- R386. -/
def LEDGER_CYCLES : Row := ⟨false, 12, 1, 0x58, 0, 1, 24, 14, .ro, 0x0, false⟩
/-- R386. -/
def LEDGER_CYCLES_SAT : Row := ⟨false, 12, 1, 0x58, 0, 1, 38, 1, .ro, 0x0, false⟩
/-- R386. -/
def LEDGER_SEV2 : Row := ⟨false, 12, 1, 0x60, 0, 1, 0, 32, .ro, 0x0, false⟩
/-- R386. -/
def LEDGER_SEV3 : Row := ⟨false, 12, 1, 0x60, 0, 1, 32, 32, .ro, 0x0, false⟩
/-- R386. -/
def LEDGER_FIRST_STOP_SEQ : Row := ⟨false, 12, 1, 0x68, 0, 1, 0, 48, .ro, 0x0, false⟩
/-- R386. -/
def LEDGER_FIRST_STOP_EVENT : Row := ⟨false, 12, 1, 0x68, 0, 1, 48, 16, .ro, 0x0, false⟩
/-- R386. -/
def LEDGER_FIRST_STOP_UNIT : Row := ⟨false, 12, 1, 0x70, 0, 1, 0, 16, .ro, 0x0, false⟩
/-- R386. -/
def LEDGER_FIRST_STOP_VALID : Row := ⟨false, 12, 1, 0x70, 0, 1, 16, 1, .ro, 0x0, false⟩
/-- R386. -/
def LEDGER_FIRST_STOP_TIME : Row := ⟨false, 12, 1, 0x78, 0, 1, 0, 64, .ro, 0x0, false⟩
/-- R400. -/
def MARK_SERIAL : Row := ⟨false, 13, 1, 0x40, 0, 1, 0, 64, .ro, 0x0, false⟩
/-- R400. -/
def MARK_PART : Row := ⟨false, 13, 1, 0x48, 0, 1, 0, 16, .ro, 0x1024, false⟩
/-- R400. -/
def MARK_STEPPING : Row := ⟨false, 13, 1, 0x48, 0, 1, 16, 8, .ro, 0xA1, false⟩
/-- R400. -/
def MARK_SLOT_VALID : Row := ⟨false, 13, 1, 0x50, 0, 1, 0, 4, .ro, 0x0, false⟩
/-- R400. -/
def MARK_REVOKED : Row := ⟨false, 13, 1, 0x50, 0, 1, 4, 4, .ro, 0x0, false⟩
/-- R400. -/
def MARK_SVN : Row := ⟨false, 13, 1, 0x50, 0, 1, 8, 6, .ro, 0x0, false⟩
/-- R400. -/
def MARK_ACTIVE_SLOT : Row := ⟨false, 13, 1, 0x50, 0, 1, 14, 2, .ro, 0x0, false⟩
/-- R400. -/
def MARK_VERIFIED : Row := ⟨false, 13, 1, 0x50, 0, 1, 16, 1, .ro, 0x0, false⟩
/-- R400. -/
def MARK_PUF_OK : Row := ⟨false, 13, 1, 0x50, 0, 1, 17, 1, .ro, 0x0, false⟩
/-- R400. -/
def MARK_LOCKED : Row := ⟨false, 13, 1, 0x50, 0, 1, 18, 1, .ro, 0x0, false⟩
/-- R400. -/
def MARK_DEBUG_ALLOW : Row := ⟨false, 13, 1, 0x50, 0, 1, 19, 1, .ro, 0x0, false⟩
/-- R400. -/
def MARK_LOCK : Row := ⟨false, 13, 1, 0x58, 0, 1, 0, 1, .wo, 0x0, false⟩
/-- R400. -/
def MARK_LOCKED_WRITES : Row := ⟨false, 13, 1, 0x60, 0, 1, 0, 32, .ro, 0x0, false⟩
/-- R400. -/
def MARK_ROOT_DIGEST : Row := ⟨false, 13, 1, 0x100, 8, 16, 0, 64, .ro, 0x0, false⟩
/-- R400. -/
def MARK_ID_PUB : Row := ⟨false, 13, 1, 0x200, 8, 48, 0, 64, .ro, 0x0, false⟩
/-- R400. -/
def MARK_M_FW : Row := ⟨false, 13, 1, 0x380, 8, 4, 0, 64, .ro, 0x0, false⟩
/-- R400. -/
def MARK_M_CORE : Row := ⟨false, 13, 1, 0x3A0, 8, 4, 0, 64, .ro, 0x0, false⟩
/-- R401. -/
def ATTEST_GO : Row := ⟨false, 14, 1, 0x40, 0, 1, 0, 1, .wo, 0x0, false⟩
/-- R401. -/
def ATTEST_BUSY : Row := ⟨false, 14, 1, 0x40, 0, 1, 1, 1, .ro, 0x0, false⟩
/-- R401. -/
def ATTEST_DONE : Row := ⟨false, 14, 1, 0x40, 0, 1, 2, 1, .ro, 0x0, false⟩
/-- R401. -/
def ATTEST_STATUS : Row := ⟨false, 14, 1, 0x40, 0, 1, 3, 8, .ro, 0x0, false⟩
/-- R401. -/
def ATTEST_REPORT_SEQ : Row := ⟨false, 14, 1, 0x48, 0, 1, 0, 32, .ro, 0x0, false⟩
/-- R401. -/
def ATTEST_NONCE : Row := ⟨false, 14, 1, 0x80, 8, 4, 0, 64, .rw, 0x0, false⟩
/-- R401. -/
def ATTEST_REPORT : Row := ⟨false, 14, 1, 0x800, 8, 72, 0, 64, .ro, 0x0, false⟩
/-- R402. -/
def CERT_CERT_LEN : Row := ⟨false, 15, 1, 0x40, 0, 1, 0, 12, .ro, 0x0, false⟩
/-- R402. -/
def CERT_CERT : Row := ⟨false, 15, 1, 0x80, 8, 496, 0, 64, .ro, 0x0, false⟩
/-- R415. -/
def DEBUG_MODE : Row := ⟨false, 24, 1, 0x40, 0, 1, 0, 1, .rw, 0x0, false⟩
/-- R415. -/
def DEBUG_FREEZE : Row := ⟨false, 24, 1, 0x40, 0, 1, 1, 1, .wo, 0x0, false⟩
/-- R415. -/
def DEBUG_DRIVING : Row := ⟨false, 24, 1, 0x40, 0, 1, 2, 1, .ro, 0x0, false⟩
/-- R415. -/
def DEBUG_LAST_SOURCE : Row := ⟨false, 24, 1, 0x40, 0, 1, 3, 2, .ro, 0x0, false⟩
/-- R415. -/
def DEBUG_BAUD : Row := ⟨false, 24, 1, 0x48, 0, 1, 0, 22, .rws, 0x1C200, false⟩
/-- R415. -/
def DEBUG_EN : Row := ⟨false, 24, 1, 0x50, 0, 1, 0, 1, .rw, 0x0, false⟩
/-- R415. -/
def DEBUG_STOP : Row := ⟨false, 24, 1, 0x50, 0, 1, 1, 1, .rw, 0x0, false⟩
/-- R415. -/
def DEBUG_SIZE_LOG : Row := ⟨false, 24, 1, 0x50, 0, 1, 2, 4, .rw, 0x4, false⟩
/-- R415. -/
def DEBUG_BASE : Row := ⟨false, 24, 1, 0x50, 0, 1, 6, 27, .rw, 0x0, false⟩
/-- R415. -/
def DEBUG_READY : Row := ⟨false, 24, 1, 0x50, 0, 1, 33, 1, .ro, 0x0, false⟩
/-- R415. -/
def DEBUG_TRACE_DROPPED : Row := ⟨false, 24, 1, 0x58, 0, 1, 0, 32, .ro, 0x0, false⟩
/-- R415. -/
def DEBUG_TRACE_WRITTEN : Row := ⟨false, 24, 1, 0x58, 0, 1, 32, 32, .ro, 0x0, false⟩
/-- R415. -/
def DEBUG_FREEZES : Row := ⟨false, 24, 1, 0x60, 0, 1, 0, 32, .ro, 0x0, false⟩
/-- R415. -/
def DEBUG_LAST_FROZEN : Row := ⟨false, 24, 1, 0x60, 0, 1, 32, 32, .ro, 0x0, false⟩
/-- R415. -/
def DEBUG_TROWEL_CMDS : Row := ⟨false, 24, 1, 0x68, 0, 1, 0, 32, .ro, 0x0, false⟩
/-- R415. -/
def DEBUG_TROWEL_ERRS : Row := ⟨false, 24, 1, 0x68, 0, 1, 32, 32, .ro, 0x0, false⟩
/-- R415. -/
def DEBUG_TRACE_MASK : Row := ⟨false, 24, 1, 0x800, 8, 16, 0, 64, .rw, 0x0, false⟩
/-- R426. -/
def DIR_DOM_ON_LO : Row := ⟨false, 0, 1, 0x40, 0, 1, 0, 64, .ro, 0x0, false⟩
/-- R426. -/
def DIR_DOM_ON_HI : Row := ⟨false, 0, 1, 0x48, 0, 1, 0, 16, .ro, 0x0, false⟩
/-- R426. -/
def DIR_DOM_OFF : Row := ⟨false, 0, 1, 0x50, 0, 1, 0, 64, .rw, 0x0, false⟩
/-- R426. -/
def DIR_DOM_OFF_YQ : Row := ⟨false, 0, 1, 0x58, 0, 1, 0, 4, .rw, 0x0, false⟩
/-- R426. -/
def DIR_DOM_BUSY : Row := ⟨false, 0, 1, 0x58, 0, 1, 4, 1, .ro, 0x0, false⟩
/-- R426. -/
def DIR_DOM_CHANGES : Row := ⟨false, 0, 1, 0x60, 0, 1, 0, 32, .ro, 0x0, false⟩
/-- R426. -/
def DIR_CORE_PRESENT : Row := ⟨false, 0, 1, 0x68, 0, 1, 0, 32, .ro, 0xFFF, false⟩
/-- R426. -/
def DIR_PRESENT : Row := ⟨false, 0, 1, 0x800, 8, 64, 0, 64, .ro, 0x0, false⟩

end Reg

/-- The fields of the core page SEQ (R427). -/
def Reg.pageSeq : List Row :=
  [Reg.SEQ_RUN, Reg.SEQ_DONE, Reg.SEQ_ENTRY, Reg.SEQ_LAST_HOLD, Reg.SEQ_MAX_HOLD,
   Reg.SEQ_LAST_SLACK, Reg.SEQ_MIN_SLACK, Reg.SEQ_ECC_HOLD, Reg.SEQ_FEED_HOLD, Reg.SEQ_WAIT_HOLD,
   Reg.SEQ_QUEUE_HOLD, Reg.SEQ_CREDIT_HOLD, Reg.SEQ_FETCH_HOLD, Reg.SEQ_POWER_HOLD, Reg.SEQ_DRAIN_HOLD,
   Reg.SEQ_COMMITS, Reg.SEQ_DISCARDS]

/-- The fields of the core page ARRAY (R427). -/
def Reg.pageArray : List Row :=
  [Reg.ARRAY_REPAIR, Reg.ARRAY_ISSUED0, Reg.ARRAY_ISSUED1, Reg.ARRAY_ISSUED2, Reg.ARRAY_ISSUED3,
   Reg.ARRAY_FEED0, Reg.ARRAY_FEED1, Reg.ARRAY_FEED2, Reg.ARRAY_FEED3, Reg.ARRAY_FAULT,
   Reg.ARRAY_FAULT_ARRAY, Reg.ARRAY_FAULT_CYCLE]

/-- The fields of the core page ACC (R427). -/
def Reg.pageAcc : List Row :=
  [Reg.ACC_WINDOW_LOSS, Reg.ACC_ROUNDED, Reg.ACC_LOSS_EVENTS, Reg.ACC_FAULT, Reg.ACC_FAULT_ARRAY,
   Reg.ACC_FAULT_ENTRY, Reg.ACC_FAULT_ELEMENT, Reg.ACC_FAULT_CYCLE, Reg.ACC_DBG_ARRAY, Reg.ACC_DBG_ENTRY,
   Reg.ACC_DBG_ELEMENT, Reg.ACC_DBG_META]

/-- The fields of the core page NUM (R427). -/
def Reg.pageNum : List Row :=
  [Reg.NUM_SEED, Reg.NUM_TAG, Reg.NUM_VSTRICT, Reg.NUM_SR_COUNT]

/-- The fields of the core page POINT (R427). -/
def Reg.pagePoint : List Row :=
  [Reg.POINT_BIN_BASE, Reg.POINT_HIST_CLEAR, Reg.POINT_SAT, Reg.POINT_LAST_SAT, Reg.POINT_SAT_COUNT,
   Reg.POINT_VANISH_COUNT, Reg.POINT_NAN_COUNT, Reg.POINT_REPLAY_ROWS, Reg.POINT_EXPORTS, Reg.POINT_FAULT,
   Reg.POINT_FAULT_ARRAY, Reg.POINT_FAULT_CYCLE, Reg.POINT_BIN0, Reg.POINT_BIN1, Reg.POINT_ZERO,
   Reg.POINT_VANISHED, Reg.POINT_SATURATED, Reg.POINT_NAN, Reg.POINT_INF]

/-- The fields of the core page DRESS (R427). -/
def Reg.pageDress : List Row :=
  [Reg.DRESS_BEYLER, Reg.DRESS_VL, Reg.DRESS_RL, Reg.DRESS_IV, Reg.DRESS_DZ,
   Reg.DRESS_OF, Reg.DRESS_UF, Reg.DRESS_NX, Reg.DRESS_AZ, Reg.DRESS_CVT_NAN,
   Reg.DRESS_CVT_SAT, Reg.DRESS_CVT_VANISH, Reg.DRESS_AMAX_ZERO, Reg.DRESS_HOD_COUNT, Reg.DRESS_HOD_FINAL,
   Reg.DRESS_COUPLING, Reg.DRESS_VOPS, Reg.DRESS_BUSY, Reg.DRESS_FAULT, Reg.DRESS_FAULT_CYCLE]

/-- The fields of the core page TPL (R427). -/
def Reg.pageTpl : List Row :=
  [Reg.TPL_ACTIVE, Reg.TPL_SHADOW_READY, Reg.TPL_LOADING, Reg.TPL_BEYLER, Reg.TPL_TABLE_BUSY,
   Reg.TPL_EVALS, Reg.TPL_SWAPS, Reg.TPL_LOADS, Reg.TPL_REFUSED, Reg.TPL_FAULT,
   Reg.TPL_FAULT_CYCLE, Reg.TPL_IMG_BANK, Reg.TPL_IMG_SEG, Reg.TPL_IMG_LO, Reg.TPL_IMG_HI]

/-- The fields of the core page ISSUE (R427). -/
def Reg.pageIssue : List Row :=
  [Reg.ISSUE_FAULT, Reg.ISSUE_SLOT, Reg.ISSUE_REASON, Reg.ISSUE_CYCLE, Reg.ISSUE_INDEX,
   Reg.ISSUE_BUNDLE0, Reg.ISSUE_BUNDLE1, Reg.ISSUE_BUNDLE2, Reg.ISSUE_BUNDLE3, Reg.ISSUE_ISSUED,
   Reg.ISSUE_DELAYED, Reg.ISSUE_TAKEN, Reg.ISSUE_DEMAND]

/-- The fields of the core page HANDLE (R427). -/
def Reg.pageHandle : List Row :=
  [Reg.HANDLE_BASE, Reg.HANDLE_EXTENT, Reg.HANDLE_KIND, Reg.HANDLE_VIEW, Reg.HANDLE_INDEX,
   Reg.HANDLE_ASSOC]

/-- The fields of the core page BED (R427). -/
def Reg.pageBed : List Row :=
  [Reg.BED_CORR_WIDE, Reg.BED_CORR_NARROW, Reg.BED_CORR_ACC, Reg.BED_LATE_ACCESS, Reg.BED_MAX_WAIT,
   Reg.BED_FORCED, Reg.BED_PARTIAL, Reg.BED_SPARE_LO, Reg.BED_SPARE_HI, Reg.BED_UE_BANK,
   Reg.BED_UE_LINE, Reg.BED_UE_WORD, Reg.BED_UE_VALID]

/-- The fields of the core page SYNC (R427). -/
def Reg.pageSync : List Row :=
  [Reg.SYNC_NACK_STOP, Reg.SYNC_ARRIVED, Reg.SYNC_TIE_FAIL0, Reg.SYNC_TIE_FAIL1, Reg.SYNC_TIE_FAIL2,
   Reg.SYNC_TIE_FAIL3, Reg.SYNC_ADDS_SENT, Reg.SYNC_ADDS_APPLIED, Reg.SYNC_UNDERFLOWS, Reg.SYNC_OVERFLOWS,
   Reg.SYNC_LATE_WRITES, Reg.SYNC_NACKS_RECEIVED, Reg.SYNC_MOVE_FAILS, Reg.SYNC_WAITS, Reg.SYNC_FAULT,
   Reg.SYNC_FAULT_CYCLE, Reg.SYNC_FAULT_INDEX, Reg.SYNC_SLOTS_USED, Reg.SYNC_HOME_CORE, Reg.SYNC_HOME_TIE,
   Reg.SYNC_BOUND, Reg.SYNC_THRESHOLD, Reg.SYNC_VALID, Reg.SYNC_TAKE, Reg.SYNC_TIE,
   Reg.SYNC_REQUESTER, Reg.SYNC_REMAIN]

/-- The fields of the core page MOVER (R427). -/
def Reg.pageMover : List Row :=
  [Reg.MOVER_OUTSTANDING, Reg.MOVER_MOVES, Reg.MOVER_PACKETS, Reg.MOVER_BYTES, Reg.MOVER_FAULT,
   Reg.MOVER_FAULT_CYCLE]

/-- The fields of the die page DIR (R424). -/
def Reg.pageDir : List Row :=
  [Reg.DIR_DOM_ON_LO, Reg.DIR_DOM_ON_HI, Reg.DIR_DOM_OFF, Reg.DIR_DOM_OFF_YQ, Reg.DIR_DOM_BUSY,
   Reg.DIR_DOM_CHANGES, Reg.DIR_CORE_PRESENT, Reg.DIR_PRESENT]

/-- The fields of the die page PLACE (R424). -/
def Reg.pagePlace : List Row :=
  [Reg.PLACE_DIE_ID, Reg.PLACE_VALID, Reg.PLACE_POS_STRAP, Reg.PLACE_RING_SIZE, Reg.PLACE_MASTER,
   Reg.PLACE_PACKAGE_ID, Reg.PLACE_ROLE, Reg.PLACE_PEER]

/-- The fields of the die page FLOOR_LO (R424). -/
def Reg.pageFloorLo : List Row :=
  [Reg.FLOOR_GEN, Reg.FLOOR_SOURCE, Reg.FLOOR_FULL_COUNT, Reg.FLOOR_NARROW_COUNT, Reg.FLOOR_DEAD_COUNT,
   Reg.FLOOR_FUSED_FULL, Reg.FLOOR_STATE, Reg.FLOOR_ARRAYS, Reg.FLOOR_SPARE_ROW, Reg.FLOOR_SPARE_COL,
   Reg.FLOOR_BED_SPARES, Reg.FLOOR_CAUSE, Reg.FLOOR_CHANGED]

/-- The fields of the die page FLOOR_HI (R424). -/
def Reg.pageFloorHi : List Row :=
  [Reg.FLOOR_STATE, Reg.FLOOR_ARRAYS, Reg.FLOOR_SPARE_ROW, Reg.FLOOR_SPARE_COL, Reg.FLOOR_BED_SPARES,
   Reg.FLOOR_CAUSE, Reg.FLOOR_CHANGED]

/-- The fields of the die page CTRL (R424). -/
def Reg.pageCtrl : List Row :=
  [Reg.CTRL_SLIP_ENABLE, Reg.CTRL_QUEUE_MODE, Reg.CTRL_PERIOD, Reg.CTRL_SLACK_RESERVE, Reg.CTRL_SLIP_LEAD,
   Reg.CTRL_TIMESTAMP, Reg.CTRL_COURSE_NUMBER, Reg.CTRL_SLIP_COUNT, Reg.CTRL_SLIPPING, Reg.CTRL_LAST_SLIP_TICK,
   Reg.CTRL_LAST_SLIP_REMOTE, Reg.CTRL_OVERRUN_CORE, Reg.CTRL_OVERRUN_VALID]

/-- The fields of the die page YARD (R424). -/
def Reg.pageYard : List Row :=
  [Reg.YARD_YARD_CORR, Reg.YARD_YARD_UE, Reg.YARD_BED_CORR, Reg.YARD_BED_UE, Reg.YARD_EXHAUSTED,
   Reg.YARD_SCRUB_EN, Reg.YARD_HARD_PENDING, Reg.YARD_REPAIRED, Reg.YARD_PASSES, Reg.YARD_REPAIR_STATE,
   Reg.YARD_REPAIR_MEM, Reg.YARD_REPAIR_UNIT, Reg.YARD_REPAIR_ROW]

/-- The fields of the die page ARCH (R424). -/
def Reg.pageArch : List Row :=
  [Reg.ARCH_CROSS, Reg.ARCH_DIES, Reg.ARCH_FORCE, Reg.ARCH_OPEN, Reg.ARCH_ARRIVED_COUNT,
   Reg.ARCH_CLOSURES, Reg.ARCH_PLANE_STALL, Reg.ARCH_FORCED, Reg.ARCH_CORE, Reg.ARCH_KIND,
   Reg.ARCH_INDEX, Reg.ARCH_GO, Reg.ARCH_DONE, Reg.ARCH_HANDSET_VALUE, Reg.ARCH_DUMP_BASE,
   Reg.ARCH_DUMP_GO, Reg.ARCH_DUMP_BUSY, Reg.ARCH_MASK]

/-- The fields of the die page RING (R424). -/
def Reg.pageRing : List Row :=
  [Reg.RING_CURRENT, Reg.RING_ENUM_STATE, Reg.RING_EXCL, Reg.RING_LINKS, Reg.RING_NEXT_HOP,
   Reg.RING_HUB_HOP, Reg.RING_ALIGN_GO, Reg.RING_ALIGNED, Reg.RING_LAG, Reg.RING_EDGES,
   Reg.RING_STALE, Reg.RING_STALE_EPOCH, Reg.RING_STALE_PKG, Reg.RING_STALE_DIE, Reg.RING_STALE_VALID,
   Reg.RING_UNROUTABLE, Reg.RING_MALFORMED, Reg.RING_LINK_DOWNS]

/-- The fields of the die page REBOND (R424). -/
def Reg.pageRebond : List Row :=
  [Reg.REBOND_OP_ID, Reg.REBOND_STATE, Reg.REBOND_CAUSE, Reg.REBOND_DESC, Reg.REBOND_TIMEOUT,
   Reg.REBOND_BYTES, Reg.REBOND_PACKETS, Reg.REBOND_NACKS, Reg.REBOND_SIGNALS, Reg.REBOND_ABANDONED,
   Reg.REBOND_FAULT_OWNER, Reg.REBOND_FAULT_MAP, Reg.REBOND_OWNER, Reg.REBOND_OFFSET, Reg.REBOND_ACTIVE]

/-- The fields of the die page POWER (R424). -/
def Reg.pagePower : List Row :=
  [Reg.POWER_SETPOINT, Reg.POWER_RAMP_UP, Reg.POWER_TRACK, Reg.POWER_SEQ, Reg.POWER_TARGET_NOW,
   Reg.POWER_APPLIED_SEQ, Reg.POWER_CLAMPED, Reg.POWER_MISS, Reg.POWER_EST_MW, Reg.POWER_MEAS_MW,
   Reg.POWER_CAL, Reg.POWER_CAL_FAULT, Reg.POWER_TEL_LOST, Reg.POWER_DISAGREE, Reg.POWER_AGREE,
   Reg.POWER_TELEMETRY, Reg.POWER_CURRENT_LIMIT, Reg.POWER_DROOP_THRESH, Reg.POWER_THROTTLE_C, Reg.POWER_TOOTH_PATTERN,
   Reg.POWER_TOOTH_TICK, Reg.POWER_TOOTH_ARCH, Reg.POWER_TOOTH_ARM_LEVEL, Reg.POWER_FULL_W, Reg.POWER_PRELIMIT,
   Reg.POWER_Q_DIE, Reg.POWER_ALL, Reg.POWER_TJ_MAX, Reg.POWER_TJ_SENSOR, Reg.POWER_ALERT_CAL_FAULT,
   Reg.POWER_ALERT_TEL_LOST, Reg.POWER_ALERT_THERMAL, Reg.POWER_ALERT_THERMAL_TRIP, Reg.POWER_ALERT_COOLANT_STOP, Reg.POWER_ALERT_ENVELOPE_MISS,
   Reg.POWER_ALERT_AGEING_LIMIT, Reg.POWER_ALERT_MASK, Reg.POWER_COOLANT_OK, Reg.POWER_STOPPED, Reg.POWER_STOP_SOURCE,
   Reg.POWER_GLITCHES, Reg.POWER_MARGIN, Reg.POWER_MARGIN_MAX, Reg.POWER_LAST_HOURS, Reg.POWER_WORST_MON,
   Reg.POWER_WORST_DELAY, Reg.POWER_AGE_GO, Reg.POWER_AGE_BUSY, Reg.POWER_VID_BASE, Reg.POWER_VID_REQ,
   Reg.POWER_EVENTS, Reg.POWER_DURATION, Reg.POWER_TOOTH_TABLE, Reg.POWER_LEVEL, Reg.POWER_GROUP_ALL,
   Reg.POWER_Q_THERM, Reg.POWER_Q_PRE, Reg.POWER_Q_DROOP, Reg.POWER_TMAX, Reg.POWER_HINT_LEVEL,
   Reg.POWER_REASON]

/-- The fields of the die page CMD (R424). -/
def Reg.pageCmd : List Row :=
  [Reg.CMD_ARG0, Reg.CMD_ARG1, Reg.CMD_ARG2, Reg.CMD_ARG3, Reg.CMD_CODE,
   Reg.CMD_SEQ, Reg.CMD_TARGET, Reg.CMD_STATUS, Reg.CMD_RSEQ, Reg.CMD_BUSY,
   Reg.CMD_OP_ID, Reg.CMD_DROPPED, Reg.CMD_CAUSE, Reg.CMD_SUSPEND_TICK, Reg.CMD_CTX_OP,
   Reg.CMD_OPS_ID, Reg.CMD_OPS_STATE, Reg.CMD_PROGRESS, Reg.CMD_PARTICIPANTS]

/-- The fields of the die page BOOT (R424). -/
def Reg.pageBoot : List Row :=
  [Reg.BOOT_PHASE, Reg.BOOT_STATUS, Reg.BOOT_WARM_TAKEN, Reg.BOOT_ENUM_WAIT, Reg.BOOT_WARM,
   Reg.BOOT_DELIVERED, Reg.BOOT_ENUM_GO, Reg.BOOT_ELAPSED_MS, Reg.BOOT_MEMTEST_MS, Reg.BOOT_SEGMENTS,
   Reg.BOOT_ROUND, Reg.BOOT_INCOMPLETE, Reg.BOOT_NEED, Reg.BOOT_TABLE]

/-- The fields of the die page LEDGER (R424). -/
def Reg.pageLedger : List Row :=
  [Reg.LEDGER_HEAD_SEQ, Reg.LEDGER_ACK_SEQ, Reg.LEDGER_LOST, Reg.LEDGER_SUPPRESSED, Reg.LEDGER_HOURS,
   Reg.LEDGER_MINUTES, Reg.LEDGER_HOURS_SAT, Reg.LEDGER_CYCLES, Reg.LEDGER_CYCLES_SAT, Reg.LEDGER_SEV2,
   Reg.LEDGER_SEV3, Reg.LEDGER_FIRST_STOP_SEQ, Reg.LEDGER_FIRST_STOP_EVENT, Reg.LEDGER_FIRST_STOP_UNIT, Reg.LEDGER_FIRST_STOP_VALID,
   Reg.LEDGER_FIRST_STOP_TIME]

/-- The fields of the die page MARK (R424). -/
def Reg.pageMark : List Row :=
  [Reg.MARK_SERIAL, Reg.MARK_PART, Reg.MARK_STEPPING, Reg.MARK_SLOT_VALID, Reg.MARK_REVOKED,
   Reg.MARK_SVN, Reg.MARK_ACTIVE_SLOT, Reg.MARK_VERIFIED, Reg.MARK_PUF_OK, Reg.MARK_LOCKED,
   Reg.MARK_DEBUG_ALLOW, Reg.MARK_LOCK, Reg.MARK_LOCKED_WRITES, Reg.MARK_ROOT_DIGEST, Reg.MARK_ID_PUB,
   Reg.MARK_M_FW, Reg.MARK_M_CORE]

/-- The fields of the die page ATTEST (R424). -/
def Reg.pageAttest : List Row :=
  [Reg.ATTEST_GO, Reg.ATTEST_BUSY, Reg.ATTEST_DONE, Reg.ATTEST_STATUS, Reg.ATTEST_REPORT_SEQ,
   Reg.ATTEST_NONCE, Reg.ATTEST_REPORT]

/-- The fields of the die page CERT (R424). -/
def Reg.pageCert : List Row :=
  [Reg.CERT_CERT_LEN, Reg.CERT_CERT]

/-- The fields of the die page LINK (R424). -/
def Reg.pageLink : List Row :=
  [Reg.LINK_STATE, Reg.LINK_TX_WIDTH, Reg.LINK_RX_WIDTH, Reg.LINK_DOWN_CAUSE, Reg.LINK_TX_LANES,
   Reg.LINK_RX_LANES, Reg.LINK_FEC_CORR, Reg.LINK_FEC_UNCORR, Reg.LINK_REPLAYS, Reg.LINK_LOST,
   Reg.LINK_TX_FLITS, Reg.LINK_RX_FLITS, Reg.LINK_RETRAIN, Reg.LINK_TRAIN_US]

/-- The fields of the die page DEBUG (R424). -/
def Reg.pageDebug : List Row :=
  [Reg.DEBUG_MODE, Reg.DEBUG_FREEZE, Reg.DEBUG_DRIVING, Reg.DEBUG_LAST_SOURCE, Reg.DEBUG_BAUD,
   Reg.DEBUG_EN, Reg.DEBUG_STOP, Reg.DEBUG_SIZE_LOG, Reg.DEBUG_BASE, Reg.DEBUG_READY,
   Reg.DEBUG_TRACE_DROPPED, Reg.DEBUG_TRACE_WRITTEN, Reg.DEBUG_FREEZES, Reg.DEBUG_LAST_FROZEN, Reg.DEBUG_TROWEL_CMDS,
   Reg.DEBUG_TROWEL_ERRS, Reg.DEBUG_TRACE_MASK]

/-- The fields of the die page YREP (R424). -/
def Reg.pageYrep : List Row :=
  [Reg.YREP_USED, Reg.YREP_BAD, Reg.YREP_ROW, Reg.YREP_VALID, Reg.YREP_SPARE_BAD,
   Reg.YREP_ORIGIN]

/-- The fields of core page n (R427); none for an undefined page. -/
def Reg.corePage : Nat → List Row
  | 0 => Reg.pageSeq
  | 1 => Reg.pageArray
  | 2 => Reg.pageAcc
  | 3 => Reg.pageNum
  | 4 => Reg.pagePoint
  | 5 => Reg.pageDress
  | 6 => Reg.pageTpl
  | 7 => Reg.pageIssue
  | 8 => Reg.pageHandle
  | 9 => Reg.pageBed
  | 10 => Reg.pageSync
  | 11 => Reg.pageMover
  | _ => []

/-- The fields of die page n (R424); none for a page with no field table. -/
def Reg.diePage (n : Nat) : List Row :=
  match n with
  | 0 => Reg.pageDir
  | 1 => Reg.pagePlace
  | 2 => Reg.pageFloorLo
  | 3 => Reg.pageFloorHi
  | 4 => Reg.pageCtrl
  | 5 => Reg.pageYard
  | 6 => Reg.pageArch
  | 7 => Reg.pageRing
  | 8 => Reg.pageRebond
  | 9 => Reg.pagePower
  | 10 => Reg.pageCmd
  | 11 => Reg.pageBoot
  | 12 => Reg.pageLedger
  | 13 => Reg.pageMark
  | 14 => Reg.pageAttest
  | 15 => Reg.pageCert
  | 24 => Reg.pageDebug
  | _ => if 16 ≤ n ∧ n ≤ 23 then Reg.pageLink else if 64 ≤ n ∧ n ≤ 127 then Reg.pageYrep else []

/-- The rows whose value no reset of R417 zeroes: fuse, strap, pin, repair set, const and core ID (R418). -/
def Reg.fuseRows : List Row :=
  [Reg.PLACE_POS_STRAP,
   Reg.PLACE_MASTER,
   Reg.FLOOR_FUSED_FULL,
   Reg.NUM_TAG,
   Reg.ARRAY_REPAIR,
   Reg.BED_SPARE_LO,
   Reg.BED_SPARE_HI,
   Reg.YREP_USED,
   Reg.YREP_BAD,
   Reg.YREP_ROW,
   Reg.YREP_VALID,
   Reg.YREP_SPARE_BAD,
   Reg.YREP_ORIGIN,
   Reg.POWER_COOLANT_OK,
   Reg.POWER_MARGIN,
   Reg.POWER_MARGIN_MAX,
   Reg.POWER_VID_BASE,
   Reg.POWER_VID_REQ,
   Reg.LEDGER_HOURS,
   Reg.LEDGER_HOURS_SAT,
   Reg.LEDGER_CYCLES,
   Reg.LEDGER_CYCLES_SAT,
   Reg.MARK_SERIAL,
   Reg.MARK_SLOT_VALID,
   Reg.MARK_REVOKED,
   Reg.MARK_SVN,
   Reg.MARK_ROOT_DIGEST,
   Reg.MARK_ID_PUB,
   Reg.CERT_CERT_LEN,
   Reg.CERT_CERT,
   Reg.DIR_PRESENT]

end Sys2Proof.Machine
end

