-- ==== Sys2Proof/Machine/State.lean ====
section
/-!
DEFINITION. The state of the block as plain data.
-/

namespace Sys2Proof.Machine

/-- Sparse data by key; the home of large register files and memories. Keys rise strictly. -/
abbrev Sparse (α : Type) := List (Nat × α)

/-- A detected event on its way to the ledger (R374–R376). -/
structure Event where
  code : Nat
  unit : Nat
  data : List Nat
  time : Nat
  sev : Nat
  /-- The event stopped a task (R366, R369). -/
  stop : Bool
  deriving DecidableEq, Repr

/-- Which engine writes a tile row (R152, R161, R179). -/
inductive WriteSrc where
  | dresser | pointing | template
  deriving DecidableEq, Repr

/-- A tile-row write that lands in a stated course cycle; with no lanes it is a reservation (R161).
`t` is 0–7 for t0–t7 and 8 + k for hod-queue entry k. -/
structure RowWrite where
  cycle : Nat
  t : Nat
  row : Nat
  src : WriteSrc
  lanes : List (Nat × Lane)
  deriving DecidableEq, Repr

/-- One keystone element: the value V and the metadata word (R114). -/
structure Elem where
  v : Wide
  md : Lane
  deriving DecidableEq, Repr

/-- A claimed hod-queue entry (R160): its number, the course cycle in which its tile is final, and the cycle of its release. -/
structure HodClaim where
  entry : Nat
  final : Nat
  release : Option Nat
  deriving DecidableEq, Repr

/-- Promotions of one matrix instruction or KADD that may still lie ahead (R126): the masked arrays, the issue cycle,
and for a matrix instruction its K, run length, cycles per step, digits and rows. -/
structure Promo where
  mask : Nat
  kadd : Bool
  c : Nat
  k : Nat
  run : Nat
  step : Nat
  digits : Nat
  rows : Nat
  deriving DecidableEq, Repr

/-- A fill whose data is still on its way: buffer code, byte range, the elapsed core cycle from which it is usable, and the bank it reads. -/
structure FillWait where
  buf : Nat
  lo : Nat
  hi : Nat
  ready : Nat
  bank : Nat
  deriving DecidableEq, Repr

/-- A fill done ahead by run-ahead into a shadow bank (R57): the bundle index that carries it, its bundle, how many
predicted branches it lies past (R58), the bed offset it read, and the data read. -/
structure ShadowFill where
  index : Nat
  bundle : Bundle
  depth : Nat
  src : Nat
  data : List Byte
  deriving DecidableEq, Repr

/-- Why a core is held (R48). -/
inductive HoldCause where
  | ecc | feed | fetch | wait | queue | credit | power | drain
  deriving DecidableEq, Repr

/-- The registers as every slot of the current bundle reads them: their values at the start of the issue cycle (R186). -/
structure IssueView where
  sreg : Vector Word 32
  vl : Nat
  rl : Nat
  /-- A handle rewritten by HSET in this bundle, with its two old words. -/
  oldHandle : Option (Nat × Nat × Nat)
  /-- Elapsed cycle from which a scalar register held its loaded value when the bundle issued (R189), and the hold cycles of the course before
  the bundle's issue cycle. -/
  ready : Sparse Nat
  held : Nat
  deriving DecidableEq, Repr

/-- The sequencer of a core: course position, bundle position and holds. -/
structure Sequencer where
  /-- L of the course header (R43). -/
  len : Nat
  /-- Tick count of the tick in which the course started, and tick cycle of course cycle 0 (R44). -/
  tick : Nat
  start : Nat
  /-- The core has started the current course and has not retired COURSE_END. -/
  inCourse : Bool
  /-- The current bundle, its index and course cycle. -/
  bundle : Bundle
  index : Nat
  cycle : Nat
  /-- Code of the last slot issued of the current bundle, 1 S to 6 Y; 7 when the next slot command opens a new bundle. -/
  lastSlot : Nat
  /-- Index and course cycle of the next bundle. -/
  nextIndex : Nat
  nextCycle : Nat
  /-- Hold cycles of this course, H (R49). -/
  held : Nat
  cause : Option HoldCause
  /-- Fixed-length hold requests that opened while a condition holds the core: cause, and the cycle count at which each ends (R49). -/
  extra : List (HoldCause × Nat)
  /-- ENTRY of an issued COURSE_END that has not retired (R46). -/
  endEntry : Option Nat
  /-- Course cycle from which no condition of R46 is open. -/
  drainAt : Nat
  view : IssueView
  deriving DecidableEq, Repr

/-- Engine timing of a core, in course cycles. -/
structure Timing where
  /-- First cycle in which the next matrix instruction may issue (R97). -/
  mmNext : Nat
  /-- Completion cycle of the last instruction that writes entry e of array a, key 12a + e (R95, R125). -/
  accDone : Sparse Nat
  promos : List Promo
  /-- Last accumulator read cycle of the exports of array a (R136). -/
  expLast : Sparse Nat
  /-- First cycle of the next V instruction, TEVAL and TLOAD (R152, R174, R179). -/
  vNext : Nat
  tNext : Nat
  tloadNext : Nat
  /-- Last table read and last shadow write (R175). -/
  lastLookup : Nat
  lastShadow : Nat
  /-- Cycle in which a pending TSWAP takes effect. -/
  swapAt : Option Nat
  /-- Last shadow-write cycles of TLOADs not yet completed (R174). -/
  tloads : List Nat
  /-- Elapsed cycle from which scalar register r holds its loaded value (R189). -/
  sReady : Sparse Nat
  fills : List FillWait
  deriving DecidableEq, Repr

/-- An outstanding MOVE of a local mover (R297, R298). -/
structure MoveJob where
  /-- The number its requests carry as TAG. -/
  serial : Nat
  /-- Source and destination handle words at issue, byte offsets, length. -/
  src : Nat × Nat
  dst : Nat × Nat
  srcOff : Nat
  dstOff : Nat
  len : Nat
  sig : Bool
  cte : Bool
  ct : Nat
  /-- The mover has begun it. -/
  begun : Bool
  /-- Requests whose data has not come back, and bed or yard writes not yet in effect. -/
  left : Nat
  writes : Nat
  /-- The last WRITE has been formed and its response is awaited. -/
  closing : Bool
  /-- A packet of the MOVE was NACKed. -/
  failed : Bool
  deriving DecidableEq, Repr

/-- A PHASE_HINT slot (R328): course from which it applies, span and level. -/
structure HintSlot where
  first : Nat
  span : Nat
  level : Nat
  deriving DecidableEq, Repr

/-- One core: everything an ashlar holds beside its register pages and its bed. -/
structure Core where
  sreg : Vector Word 32
  lc : Vector (BitVec 32) 4
  seq : Sequencer
  tm : Timing
  /-- Bundle buffer: slot to bundle index and bundle (R191). -/
  bbuf : Sparse (Nat × Bundle)
  /-- Feed buffer bytes, key buf · 8,192 + byte: buffer 0 the activation buffer, 1 + 2a + b bank b of array a (R98). -/
  fbuf : Sparse Byte
  /-- Current-bank pointer of array a (R98). -/
  curBank : Sparse Nat
  shadow : List ShadowFill
  /-- Feed-buffer and bundle-buffer words with wrong parity, key as in `fbuf` divided by 8 (R208). -/
  parityBad : List Nat
  /-- Tile registers and hod-queue entries, key (16t + row) · 64 + lane. -/
  tile : Sparse Lane
  rowWrites : List RowWrite
  hod : List HodClaim
  /-- Keystone elements, key (12a + e) · 256 + 16i + j, and their SECDED marks. -/
  acc : Sparse Elem
  accMarks : Sparse Nat
  /-- Template segments that differ from the loaded image, key bank · 1,280 + segment, and whether the image is Beyler's. -/
  segs : Sparse Nat
  beylerImage : Bool
  /-- The two PHASE_HINT slots (R328). -/
  hint0 : Option HintSlot
  hint1 : Option HintSlot
  moves : List MoveJob
  /-- Number of the next MOVE. -/
  moveSerial : Nat
  /-- Packets that wait for a mesh credit (R48, R274). -/
  outQ : List Packet
  /-- Data of MOVE requests that came while the mover issued nothing: the MOVE, the request, and the data (R46, R47). -/
  moveIn : List (Nat × Nat × Option (List Byte))
  /-- Tie values, key 0–255. -/
  ties : Sparse Nat
  /-- Window descriptor words, key 8w + word (R244). -/
  windows : Sparse Nat
  deriving DecidableEq, Repr

def IssueView.init : IssueView := ⟨Vector.replicate 32 0#64, 64, 16, none, [], 0⟩

def Sequencer.init : Sequencer :=
  ⟨0, 0, 16, false, 0#256, 0, 0, 7, 0, 0, 0, none, [], none, 0, IssueView.init⟩

def Timing.init : Timing := ⟨0, [], [], [], 0, 0, 0, 0, 0, none, [], [], []⟩

/-- A core after reset. -/
def Core.init : Core :=
  ⟨Vector.replicate 32 0#64, Vector.replicate 4 0#32, Sequencer.init, Timing.init, [], [], [], [], [], [], [], [], [], [], [], false, none, none, [], 0, [], [], [], []⟩

/-- Faults. What the spec calls a fault of the die is an effect on the state (a fail-stop, an event, a NACK), so no command ends in one. -/
inductive Fault where
  /-- Raised by no command; it would be safe. -/
  | absent
  deriving DecidableEq, Repr

/-- Refusals. -/
inductive Refusal where
  /-- Raised only by an arm of the dispatch whose command has no meaning; no arm has it now. Safe. -/
  | notModelled (mnemonic : String)
  deriving DecidableEq, Repr

/-! Sync (R231–R260). -/

/-- A tie update on the sync plane: its home tie, an add or a decrement, the amount, and the core that sends it (R234, R241). -/
structure TieUpdate where
  home : Nat
  tie : Nat
  dec : Bool
  amount : Nat
  src : Nat
  /-- Issue timestamp and source as package, die and core (R411). -/
  issued : Nat
  peer : Nat
  /-- Cycle count of its delivery (R241), and the packet that brought it, which draws its answer (R272). -/
  due : Nat
  answer : Option Packet
  deriving DecidableEq, Repr

/-- A wait (R237): the waiting core, the local tie it names, home and home tie, kind, threshold or N, the deadline where it has one, and the
cycle of its registration, both as counts of cycles. -/
structure WaitReq where
  core : Nat
  localTie : Nat
  home : Nat
  tie : Nat
  take : Bool
  thr : Nat
  deadline : Option Nat
  at_ : Nat
  deriving DecidableEq, Repr

/-- A wait in a wait slot of its home tie file. -/
structure WaitSlot where
  idx : Nat
  req : WaitReq
  deriving DecidableEq, Repr

/-- A core that holds in AWAIT (R251). -/
structure ArchWait where
  core : Nat
  arch : Nat
  deadline : Option Nat
  deriving DecidableEq, Repr

/-- Result of a wait on its way to the waiting core: whether it ends an AWAIT (R331), and the cycle count in which the core treats the wait as
satisfied (R242). -/
structure WaitResult where
  core : Nat
  arch : Bool
  at_ : Nat
  deriving DecidableEq, Repr

/-- Progress of an arch (R252, R253): the local root is complete, the dies whose arrival has reached the master, the cycle count of the last of
these, and that of the closure once it is due on this die. -/
structure ArchPhase where
  root : Bool
  dies : Nat
  last : Nat
  ready : Option Nat
  deriving DecidableEq, Repr

/-- The sync plane and the wait slots. -/
structure Sync where
  updates : List TieUpdate
  registering : List WaitReq
  slots : List WaitSlot
  awaits : List ArchWait
  results : List WaitResult
  arches : Sparse ArchPhase
  /-- Slots freed in the present cycle: home, slot and cycle count; each is free from the next one (R237). -/
  freed : List (Nat × Nat × Nat)
  /-- Messages on plane links, key cycle count · 8,192 + link (R241). -/
  links : Sparse Nat
  deriving DecidableEq, Repr

/-! Packets and memory requests on their way (R204, R210, R270–R298). -/

/-- What a finished memory access belongs to. -/
inductive Owner where
  /-- A WRITE or READ_REQ served for its sender. -/
  | packet (p : Packet)
  /-- An accepted window packet of window w of core c. -/
  | window (c w : Nat) (p : Packet)
  /-- Request j of a MOVE, and a bed or yard write of a MOVE. -/
  | moveRead (c serial j : Nat)
  | moveWrite (c serial : Nat)
  /-- A demand fetch of bundle p. -/
  | fetch (c p : Nat)
  deriving DecidableEq, Repr

/-- One request to one bed bank or yard sub-bank, with the data a read returned. -/
structure Piece where
  addr : Nat
  len : Nat
  done : Bool
  got : List Byte
  deriving DecidableEq, Repr

/-- A memory access that waits for its grants: a write with its data, or a read. -/
structure Access where
  owner : Owner
  /-- Its number, its cycle count of arrival, and the router input port and lane by which it came (R204, R210, R275). -/
  serial : Nat
  since : Nat
  input : Nat
  vl : Nat
  base : Nat
  data : Option (List Byte)
  pieces : List Piece
  bad : Bool
  deriving DecidableEq, Repr

/-- A frame that has left by a port, with one packet: its control flit's FSEQ, ACK, NAK and eight credits (R262). -/
structure SentFrame where
  port : Nat
  fseq : Nat
  ack : Nat
  nak : Bool
  credits : List Nat
  packet : Packet
  deriving DecidableEq, Repr

/-- Packets, credits and requests of the die. -/
structure Net where
  /-- Packets formed on this die that no command has taken up yet. -/
  mesh : List Packet
  /-- Frames sent on bond ports, oldest first, and packets that wait for credits of a port. -/
  sent : List SentFrame
  waiting : List (Nat × Packet)
  /-- Credits in use: key 8 · port + 2 · lane + class in flits, and 4 · core + lane at a core's router. -/
  portUsed : Sparse Nat
  meshUsed : Sparse Nat
  accesses : List Access
  /-- Number of the next access, and one more than the cycle count of the last forced grant of bank b of core c, key 16c + b (R204). -/
  serial : Nat
  forced : Sparse Nat
  /-- Window signals that follow a completed last write: core, window, packet, and the number of its access (R247). -/
  signals : List (Nat × Nat × Packet × Nat)
  /-- Ports whose first malformed packet is recorded, and source dies whose first stale packet is (R273, R293). -/
  badPorts : List Nat
  staleDies : List (Nat × Nat)
  /-- Packets that came in frames of a port and that no command has taken up yet. -/
  arrived : List (Nat × Packet)
  /-- Rejected accesses to unmapped locations (R23). -/
  rejections : Nat
  deriving DecidableEq, Repr

/-- Slips (R52–R55). -/
structure Slip where
  /-- Target ticks for which a notice has been seen. -/
  seen : List Nat
  /-- Ticks at which no core starts a course, and whether a received notice set them. -/
  due : List (Nat × Bool)
  /-- Tick count of the last tick in whose deadline cycle an overrun was found. -/
  overAt : Option Nat
  deriving DecidableEq, Repr

/-! Ports, ring and alignment (R261–R296). -/

/-- The link layer of a bond port: the training state of its transmit and receive directions in the code of LINK.STATE (R264, R296),
the next FSEQ to send, the unacknowledged frames (one packet each), the next FSEQ expected, whether frames are discarded until a
replay, how often in succession which FSEQ was NAKed (R263), the lanes of each direction that detected the peer (R265), and the flits
freed per lane and class, at 2v + c, that no sent control flit has returned yet (R262, R274). -/
structure Port where
  tx : Nat
  rx : Nat
  fseq : Nat
  kept : List (Nat × Packet)
  expect : Nat
  dropping : Bool
  nakSeq : Nat
  nakRun : Nat
  txSeen : Nat
  rxSeen : Nat
  owed : Sparse Nat
  deriving DecidableEq, Repr

/-- Enumeration, the hub map and tick alignment (R281–R289). -/
structure Ring where
  /-- PACKAGE_ID has been written (R18, R281). -/
  placed : Bool
  /-- TOKENs the master has sent, and whether this die has seen a TOKEN. -/
  tokens : Nat
  seen : Bool
  /-- The master's own port and hub entries in the TOKEN it sent (R282). -/
  mine : Option (Nat × Nat)
  /-- Hub ports whose HUB_QUERY is open, and the hub die IDs that ports have reported: port and ID (R269, R282). -/
  queries : List Nat
  reported : List (Nat × Nat)
  /-- Hub map: key 4 · position + port − 4, value the hub's die ID (R283). -/
  hubs : Sparse Nat
  /-- A changed link graph waits for its table (R278, R289). -/
  stale : Bool
  /-- LINK_DOWN payloads already applied. -/
  downs : List (List Byte)
  /-- Alignment starts at the next SYNC_TICK edge; the value to set at the edge after; values already forwarded (R285). -/
  go : Bool
  align : Option Nat
  aligns : List Nat
  /-- Cycle count of this die at its alignment, and REFCLK periods since then (R286). -/
  base : Nat
  refs : Nat
  deriving DecidableEq, Repr

/-! Power (R314–R337). -/

/-- The power controller beside the POWER page. -/
structure PowerCtl where
  /-- The envelope in force, and whether a written one waits for the next loop run (R321). -/
  setpoint : Nat
  ramp : Nat
  track : Bool
  held : Bool
  prev : Nat
  overPrev : Bool
  /-- Loop runs in succession above the bound of R323, and runs since a lowering write took effect. -/
  missRuns : Nat
  lowered : Option Nat
  /-- Calibrated estimates of the last 50 runs, newest first (R324). -/
  ests : List Nat
  /-- Estimated power of each group in the last run. -/
  groups : List Nat
  /-- Sensors that read 120 °C or more in the last run (R332). -/
  hot : List Nat
  /-- Runs in succession without a throttled group, while a throttling is recorded as started. -/
  throttled : Bool
  coolRuns : Nat
  /-- Tripped droop detectors, a stretch in progress, stretched cycles per group since the last run, DROOP_LONG recorded (R327). -/
  tripped : List Nat
  stretching : Bool
  stretched : Sparse Nat
  /-- Levels in force in the current limiter window: level + 128 · ALL (R319). -/
  window : Sparse Nat
  /-- Reasons held in the last run, and EVENTS and DURATION at the last summary (R335). -/
  reasons : List Nat
  summary : List (Nat × Nat)
  /-- COOLANT_OK is low and is being timed (R333). -/
  lowPulse : Bool
  /-- A compute-part reset left the clocks stopped until COOLANT_OK rises (R334). -/
  release : Bool
  /-- The condition of the AGEING_LIMIT alert, and hours of the last automatic repointing (R336, R337). -/
  ageLimit : Bool
  repointHours : Nat
  deriving DecidableEq, Repr

/-! The ledger (R373–R387). -/

/-- The ledger beside the LEDGER page. -/
structure Ledger where
  /-- The ring: key 8 · slot + word. -/
  slots : Sparse Nat
  /-- Slots that hold an uncorrectable word, and slots whose LEDGER_UE is recorded (R384). -/
  bad : List Nat
  reported : List Nat
  /-- Records of severity 0 or 1 of a code in the current period, and the suppressed ones (R377). -/
  counts : Sparse Nat
  muted : Sparse Nat
  /-- LEDGER_OVERRUN has been written since the last ACK_SEQ write (R379). -/
  overrun : Bool
  /-- Fine count of operating minutes, and steps burned in the hour thermometer (R380). -/
  fine : Nat
  steps : Nat
  deriving DecidableEq, Repr

/-! The sideband (R440–R445). -/

/-- An open RAIL_REQ: the rail and its setting in 0.5 mV units. -/
structure RailReq where
  rail : Nat
  setting : Nat
  deriving DecidableEq, Repr

/-- The I3C target. -/
structure Sideband where
  addr : Option Nat
  mwl : Nat
  mrl : Nat
  /-- IBIs are enabled (ENEC). -/
  enabled : Bool
  /-- The response held for a private read. -/
  resp : Option (List Byte)
  /-- Pending IBIs and the IBIs raised on the bus, oldest first: mandatory byte and payload (R444). -/
  pending : List (Nat × List Byte)
  raised : List (Nat × List Byte)
  rails : List RailReq
  /-- Requested VDD_SRAM setting in 0.5 mV units. -/
  sram : Nat
  /-- Bytes the die drove in its last answer to a CCC or a private read; none after a NACK. -/
  out : Option (List Byte)
  deriving DecidableEq, Repr

/-! Freeze, TAP, trowel and trace (R403–R415). -/

/-- A trace record before it is written (R411): timestamp, kind, index, value, aux, issue timestamp and peer. -/
structure TraceRec where
  time : Nat
  kind : Nat
  index : Nat
  value : Nat
  aux : Nat
  issued : Nat
  peer : Nat
  deriving DecidableEq, Repr

/-- The trace of a core: next SEQ, its FIFO, and records dropped since the last written one. -/
structure TraceCore where
  seq : Nat
  fifo : List TraceRec
  drops : Nat
  deriving DecidableEq, Repr

/-- A word or a number of a trowel response line. -/
inductive Tok where
  | text (s : String)
  | num (n : Nat)
  deriving DecidableEq, Repr

/-- Freeze watch, TAP and trowel. -/
structure Debug where
  /-- Drivers of FREEZE_N on this die: 1 register, 2 trowel, 3 FREEZE_CTL (R403). -/
  drives : List Nat
  /-- Source of the freeze in force, and the path that released this die's drive last (R406). -/
  source : Nat
  releaser : Nat
  /-- A coolant stop latched during a freeze (R406). -/
  latched : Bool
  /-- The selected TAP instruction code and the last word shifted out with the NOT_FROZEN bit (R407, R408). -/
  tap : Nat
  shift : List Nat
  notFrozen : Bool
  trace : Sparse TraceCore
  /-- Response lines of the last trowel command; its error: 0 ok, 1 SYNTAX, 2 LONG, 3 OVERFLOW, 4 RANGE, 5 LOCKED, 6 FROZEN, 7 BUSY; the
  command that runs and still owes its answer: 1 dump, 2 freeze, 3 set-tie (R413, R414). -/
  lines : List (List Tok)
  err : Nat
  owed : Nat
  deriving DecidableEq, Repr

/-! Bring-up (R339–R347). -/

/-- The firmware store of a core: digest table and bytes received, by offset (R346). -/
structure Store where
  table : List Byte
  data : Sparse Byte
  deriving DecidableEq, Repr

/-- What the foreman knows of a core site for its next publication (R31, R32). -/
structure Site where
  /-- Good arrays, one bit per array. -/
  arrays : Nat
  /-- The non-array parts are good. -/
  parts : Bool
  /-- CAUSE of a lost part. -/
  cause : Nat
  deriving DecidableEq, Repr

/-- Bring-up and the firmware. -/
structure Boot where
  staging : Sparse Byte
  /-- The core segments and their digest table as the foreman holds them (R346). -/
  image : List Byte
  digests : List Byte
  /-- ENUM_GO was written before ENUM_WAIT (R344). -/
  goHeld : Bool
  /-- Phases run for a compute-part reset (R348). -/
  part : Bool
  /-- Phase 7 is complete. -/
  ready : Bool
  /-- Phase 4 runs the quick test (R341). -/
  quick : Bool
  /-- The fused test plan: sites that differ from a full core (R30); and the fused spare byte of bank b of core c, key 16c + b (R226). -/
  fused : Sparse Site
  fusedSpares : Sparse Nat
  /-- Sites that differ from the fused plan. -/
  sites : Sparse Site
  stores : Sparse Store
  /-- PWRGOOD and RESET_N are high; no low level of COMP_RESET_N is on; PWRGOOD has risen since plinth power-up; a low level of
  COMP_RESET_N waits for phase 7 or for the end of a freeze (R439). -/
  pwrgood : Bool
  resetN : Bool
  compResetN : Bool
  risen : Bool
  compHeld : Bool
  /-- VDD_PLINTH is up; cause of the POWER_ON record that is due (R373). -/
  plinth : Bool
  cause : Option Nat
  deriving DecidableEq, Repr

/-! Long operations (R352). -/

/-- A SUSPEND of the task that waits for its boundary (R354). -/
structure Suspend where
  atTick : Nat
  accepted : Nat
  save : Bool
  acc : Bool
  bed : Bool
  off : Bool
  base : Nat
  stride : Nat
  deriving DecidableEq, Repr

/-- What the die keeps of its task beside the CMD page. -/
structure Task where
  /-- The participants on this die. -/
  parts : List Nat
  /-- The arch whose closure starts the task, if that is its start condition, and the cycle of acceptance (R26). -/
  arch : Option Nat
  accepted : Nat
  /-- No course has started yet: the first one keeps the course number (R42). -/
  first : Bool
  suspend : Option Suspend
  /-- Cycle in which a CANCEL was accepted (R357). -/
  cancel : Option Nat
  /-- The task was suspended with its domains powered off or is not in place (R355). -/
  away : Bool
  /-- Stops on their way to participants after a core's fail-stop: the core and the cycle of arrival (R241, R368). -/
  halts : List (Nat × Nat)
  /-- Cycle of the fail-stop that ended the task (R238). -/
  failed : Option Nat
  /-- A START or RESUME whose start condition is still to be met (R26). -/
  waiting : Bool
  deriving DecidableEq, Repr

/-- One core image of a context operation (R359): its bytes, the next offset, and what is awaited. -/
structure CtxCore where
  core : Nat
  image : List Byte
  next : Nat
  begun : Bool
  waiting : Bool
  done : Bool
  deriving DecidableEq, Repr

/-- A context operation (R359–R363). -/
structure Context where
  save : Bool
  acc : Bool
  bed : Bool
  off : Bool
  base : Nat
  stride : Nat
  cores : List CtxCore
  deriving DecidableEq, Repr

/-- A result that the foreman has not written yet (R350). -/
structure CmdResult where
  status : Nat
  seq : Nat
  op : Nat
  deriving DecidableEq, Repr

/-- A load of core firmware (R346, R347): its cores, the round, why it runs (6 bring-up, 2 BROADCAST, 1 core-group reset, 3 RESUME
from image). -/
structure Load where
  cores : List Nat
  round : Nat
  why : Nat
  deriving DecidableEq, Repr

/-- A memory test (R342): quick or full, its step, 4 once all steps are done, the rail setting or background of the step, and the pass. -/
structure MemTest where
  quick : Bool
  step : Nat
  setting : Nat
  pass : Nat
  deriving DecidableEq, Repr

/-- A shard map of a rebond (R301): its header and its owner entries as two words each. -/
structure ShardMap where
  rows : Nat
  cols : Nat
  br : Nat
  bc : Nat
  pr : Nat
  pc : Nat
  owners : List (Nat × Nat)
  deriving DecidableEq, Repr

/-- Progress of one destination owner: packets formed, responses owed, its add or WRITE.S is out, abandoned, finished. -/
structure OwnerState where
  formed : Nat
  owed : Nat
  last : Bool
  abandoned : Bool
  finished : Bool
  deriving DecidableEq, Repr

/-- A rebond whose descriptor passed (R299–R311): transform, element size, source rows and columns, index list, maps, owners. -/
structure Rebond where
  transform : Nat
  e : Nat
  r : Nat
  c : Nat
  idx : Nat
  g : Nat
  src : ShardMap
  dst : ShardMap
  owners : Sparse OwnerState
  deriving DecidableEq, Repr

/-- A RESUME from image (R356): its start condition, BASE and STRIDE. -/
structure Resume where
  arch : Option Nat
  base : Nat
  stride : Nat
  deriving DecidableEq, Repr

/-- The foreman's bookkeeping of commands and operations. -/
structure Ops where
  nextId : Nat
  result : Option CmdResult
  context : Option Context
  load : Option Load
  memtest : Option MemTest
  rebond : Option Rebond
  resume : Option Resume
  /-- The core groups that a core-group reset or a power-on works on (R348, R429). -/
  group : List Nat
  /-- Domains that a request of R429 will power off. -/
  offs : List Nat
  /-- Kinds of operation with a suspend, and with a cancel, that wait for their boundary (R353). -/
  suspending : List Nat
  cancelling : List Nat
  deriving DecidableEq, Repr

/-- An attestation request that the foreman works on (R396, R397): the latched nonce, the configuration record and the timestamp at acceptance. -/
structure Attest where
  nonce : List Byte
  config : List Byte
  time : Nat
  deriving DecidableEq, Repr

/-- The state. -/
structure State where
  pending : List Instr
  regs : Sparse Nat
  force : Sparse Nat
  mem : List Host.Cell
  marks : Sparse Nat
  cores : Sparse Core
  detected : List Event
  task : Task
  frozen : Bool
  sync : Sync
  net : Net
  slip : Slip
  ops : Ops
  /-- Rows and lines queued for repair: memory (0 bed, 1 yard), unit, row (R222). -/
  repairs : List (Nat × Nat × Nat)
  /-- Corrections of the scrub pass in progress, key 0–1,023 a core, 1,024 + s a slice (R220). -/
  scrubs : Sparse Nat
  ports : Sparse Port
  ring : Ring
  power : PowerCtl
  ledger : Ledger
  side : Sideband
  dbg : Debug
  boot : Boot
  /-- The request behind ATTEST.CTRL.BUSY. -/
  attest : Option Attest
  deriving DecidableEq, Repr

def Sync.init : Sync := ⟨[], [], [], [], [], [], [], []⟩
def Net.init : Net := ⟨[], [], [], [], [], [], 0, [], [], [], [], [], 0⟩
def Slip.init : Slip := ⟨[], [], none⟩

def Task.init : Task := ⟨[], none, 0, true, none, none, false, [], none, false⟩
def Ops.init : Ops := ⟨1, none, none, none, none, none, none, [], [], [], []⟩
def Port.init : Port := ⟨0, 0, 0, [], 0, false, 0, 0, 0, 0, []⟩
def Ring.init : Ring := ⟨false, 0, false, none, [], [], [], false, [], false, none, [], 0, 0⟩
def PowerCtl.init : PowerCtl :=
  ⟨800, 80, false, false, 0, false, 0, none, [], [], [], false, 0, [], false, [], [], [], [], false, false, false, 0⟩
def Ledger.init : Ledger := ⟨[], [], [], [], [], false, 0, 0⟩
def Sideband.init : Sideband := ⟨none, 269, 269, true, none, [], [], [], 1650, none⟩
def Debug.init : Debug := ⟨[], 0, 0, false, 1, [], false, [], [], 0, 0⟩
def Boot.init : Boot := ⟨[], [], [], false, false, false, false, [], [], [], [], false, false, true, false, false, false, none⟩

def State.reset : State := ⟨[], [], [], [], [], [], [], Task.init, false, Sync.init, Net.init, Slip.init, Ops.init, [], [], [],
  Ring.init, PowerCtl.init, Ledger.init, Sideband.init, Debug.init, Boot.init, none⟩

end Sys2Proof.Machine
end

