-- ==== Sys2Proof/Machine/Ops.lean ====
section
/-!
DEFINITION. The named operations over sparse stores, registers, memory, cores, events, and the fail-stop.
-/

namespace Sys2Proof.Machine

/-! Sparse stores. -/

/-- Look a key up, with the value an unlisted key has. -/
def Sparse.get {α : Type} (d : α) : Sparse α → Nat → α
  | [], _ => d
  | (k, v) :: r, x => if k = x then v else Sparse.get d r x

/-- Set a key, keeping keys rising and listing no value that equals the unlisted one. -/
def Sparse.put {α : Type} [DecidableEq α] (d : α) : Sparse α → Nat → α → Sparse α
  | [], x, w => if w = d then [] else [(x, w)]
  | (k, v) :: r, x, w =>
    if x < k then (if w = d then (k, v) :: r else (x, w) :: (k, v) :: r)
    else if k = x then (if w = d then r else (x, w) :: r)
    else (k, v) :: Sparse.put d r x w

/-- Set a run of consecutive keys. -/
def Sparse.putRun {α : Type} [DecidableEq α] (d : α) (m : Sparse α) (x : Nat) : List α → Sparse α
  | [] => m
  | w :: ws => Sparse.putRun d (Sparse.put d m x w) (x + 1) ws

/-- Bits hi to lo of a number. -/
def fld (w hi lo : Nat) : Nat := w / 2 ^ lo % 2 ^ (hi + 1 - lo)

/-- Replace bits hi to lo of a word. -/
def putFld (w hi lo v : Nat) : Nat := w - fld w hi lo * 2 ^ lo + v % 2 ^ (hi + 1 - lo) * 2 ^ lo

/-- Bit i of a number. -/
def bit (w i : Nat) : Bool := decide (w / 2 ^ i % 2 = 1)

/-- A Boolean as a one-bit field. -/
def b2n (b : Bool) : Nat := if b then 1 else 0

/-- The little-endian number of a byte list (R9). -/
def ofBytes : List Byte → Nat
  | [] => 0
  | b :: r => b.toNat + 256 * ofBytes r

/-- The `n` little-endian bytes of a number (R9). -/
def toBytes : Nat → Nat → List Byte
  | 0, _ => []
  | n + 1, x => BitVec.ofNat 8 x :: toBytes n (x / 256)

/-! Registers. -/

/-- The stored value of a register field. -/
def State.rd (s : State) (r : Row) (u i : Nat) : Nat := Sparse.get (r.resetOf u) s.regs (r.key u i)

/-- Store a register field. -/
def State.wr (s : State) (r : Row) (u i v : Nat) : State :=
  { s with regs := Sparse.put (r.resetOf u) s.regs (r.key u i) (v % 2 ^ r.width) }

/-- A field of core `c` and a field of the die. -/
def State.cf (s : State) (r : Row) (c : Nat) : Nat := s.rd r c 0
def State.df (s : State) (r : Row) : Nat := s.rd r 0 0
def State.setC (s : State) (r : Row) (c v : Nat) : State := s.wr r c 0 v
def State.setD (s : State) (r : Row) (v : Nat) : State := s.wr r 0 0 v

/-- Add to a counter, which saturates at its maximum. -/
def State.bump (s : State) (r : Row) (u i n : Nat) : State := s.wr r u i (min (s.rd r u i + n) (2 ^ r.width - 1))
def State.bumpC (s : State) (r : Row) (c n : Nat) : State := s.bump r c 0 n
def State.bumpD (s : State) (r : Row) (n : Nat) : State := s.bump r 0 0 n

/-! Cores. -/

def State.core (s : State) (c : Nat) : Core := Sparse.get Core.init s.cores c

def State.setCore (s : State) (c : Nat) (k : Core) : State := { s with cores := Sparse.put Core.init s.cores c k }

def State.mapCore (s : State) (c : Nat) (f : Core → Core) : State := s.setCore c (f (s.core c))

def State.mapSeq (s : State) (c : Nat) (f : Sequencer → Sequencer) : State :=
  s.mapCore c fun k => { k with seq := f k.seq }

def State.mapTm (s : State) (c : Nat) (f : Timing → Timing) : State :=
  s.mapCore c fun k => { k with tm := f k.tm }

/-! Floor plan. -/

/-- STATE of the floor-plan entry of core c: 0 dead, 1 narrow, 2 full (R32). -/
def State.floorState (s : State) (c : Nat) : Nat := s.rd Reg.FLOOR_STATE (c / 512) (c % 512)

/-- The listed arrays of core c, one bit each. -/
def State.arrays (s : State) (c : Nat) : Nat := s.rd Reg.FLOOR_ARRAYS (c / 512) (c % 512)

def State.arrayGood (s : State) (c a : Nat) : Bool := bit (s.arrays c) a

/-- Is the power domain of core c's group on (R428)? The group is that of R316: 8 · floor(y / 4) + floor(x / 4). -/
def groupOf (c : Nat) : Nat := 8 * (c / 32 / 4) + c % 32 / 4

def State.domainOn (s : State) (d : Nat) : Bool :=
  if d < 64 then bit (s.df Reg.DIR_DOM_ON_LO) d else bit (s.df Reg.DIR_DOM_ON_HI) (d - 64)

/-- A core that accesses can reach: published alive and powered (R24, R430). -/
def State.coreAlive (s : State) (c : Nat) : Bool :=
  decide (c < 1024) && decide (s.floorState c ≠ 0) && s.domainOn (groupOf c)

/-! Time and clocks. -/

/-- The die timestamp (R40). -/
def State.now (s : State) : Nat := s.df Reg.CTRL_TIMESTAMP

def State.tickCount (s : State) : Nat := s.now / 2 ^ 24
def State.tickCycle (s : State) : Nat := s.now % 2 ^ 24

/-- The value of a pending-until-tick field in force (R38). -/
def State.inForce (s : State) (r : Row) : Nat := Sparse.get r.reset s.force (r.key 0 0)

def State.setForce (s : State) (r : Row) (v : Nat) : State :=
  { s with force := Sparse.put r.reset s.force (r.key 0 0) v }

/-- Move the cycle in tick forward to `x`, never past the period's last cycle. -/
def State.reachCycle (s : State) (x : Nat) : State :=
  let y := min x (s.inForce Reg.CTRL_PERIOD - 1)
  if s.tickCycle < y then s.setD Reg.CTRL_TIMESTAMP (s.tickCount * 2 ^ 24 + y) else s

/-- The cycles counted by the timestamp at the period in force. -/
def State.lin (s : State) : Nat := s.tickCount * s.inForce Reg.CTRL_PERIOD + s.tickCycle

/-- A jump of the cycle count from `old` to the present one leaves every noted cycle as far from now as it was. -/
def State.shiftStamps (s : State) (old : Nat) : State :=
  let m (x : Nat) : Nat := x + s.lin - old
  { s with
    task := { s.task with
      accepted := m s.task.accepted
      suspend := s.task.suspend.map fun q => { q with accepted := m q.accepted }
      cancel := s.task.cancel.map m
      halts := s.task.halts.map fun h => (h.1, m h.2)
      failed := s.task.failed.map m }
    ring := { s.ring with base := m s.ring.base }
    sync := { s.sync with
      updates := s.sync.updates.map fun u => { u with due := m u.due }
      registering := s.sync.registering.map fun q => { q with deadline := q.deadline.map m, at_ := m q.at_ }
      slots := s.sync.slots.map fun x => { x with req := { x.req with deadline := x.req.deadline.map m, at_ := m x.req.at_ } }
      awaits := s.sync.awaits.map fun x => { x with deadline := x.deadline.map m }
      results := s.sync.results.map fun r => { r with at_ := m r.at_ }
      arches := s.sync.arches.map fun x => (x.1, { x.2 with last := m x.2.last, ready := x.2.ready.map m })
      freed := [], links := [] }
    net := { s.net with
      accesses := s.net.accesses.map fun x => { x with since := m x.since }
      forced := s.net.forced.map fun x => (x.1, m x.2) } }

/-- Move the time forward to a cycle count, never past the period's last cycle. -/
def State.reachLin (s : State) (x : Nat) : State := s.reachCycle (x - s.tickCount * s.inForce Reg.CTRL_PERIOD)

/-- The compute clocks run: no freeze (R404) and no coolant or thermal stop (R333). -/
def State.clocksRun (s : State) : Bool := !s.frozen && decide (s.df Reg.POWER_STOPPED = 0)

/-- The state of the task operation (R352) and whether a task runs on the die (R448). -/
def State.opState (s : State) (kind : Nat) : Nat := s.rd Reg.CMD_OPS_STATE 0 kind
def State.taskState (s : State) : Nat := s.opState 0
def State.taskRuns (s : State) : Bool := decide (1 ≤ s.taskState) && decide (s.taskState ≤ 4)

/-- What a command of a PLL-clocked block does: nothing while the die is frozen (R404). -/
def State.live (s : State) (f : State → State) : Host.Outcome State Fault Refusal := .next (if s.frozen then s else f s)

/-- What a command of a block on the arithmetic clock does: nothing while that clock is stopped (R333, R404). -/
def State.clocked (s : State) (f : State → State) : Host.Outcome State Fault Refusal := .next (if s.clocksRun then f s else s)

/-! Events. -/

/-- The severity of an event that stops no task (R367). -/
def sevOf (code : Nat) : Nat :=
  if code = 0x0A0A ∨ code = 0x0A0B then 2
  else if code ∈ [0x0601, 0x0602, 0x0603, 0x0604, 0x0605, 0x0606, 0x0B04, 0x0800, 0x0A07, 0x0A03, 0x0A0E, 0x0E02, 0x0E00] then 1
  else 0

/-- The die detects an event: it enters the foreman's acceptance queue with its timestamp (R376). -/
def State.noteSev (s : State) (code unit : Nat) (data : List Nat) (sev : Nat) (stop : Bool) : State :=
  { s with detected := s.detected ++ [⟨code, unit, data, s.now, sev, stop⟩] }

def State.note (s : State) (code unit : Nat) (data : List Nat) : State := s.noteSev code unit data (sevOf code) false

/-- The unit of an event that names none (R374). -/
def noUnit : Nat := 0xFFFF

/-- Give kind k a new operation ID (R352). -/
def State.newOp (s : State) (kind : Nat) : State :=
  let s := s.wr Reg.CMD_OPS_ID 0 kind s.ops.nextId
  { s with ops := { s.ops with nextId := s.ops.nextId + 1 } }

/-- Change an operation's state and record OP_STATE (R352, R385): kind, OP_ID, old state, new state with the cause in bits [11:8]. -/
def State.setOp (s : State) (kind new cause : Nat) : State :=
  let old := s.opState kind
  let s := s.wr Reg.CMD_OPS_STATE 0 kind new
  s.note 0x0B08 noUnit [kind, s.rd Reg.CMD_OPS_ID 0 kind, old, new + 256 * cause]

/-! The fail-stop. -/

/-- RUN of core c. -/
def State.run (s : State) (c : Nat) : Nat := s.cf Reg.SEQ_RUN c

/-- Stop one core: it issues nothing more until the task is cancelled or resumed from an image (R368). -/
def State.stopCore (s : State) (c : Nat) : State := s.setC Reg.SEQ_RUN c 3

def State.stopCores (s : State) : List Nat → State
  | [] => s
  | c :: r => (s.stopCore c).stopCores r

/-- Sync-plane transit between two cores (R241). -/
def transit (c d : Nat) : Nat :=
  let far (x y : Nat) : Nat := (max x y - min x y + 7) / 8
  far (c % 32) (d % 32) + far (c / 32) (d / 32)

/-- The task moves to state 7 with its cause, and OP_STATE is recorded (R51, R357). -/
def State.failOp (s : State) (cause : Nat) : State :=
  if s.taskRuns then
    let s := s.setD Reg.CMD_CAUSE cause
    State.setOp { s with task := { s.task with failed := some s.lin } } 0 7 cause
  else s

/-- A fail-stop decided by the die: every participant stops in its cycle, and the task fails (R51, R368). -/
def State.failTask (s : State) (cause : Nat) : State :=
  (State.stopCores { s with task := { s.task with halts := [] } } s.task.parts).failOp cause

/-- The stop of core c leaves for the other participants, which it reaches over the sync plane (R241, R368). -/
def State.sendStops (s : State) (c : Nat) : State :=
  { s with task := { s.task with
    halts := (s.task.parts.filter fun d => decide (d ≠ c) && decide (s.run d ≠ 3)).map fun d => (d, s.lin + 2 + transit c d) } }

/-- Has a stop reached core c by cycle x? -/
def State.stopReaches (s : State) (c x : Nat) : Bool := s.task.halts.any fun h => decide (h.1 = c) && decide (h.2 ≤ x)

/-- A stop takes effect at its core. -/
def State.haltCore (s : State) (c : Nat) : State :=
  State.stopCore { s with task := { s.task with halts := s.task.halts.filter fun h => decide (h.1 ≠ c) } } c

/-- Stops that arrive by cycle x take effect. -/
def State.landStops (s : State) (x : Nat) : State :=
  ((s.task.halts.filter fun h => decide (h.2 ≤ x)).map Prod.fst).foldl State.haltCore s

/-- Every stop on its way takes effect. -/
def State.landAll (s : State) : State := (s.task.halts.map Prod.fst).foldl State.haltCore s

/-- A fail-stop at core c with the event that names it: the event and the core's stop; the first of a task also sends the stop to the
other participants and fails the task (R51, R366, R368). Outside a task the event alone is recorded and the core stops. -/
def State.failStop (s : State) (c code unit : Nat) (data : List Nat) (sev cause : Nat) : State :=
  let s := (s.noteSev code unit data sev true).haltCore c
  (if s.taskRuns then s.sendStops c else s).failOp cause

/-! Memory: one space of bytes by die-local address, bed windows and yard (R22). -/

/-- Quadrant of yard slice u (R428). -/
def quadrantOf (u : Nat) : Nat := 2 * (u / 32) + u % 8 / 4

/-- What a byte that nothing has written reads as (notes/assumptions/2.md). -/
def Memory.blank : Byte := 0#8

/-- The canonical form: addresses strictly rising, no byte equal to the blank one. -/
def Memory.wf : List Host.Cell → Bool
  | [] => true
  | [(_, b)] => decide (b ≠ Memory.blank)
  | (a, b) :: (a', b') :: r => decide (b ≠ Memory.blank) && decide (a < a') && Memory.wf ((a', b') :: r)

def State.byteAt (s : State) (a : Nat) : Byte := Sparse.get Memory.blank s.mem a

def State.bytesAt (s : State) (a n : Nat) : List Byte := (List.range n).map fun i => s.byteAt (a + i)

/-- Write one byte. -/
def State.pokeByte (s : State) (a : Nat) (b : Byte) : State := { s with mem := Sparse.put Memory.blank s.mem a b }

/-- Write bytes at rising addresses. -/
def State.pokeBytes (s : State) (a : Nat) : List Byte → State
  | [] => s
  | b :: r => (s.pokeByte a b).pokeBytes (a + 1) r

/-- Base of core c's window and of its bed (R22). -/
def windowBase (c : Nat) : Nat := 0x10000000000 + c * 0x100000

/-- Size of a bed and of the yard. -/
def bedSize : Nat := 0x60000
def yardSize : Nat := 0x8000000

/-! SECDED (R217): a mark counts the wrong bits of a 64-bit word, keyed by its address. -/

/-- What SECDED finds: 0 clean, 1 corrected, 2 uncorrectable; three or more wrong bits leave it open. -/
def secded (key n : Nat) : Nat :=
  match n with
  | 0 => 0 | 1 => 1 | 2 => 2 | _ => (Config.tripleError key).val

/-- The words that bytes a to a + n − 1 touch. -/
def wordsOf (a n : Nat) : List Nat :=
  if n = 0 then [] else (List.range ((a + n - 1) / 8 - a / 8 + 1)).map fun i => 8 * (a / 8 + i)

def State.markAt (s : State) (w : Nat) : Nat := Sparse.get 0 s.marks w

/-- The worst finding over the words an access touches. -/
def State.eccOf (s : State) (a n : Nat) : Nat := ((wordsOf a n).map fun w => secded w (s.markAt w)).foldl max 0

/-- The uncorrectable words an access touches. -/
def State.ueWords (s : State) (a n : Nat) : List Nat := (wordsOf a n).filter fun w => decide (secded w (s.markAt w) = 2)

/-- A whole-word write leaves fresh check bits; so does every write in this model once its read found no uncorrectable word. -/
def State.clearMarks (s : State) (a n : Nat) : State :=
  { s with marks := (wordsOf a n).foldl (fun m w => Sparse.put 0 m w 0) s.marks }

/-- Store bytes with fresh check bits. -/
def State.store (s : State) (a : Nat) (bs : List Byte) : State := (s.pokeBytes a bs).clearMarks a bs.length

/-- Capture and count an uncorrectable bed word of core c (R219, R228): the word's bank, line and word number. -/
def State.captureBedUe (s : State) (c w : Nat) : State :=
  let o := w - windowBase c
  let s := s.bumpD Reg.YARD_BED_UE 1
  if s.cf Reg.BED_UE_VALID c = 1 then s
  else (((s.setC Reg.BED_UE_BANK c (fld o 12 9)).setC Reg.BED_UE_LINE c (fld o 18 13)).setC Reg.BED_UE_WORD c (fld o 8 3)).setC Reg.BED_UE_VALID c 1

/-- DATA of ECC_UE for a bed word: memory 0, row bank · 64 + line, word (R219). -/
def bedUeData (c w : Nat) : List Nat :=
  let o := w - windowBase c
  [0, fld o 12 9 * 64 + fld o 18 13, fld o 8 3]

/-- Slice and row of a yard word; spare row e of slice u, which no address reaches, keeps its marks past the yard (R221). -/
def yardUnit (w : Nat) : Nat := if w < yardSize then fld w 26 21 else (w - yardSize) / 2 ^ 18
def yardRow (w : Nat) : Nat := if w < yardSize then fld w 20 9 else 4096 + (w - yardSize) / 512 % 512

/-- DATA of ECC_UE for a yard word: memory 1, row, word. -/
def yardUeData (w : Nat) : List Nat := [1, yardRow w, fld w 8 3]

/-- YARD.HARD_PENDING and the repair status word follow the queue: waiting for a window on its first row, or idle (R229). -/
def State.showRepairs (s : State) : State :=
  let s := s.setD Reg.YARD_HARD_PENDING (min s.repairs.length (2 ^ 16 - 1))
  match s.repairs with
  | [] => s.setD Reg.YARD_REPAIR_STATE 0
  | (m, u, r) :: _ => (((s.setD Reg.YARD_REPAIR_STATE 1).setD Reg.YARD_REPAIR_MEM m).setD Reg.YARD_REPAIR_UNIT u).setD Reg.YARD_REPAIR_ROW r

/-- A repair operation starts (R351, R352). -/
def State.startRepairs (s : State) : State := ((s.newOp 4).setOp 4 1 0).setOp 4 2 0 |>.wr Reg.CMD_PROGRESS 0 4 0

/-- An operation of a kind is in state 1 to 4. -/
def State.opLive (s : State) (kind : Nat) : Bool := decide (1 ≤ s.opState kind) && decide (s.opState kind ≤ 4)

/-- Queue a row for repair once; the foreman starts a repair operation when none is under way (R222, R229, R351). -/
def State.queueRepair (s : State) (row : Nat × Nat × Nat) : State :=
  if s.repairs.contains row then s
  else
    let first := s.repairs.isEmpty
    let s := State.showRepairs { s with repairs := s.repairs ++ [row] }
    if first && !s.opLive 4 then s.startRepairs else s

/-! What the foreman knows of a site, and the spares (R31, R221, R225). -/

def Site.full : Site := ⟨0xF, true, 0⟩

/-- The fused test plan of a site (R30). -/
def State.fusedSite (s : State) (c : Nat) : Site := Sparse.get Site.full s.boot.fused c

def State.site (s : State) (c : Nat) : Site := Sparse.get (s.fusedSite c) s.boot.sites c

def State.setSite (s : State) (c : Nat) (x : Site) : State :=
  { s with boot := { s.boot with sites := Sparse.put (s.fusedSite c) s.boot.sites c x } }

/-- A site loses its non-array parts for a cause. -/
def State.loseSite (s : State) (c cause : Nat) : State := s.setSite c { s.site c with parts := false, cause := cause }

/-- The byte of SPARE_LO or SPARE_HI of a bank. -/
def State.spareByte (s : State) (c bank : Nat) : Nat :=
  let r := if bank < 8 then Reg.BED_SPARE_LO else Reg.BED_SPARE_HI
  fld (s.cf r c) (8 * (bank % 8) + 7) (8 * (bank % 8))

def State.setSpareByte (s : State) (c bank v : Nat) : State :=
  let r := if bank < 8 then Reg.BED_SPARE_LO else Reg.BED_SPARE_HI
  s.setC r c (putFld (s.cf r c) (8 * (bank % 8) + 7) (8 * (bank % 8)) v)

/-- The spare of a bank is in use or bad. -/
def State.bankSpent (s : State) (c bank : Nat) : Bool := decide (64 ≤ s.spareByte c bank)

/-- A bank is unrepairable: the core keeps running and is dead from the next publication on (R225). -/
def State.exhaustBank (s : State) (c cause : Nat) : State := (s.note 0x0605 c []).loseSite c cause

/-- The lowest good unused spare row of a slice. -/
def State.freeSpare (s : State) (u : Nat) : Option Nat :=
  (List.range 512).find? fun e => decide (s.rd Reg.YREP_VALID u e = 0) && decide (s.rd Reg.YREP_SPARE_BAD u e = 0)

/-- A slice with no good unused spare row sets its bit in EXHAUSTED and is recorded (R225, R229). -/
def State.checkSlice (s : State) (u : Nat) : State :=
  let x := s.df Reg.YARD_EXHAUSTED
  if (s.freeSpare u).isSome ∨ bit x u then s else (s.setD Reg.YARD_EXHAUSTED (x + 2 ^ u)).note 0x0606 u []

/-- A row must be mapped out: it queues for a repair window, unless its bank or slice has no good unused spare; then the bank is
unrepairable at once, and a yard row stays in service (R222, R225). -/
def State.failRow (s : State) (row : Nat × Nat × Nat) : State :=
  if row.1 = 0 then
    if row.2.2 % 64 < 48 ∧ s.bankSpent row.2.1 (row.2.2 / 64) then s.exhaustBank row.2.1 4 else s.queueRepair row
  else if row.2.2 < 4096 ∧ s.freeSpare row.2.1 = none then s.checkSlice row.2.1
  else s.queueRepair row

/-- An uncorrectable bed word of core c: fail-stop when the core takes part in a running task, else a record and a queued repair (R219, R222). -/
def State.bedUe (s : State) (c w : Nat) : State :=
  let s := s.captureBedUe c w
  let o := w - windowBase c
  let s := s.failRow (0, c, fld o 12 9 * 64 + fld o 18 13)
  if s.taskRuns && s.task.parts.contains c then s.failStop c 0x0601 c (bedUeData c w) 3 5
  else s.note 0x0601 c (bedUeData c w)

/-- An uncorrectable yard word: it stops a running task (R219). -/
def State.yardUe (s : State) (w : Nat) : State :=
  let s := s.bumpD Reg.YARD_YARD_UE 1
  let s := s.failRow (1, yardUnit w, yardRow w)
  if s.taskRuns then (s.noteSev 0x0601 (yardUnit w) (yardUeData w) 3 true).failTask 5
  else s.note 0x0601 (yardUnit w) (yardUeData w)

/-- Every uncorrectable word that a read of core c's bed meets. -/
def State.bedUes (s : State) (c : Nat) (ws : List Nat) : State := ws.foldl (fun s w => s.bedUe c w) s

/-- Elapsed cycles of the course at core c: course cycles and holds. -/
def Core.elapsed (k : Core) : Nat := k.seq.cycle + k.seq.held

/-- Cycle of the current bundle of a core, counted from the tick of its course, with every hold so far (R44, R50). -/
def Core.tickCycle (k : Core) : Nat := k.seq.start + k.seq.cycle + k.seq.held

/-- The same as a cycle count of the die. -/
def State.coreLin (s : State) (c : Nat) : Nat :=
  (s.core c).seq.tick * s.inForce Reg.CTRL_PERIOD + (s.core c).tickCycle

/-- The issue cycle of core c's current bundle as a cycle count of the die: without the holds that the bundle itself brings (R37, R40). -/
def State.issueLin (s : State) (c : Nat) : Nat :=
  let q := (s.core c).seq
  q.tick * s.inForce Reg.CTRL_PERIOD + q.start + q.cycle + q.view.held

/-- A cycle count as a timestamp (R40). -/
def State.stampOf (s : State) (x : Nat) : Nat :=
  let p := s.inForce Reg.CTRL_PERIOD
  x / p % 2 ^ 40 * 2 ^ 24 + x % p

/-- The timestamp of the issue cycle of core c's current bundle (R40). -/
def State.coreStamp (s : State) (c : Nat) : Nat := s.stampOf (s.issueLin c)

/-- Stand at the issue cycle of core c's current bundle, as far as it lies in the present tick. -/
def State.atIssue (s : State) (c : Nat) : State :=
  let p := s.inForce Reg.CTRL_PERIOD
  s.setD Reg.CTRL_TIMESTAMP (s.tickCount * 2 ^ 24 + min (s.issueLin c - s.tickCount * p) (p - 1))

/-- The die's clock does not fall behind what it has shown. -/
def State.notBefore (s : State) (old : Nat) : State := if s.now < old then s.setD Reg.CTRL_TIMESTAMP old else s

/-- The present course cycle of core c: that of the bundle issued last, and the cycles since while the core issues, short of the next bundle's. -/
def State.cycleNow (s : State) (c : Nat) : Nat :=
  let q := (s.core c).seq
  if s.run c = 1 then max q.cycle (min (q.nextCycle - 1) (q.cycle + (s.lin - s.coreLin c))) else q.cycle

/-- The counter of a cause (R48). -/
def HoldCause.row : HoldCause → Row
  | .ecc => Reg.SEQ_ECC_HOLD
  | .feed => Reg.SEQ_FEED_HOLD
  | .fetch => Reg.SEQ_FETCH_HOLD
  | .wait => Reg.SEQ_WAIT_HOLD
  | .queue => Reg.SEQ_QUEUE_HOLD
  | .credit => Reg.SEQ_CREDIT_HOLD
  | .power => Reg.SEQ_POWER_HOLD
  | .drain => Reg.SEQ_DRAIN_HOLD

/-- Core c holds n cycles, which count under a cause (R48, R49). -/
def State.countHold (s : State) (c n : Nat) (cause : HoldCause) : State :=
  if n = 0 then s else (s.bumpC cause.row c n).mapSeq c fun q => { q with held := q.held + n }

/-- A request of n held cycles opens at core c (R48, R49). While a condition holds the core, the cycles that fall within its hold count under the
condition, which opened first; in a Drain hold they also freeze the engines (R47). -/
def State.holdFor (s : State) (c n : Nat) (cause : HoldCause) : State :=
  if n = 0 then s
  else if s.run c = 2 then
    s.mapSeq c fun q =>
      if q.cause = some .drain then { q with drainAt := q.drainAt + n } else { q with extra := q.extra ++ [(cause, s.lin + n)] }
  else s.countHold c n cause

/-- Hold core c until a condition ends (R47, R48). -/
def State.holdCore (s : State) (c : Nat) (cause : HoldCause) : State :=
  (s.setC Reg.SEQ_RUN c 2).mapSeq c fun q => { q with cause := some cause }

/-- The requests that opened during a condition hold go on past its end, in the order they opened; each cycle counts once (R49). -/
def State.endExtra (s : State) (c : Nat) : List (HoldCause × Nat) → State
  | [] => s
  | x :: r => (s.countHold c (x.2 - s.coreLin c) x.1).endExtra c r

/-- A condition hold of core c ends in the cycle with count x: the held cycles run from the cycle after the held bundle to that one (R48, R49). -/
def State.releaseAt (s : State) (c x : Nat) (cause : HoldCause) : State :=
  let s := s.reachLin x
  let s := ((s.countHold c (x - s.coreLin c) cause).setC Reg.SEQ_RUN c 1).mapSeq c fun q => { q with cause := none }
  (s.endExtra c (s.core c).seq.extra).mapSeq c fun q => { q with extra := [] }

/-- A condition hold ends in the present cycle, after at least `least` held ones. -/
def State.release (s : State) (c least : Nat) (cause : HoldCause) : State := s.releaseAt c (max s.lin (s.coreLin c + least)) cause

/-- Is core c held for a cause? -/
def State.heldFor (s : State) (c : Nat) (cause : HoldCause) : Bool :=
  decide (s.run c = 2) && decide ((s.core c).seq.cause = some cause)

/-- The trowel command that owes its answer gives it (R414). -/
def State.owedAnswer (s : State) (kind : Nat) (lines : List (List Tok)) : State :=
  if s.dbg.owed = kind then { s with dbg := { s.dbg with lines := lines, err := 0, owed := 0 } } else s

/-- With no command waiting one cycle of the timestamp passes, up to the last of the tick, and the stops due by it reach their cores (R368);
none in a freeze and none before bring-up
(R40, R404; DESIGN CHOICE, notes/assumptions/1.md). -/
def State.idle (s : State) : State :=
  if s.frozen ∨ s.df Reg.BOOT_PHASE = 0 then s
  else
    let s := s.reachCycle (s.tickCycle + 1)
    s.landStops s.lin

/-! The sync trace (R410, R411). -/

/-- Package, die and core of this die as one word, laid out as PEER and as in word 1 of the packet header (R375, R411). -/
def State.peer (s : State) (c : Nat) : Nat := s.df Reg.PLACE_PACKAGE_ID + s.df Reg.PLACE_DIE_ID * 2 ^ 16 + c * 2 ^ 20

/-- Is core c traced (R411)? -/
def State.traced (s : State) (c : Nat) : Bool :=
  decide (s.df Reg.DEBUG_READY = 1) && bit (s.rd Reg.DEBUG_TRACE_MASK 0 (c / 64)) (c % 64)

/-- A sync event at core c enters its 8-record trace FIFO, or is dropped (R411). -/
def State.trace (s : State) (c : Nat) (r : TraceRec) : State :=
  if !s.traced c then s
  else
    let t := Sparse.get ⟨0, [], 0⟩ s.dbg.trace c
    let full := decide (8 ≤ t.fifo.length)
    let t' : TraceCore := if full then { t with drops := t.drops + 1 } else { t with fifo := t.fifo ++ [r] }
    let s : State := { s with dbg := { s.dbg with trace := Sparse.put ⟨0, [], 0⟩ s.dbg.trace c t' } }
    if full then s.bumpD Reg.DEBUG_TRACE_DROPPED 1 else s

end Sys2Proof.Machine
end

