-- ==== Sys2Proof/Machine/Crypto.lean ====
section
/-!
DEFINITION. SHA-256 (FIPS 180-4), RSASSA-PSS verification (RFC 8017) and CRC-32C, as R341, R346, R362, R389 and R394 use them.
-/

namespace Sys2Proof.Machine

/-! SHA-256. -/

/-- The greatest x below 2 to the power `bits` + the start value with x to the power `e` at most `n`, found from the top bit down. -/
def rootFrom (e n : Nat) : Nat → Nat → Nat
  | 0, x => x
  | bit + 1, x => rootFrom e n bit (if (x + 2 ^ bit) ^ e ≤ n then x + 2 ^ bit else x)

/-- The first 32 bits of the fractional part of the `e`-th root of `p` (roots below 8, so 35 bits with the whole part). -/
def rootWord (e p : Nat) : Lane := BitVec.ofNat 32 (rootFrom e (p * 2 ^ (32 * e)) 36 0)

/-- The first `n` primes, newest first, looking at `fuel` numbers from `p`. -/
def primesFrom (n : Nat) : Nat → Nat → List Nat → List Nat
  | 0, _, found => found
  | fuel + 1, p, found =>
    primesFrom n fuel (p + 1) (if found.length < n && found.all (fun q => decide (p % q ≠ 0)) then p :: found else found)

/-- The first `n` primes, rising (the 64th is 311). -/
def firstPrimes (n : Nat) : List Nat := (primesFrom n 312 2 []).reverse

/-- One constant a round: the cube roots of the first 64 primes. -/
def roundWords : List Lane := (firstPrimes 64).map (rootWord 3)

/-- The chaining value before the first block: the square roots of the first eight primes. -/
def firstChain : List Lane := (firstPrimes 8).map (rootWord 2)

/-- The exclusive or of a word turned right by each amount. -/
def rotations (x : Lane) (amounts : List Nat) : Lane := amounts.foldl (fun y n => y ^^^ x.rotateRight n) 0

/-- The message words of a block, newest first, grown by `k` words from the 16 it holds. -/
def hashGrow : Nat → List Lane → List Lane
  | 0, ws => ws
  | k + 1, ws =>
    let back := fun n => ws.getD (n - 1) 0
    let early := rotations (back 15) [7, 18] ^^^ (back 15 >>> 3)
    let late := rotations (back 2) [17, 19] ^^^ (back 2 >>> 10)
    hashGrow k ((back 16 + early + back 7 + late) :: ws)

/-- One round on the eight working words, the first of them `a`; `add` is the round's constant with its message word. -/
def turnRound (v : List Lane) (add : Lane) : List Lane :=
  match v with
  | [a, b, c, d, e, f, g, h] =>
    let low := h + rotations e [6, 11, 25] + (g ^^^ (e &&& (f ^^^ g))) + add
    let high := rotations a [2, 13, 22] + ((a &&& b) ||| (c &&& (a ||| b)))
    [low + high, a, b, c, d + low, e, f, g]
  | other => other

/-- The number of a byte list with its first byte most significant. -/
def ofOctets (l : List Byte) : Nat := l.foldl (fun n b => 256 * n + b.toNat) 0

/-- `n` bytes of a number, most significant first. -/
def toOctets (n x : Nat) : List Byte := (toBytes n x).reverse

/-- The chaining value after `k` blocks of 64 octets. -/
def hashBlocks : Nat → List Byte → List Lane → List Lane
  | 0, _, v => v
  | k + 1, l, v =>
    let block := (List.range 16).map fun i => BitVec.ofNat 32 (ofOctets ((l.drop (4 * i)).take 4))
    let words := (hashGrow 48 block.reverse).reverse
    hashBlocks k (l.drop 64) (List.zipWith (· + ·) v ((List.zipWith (· + ·) roundWords words).foldl turnRound v))

/-- The octets that fill an octet string of length `n` up to whole blocks: a one bit, zero bits, the length in bits. -/
def hashPadding (n : Nat) : List Byte := [0x80#8] ++ List.replicate ((119 - n % 64) % 64) 0#8 ++ toOctets 8 (8 * n)

/-- SHA-256 of an octet string (FIPS 180-4). -/
def sha256 (l : List Byte) : List Byte :=
  let whole := l ++ hashPadding l.length
  (hashBlocks (whole.length / 64) whole firstChain).flatMap fun x => toOctets 4 x.toNat

/-! RSASSA-PSS. -/

/-- MGF1 with SHA-256, `n` octets. -/
def mgf1 (seed : List Byte) (n : Nat) : List Byte :=
  ((List.range ((n + 31) / 32)).flatMap fun i => sha256 (seed ++ toOctets 4 i)).take n

/-- x to the power 2 to the k modulo n. -/
def squares (n : Nat) : Nat → Nat → Nat
  | 0, x => x
  | k + 1, x => squares n k (x * x % n)

/-- EMSA-PSS verification of an encoded message of `emBits` bits: SHA-256, MGF1 with SHA-256, 32 octets of salt, trailer 0xBC. -/
def pssOk (emBits : Nat) (em msg : List Byte) : Bool :=
  let n := em.length
  let db := em.take (n - 33)
  let h := (em.drop (n - 33)).take 32
  let clear := 8 * n - emBits
  let mask := mgf1 h (n - 33)
  let d := List.zipWith (· ^^^ ·) db mask
  let d := (d.take 1).map (fun b => BitVec.ofNat 8 (b.toNat % 2 ^ (8 - clear))) ++ d.drop 1
  let salt := d.drop (n - 65)
  decide (66 ≤ n) && decide (em.getLast? = some 0xBC#8) && decide ((em.getD 0 0#8).toNat / 2 ^ (8 - clear) = 0) &&
  decide (d.take (n - 65) = List.replicate (n - 66) 0#8 ++ [1#8]) &&
  decide (sha256 (List.replicate 8 0#8 ++ sha256 msg ++ salt) = h)

/-- RSASSA-PSS verification with public exponent 65,537 of a 384-octet modulus and signature (R389, R394). -/
def rsaVerify (modulus sig msg : List Byte) : Bool :=
  let n := ofOctets modulus
  let x := ofOctets sig
  let bits := if n = 0 then 0 else Nat.log2 n + 1
  let emBits := bits - 1
  let emLen := (emBits + 7) / 8
  let m := squares n 16 x * x % n
  decide ((bits + 7) / 8 = 384) && decide (x < n) && decide (m < 256 ^ emLen) && pssOk emBits (toOctets emLen m) msg

/-! CRC-32C (Castagnoli). -/

def crcBits : Nat → Nat → Nat
  | 0, c => c
  | k + 1, c => crcBits k (if c % 2 = 1 then (c / 2) ^^^ 0x82F63B78 else c / 2)

/-- CRC-32C of a byte string. -/
def crc32c (l : List Byte) : Nat := (l.foldl (fun c b => crcBits 8 (c ^^^ b.toNat)) 0xFFFFFFFF) ^^^ 0xFFFFFFFF

end Sys2Proof.Machine
end

