-- ==== Sys2Proof/Machine/Memory.lean ====
section
/-!
DEFINITION. Accesses to bed and yard: the engine's wide and narrow views with their error handling (R203–R207, R217–R219), and the accesses made for external requesters.
-/

namespace Sys2Proof.Machine

/-- Record the completion latency of a scheduled access without contention (R205, R228). -/
def State.noteWait (s : State) (c n : Nat) : State :=
  s.setC Reg.BED_MAX_WAIT c (max (s.cf Reg.BED_MAX_WAIT c) n)

/-- One wide read by an engine of core c: the data, or none after an uncorrectable word (R205, R218, R219). -/
def State.wideRead (s : State) (c off n : Nat) : State × Option (List Byte) :=
  let a := windowBase c + off
  let s := s.noteWait c 6
  match s.ueWords a n with
  | w :: r => (s.bedUes c (w :: r), none)
  | [] =>
    let s := if s.eccOf a n = 1 then
      ((s.bumpC Reg.BED_CORR_WIDE c 1).bumpD Reg.YARD_BED_CORR 1).holdFor c 2 .ecc else s
    (s, some (s.bytesAt a n))

/-- One narrow read of 8 bytes by the sequencer of core c. -/
def State.narrowRead (s : State) (c off : Nat) : State × Option (List Byte) :=
  let a := windowBase c + off
  let s := s.noteWait c 4
  match s.ueWords a 8 with
  | w :: r => (s.bedUes c (w :: r), none)
  | [] =>
    let s := if s.eccOf a 8 = 1 then
      ((s.bumpC Reg.BED_CORR_NARROW c 1).bumpD Reg.YARD_BED_CORR 1).holdFor c 1 .ecc else s
    (s, some (s.bytesAt a 8))

/-- A read in requests of at most `chunk` bytes, in address order, each one made by `rd`; one that delivers nothing ends it (R203). -/
def readBy (rd : State → Nat → Nat → State × Option (List Byte)) (chunk : Nat) : Nat → State → Nat → Nat → State × Option (List Byte)
  | 0, s, _, _ => (s, some [])
  | k + 1, s, off, n =>
    if n = 0 then (s, some []) else
    match rd s off (min n chunk) with
    | (s, none) => (s, none)
    | (s, some d) =>
      match readBy rd chunk k s (off + min n chunk) (n - min n chunk) with
      | (s, none) => (s, none)
      | (s, some d') => (s, some (d ++ d'))

/-- A wide read in requests of at most `chunk` bytes. -/
def State.readRun (s : State) (c chunk fuel off n : Nat) : State × Option (List Byte) :=
  readBy (fun s o m => s.wideRead c o m) chunk fuel s off n

/-- A wide read in requests of 512 bytes. -/
def State.wideReads (s : State) (c fuel off n : Nat) : State × Option (List Byte) := s.readRun c 512 fuel off n

/-- The words that a write of n bytes at a covers only in part (R205). -/
def partialWords (a n : Nat) : List Nat :=
  (wordsOf a n).filter fun w => decide (w < a) || decide (a + n < w + 8)

/-- A write by an engine of core c; a partial-word write that meets an uncorrectable word does not take effect (R205, R219). -/
def State.bedWrite (s : State) (c off : Nat) (bs : List Byte) : State :=
  let a := windowBase c + off
  let pw := partialWords a bs.length
  let s := s.noteWait c (if pw.isEmpty then 1 else 2)
  let s := if pw.isEmpty then s else s.bumpC Reg.BED_PARTIAL c 1
  match pw.find? fun w => decide (secded w (s.markAt w) = 2) with
  | some w => s.bedUe c w
  | none => s.store a bs

/-- Is the address in a bed, and of which core? -/
def bedOf (a : Nat) : Option (Nat × Nat) :=
  if 0x10000000000 ≤ a ∧ a < 0x10040000000 then
    let o := (a - 0x10000000000) % 0x100000
    if o < bedSize then some ((a - 0x10000000000) / 0x100000, o) else none
  else none

/-- A read for an external requester, a mover or the foreman: bed or yard, data or none after an uncorrectable word (R218, R219). -/
def State.extRead (s : State) (a n : Nat) : State × Option (List Byte) :=
  match s.ueWords a n with
  | w :: r =>
    match bedOf a with
    | some (c, _) => (s.bedUes c (w :: r), none)
    | none => ((w :: r).foldl State.yardUe s, none)
  | [] =>
    let s := if s.eccOf a n = 1 then
      (if (bedOf a).isSome then s.bumpD Reg.YARD_BED_CORR 1 else s.bumpD Reg.YARD_YARD_CORR 1) else s
    (s, some (s.bytesAt a n))

/-- A write for an external requester: a partial word that is uncorrectable keeps its contents, the other words are written; the
Boolean says that every word was written (R205, R219). -/
def State.extWrite (s : State) (a : Nat) (bs : List Byte) : State × Bool :=
  let bad := (partialWords a bs.length).filter fun w => decide (secded w (s.markAt w) = 2)
  let s := bad.foldl (fun s w => match bedOf a with | some (c, _) => s.bedUe c w | none => s.yardUe w) s
  let keep := (List.range bs.length).filter fun i => !bad.contains (8 * ((a + i) / 8))
  (keep.foldl (fun s i => s.store (a + i) [bs.getD i 0#8]) s, bad.isEmpty)

end Sys2Proof.Machine
end

