-- ==== Sys2Proof/Machine/Numbers.lean ====
section
/-!
DEFINITION. Number formats, exact values, rounding and the stochastic generator (R65–R84). Every value is an exact dyadic or rational number until the one rounding that the rules name.
-/

namespace Sys2Proof.Machine

/-- The formats of R65. -/
inductive Format where
  | int4 | int8 | int32 | e2m1 | e2m3 | e3m2 | e4m3 | e5m2 | bf16 | fp16 | fp32
  deriving DecidableEq, Repr

/-- Format codes (R65); reserved codes name no format. -/
def Format.ofCode : Nat → Option Format
  | 0 => some .int4 | 1 => some .int8 | 2 => some .int32 | 4 => some .e2m1 | 5 => some .e2m3 | 6 => some .e3m2
  | 7 => some .e4m3 | 8 => some .e5m2 | 9 => some .bf16 | 10 => some .fp16 | 11 => some .fp32 | _ => none

/-- The integer formats. -/
def Format.isInt : Format → Bool
  | .int4 | .int8 | .int32 => true
  | _ => false

/-- Storage width in bits (R65). -/
def Format.width : Format → Nat
  | .int4 | .e2m1 => 4 | .e2m3 | .e3m2 => 6 | .int8 | .e4m3 | .e5m2 => 8 | .bf16 | .fp16 => 16 | .int32 | .fp32 => 32

/-- Mantissa field width of a float format (R66). -/
def Format.mant : Format → Nat
  | .e2m1 => 1 | .e2m3 => 3 | .e3m2 => 2 | .e4m3 => 3 | .e5m2 => 2 | .bf16 => 7 | .fp16 => 10 | .fp32 => 23 | _ => 0

/-- Exponent bias of a float format (R66). -/
def Format.bias : Format → Nat
  | .e2m1 => 1 | .e2m3 => 1 | .e3m2 => 3 | .e4m3 => 7 | .e5m2 => 15 | .bf16 => 127 | .fp16 => 15 | .fp32 => 127 | _ => 0

/-- Encoding of the largest finite magnitude (R66). -/
def Format.maxBits : Format → Nat
  | .e2m1 => 0x7 | .e2m3 => 0x1F | .e3m2 => 0x1F | .e4m3 => 0x7E | .e5m2 => 0x7B | .bf16 => 0x7F7F | .fp16 => 0x7BFF
  | .fp32 => 0x7F7FFFFF | .int4 => 7 | .int8 => 127 | .int32 => 0x7FFFFFFF

/-- Encoding of +Inf, where the format has one (R67). -/
def Format.infBits : Format → Option Nat
  | .e5m2 => some 0x7C | .bf16 => some 0x7F80 | .fp16 => some 0x7C00 | .fp32 => some 0x7F800000 | _ => none

/-- The canonical NaN, where the format has one (R67, R68). -/
def Format.nanBits : Format → Option Nat
  | .e4m3 => some 0x7F | .e5m2 => some 0x7E | .bf16 => some 0x7FC0 | .fp16 => some 0x7E00 | .fp32 => some 0x7FC00000 | _ => none

/-- Significand width, hidden bit counted; the storage width for an integer (R66). -/
def Format.sigWidth (f : Format) : Nat := if f.isInt then f.width else f.mant + 1

/-- Top exponent of the largest finite value (R108, R139, R158). -/
def Format.topMax : Format → Int
  | .e2m1 => 3 | .e2m3 => 3 | .e3m2 => 5 | .e4m3 => 9 | .e5m2 => 16 | .bf16 => 128 | .fp16 => 16 | .fp32 => 128
  | .int4 => 3 | .int8 => 7 | .int32 => 31

/-- A decoded value: NaN (signalling or quiet), an infinity, or the finite number (−1)^neg · mag · 2^e. -/
inductive Val where
  | nan (signalling : Bool)
  | inf (neg : Bool)
  | num (neg : Bool) (mag : Nat) (e : Int)
  deriving DecidableEq, Repr

/-- The two's-complement value of `w` bits. -/
def signedOf (w bits : Nat) : Int :=
  let b := bits % 2 ^ w
  if 2 * b < 2 ^ w then (b : Int) else (b : Int) - (2 ^ w : Nat)

/-- The `w`-bit two's-complement encoding of an integer, wrapping. -/
def wrapTo (w : Nat) (x : Int) : Nat := (x % ((2 ^ w : Nat) : Int)).toNat

/-- The value of a stored element (R66, R67). -/
def Format.decode (f : Format) (bits : Nat) : Val :=
  if f.isInt then
    let x := signedOf f.width bits
    .num (decide (x < 0)) x.natAbs 0
  else
    let b := bits % 2 ^ f.width
    let neg := decide (2 ^ (f.width - 1) ≤ b)
    let a := b % 2 ^ (f.width - 1)
    if f.maxBits < a then
      if f.infBits = some a then .inf neg
      else .nan (decide (f ≠ .e4m3 ∧ a % 2 ^ f.mant < 2 ^ (f.mant - 1)))
    else
      let ex := a / 2 ^ f.mant
      let m := a % 2 ^ f.mant
      if ex = 0 then .num neg m (1 - (f.bias : Int) - f.mant)
      else .num neg (2 ^ f.mant + m) ((ex : Int) - f.bias - f.mant)

/-- The smallest t with num / den · 2^e < 2^t, for num > 0 (R108). -/
def topExp (num den : Nat) (e : Int) : Int :=
  let d : Int := (Nat.log2 num : Int) - Nat.log2 den
  -- 2^(d-1) < num/den < 2^(d+1)
  let below := if 0 ≤ d then decide (num < den <<< d.toNat) else decide (num <<< (-d).toNat < den)
  if below then d + e else d + e + 1

/-- The top exponent of a finite non-zero dyadic. -/
def topOf (mag : Nat) (e : Int) : Int := topExp mag 1 e

/-- Rounding modes of R77; code 3 is reserved. -/
inductive Rm where
  | rne | rtz | sr
  deriving DecidableEq, Repr

/-- The mode a two-bit RM field names. -/
def Rm.ofCode : Nat → Option Rm
  | 0 => some .rne | 1 => some .rtz | 2 => some .sr | _ => none

/-- num / den · 2^e over 2^u: the integer part and the remainder, with the divisor of the remainder. -/
def splitAt (num den : Nat) (e u : Int) : Nat × Nat × Nat :=
  let a := num <<< (e - u).toNat
  let b := den <<< (u - e).toNat
  (a / b, a % b, b)

/-- One rounding step: does the magnitude q·u + f go up (R77)? -/
def roundsUp (rm : Rm) (draw q r b : Nat) : Bool :=
  match rm with
  | .rne => decide (b < 2 * r) || (decide (2 * r = b) && decide (q % 2 = 1))
  | .rtz => false
  | .sr => decide (0 < r) && decide (2 ^ 32 ≤ r * 2 ^ 32 / b + draw)

/-- A rounded magnitude q · 2^u, with what the rounding found. -/
structure Rounded where
  q : Nat
  u : Int
  inexact : Bool
  tiny : Bool
  drew : Bool
  deriving DecidableEq, Repr

/-- Round the positive magnitude num / den · 2^e to `prec` significand bits with least spacing 2^umin (R77). -/
def roundMag (rm : Rm) (draw prec : Nat) (umin : Int) (num den : Nat) (e : Int) : Rounded :=
  if num = 0 then ⟨0, umin, false, false, false⟩ else
  let t := topExp num den e
  let free := t - (prec : Int)
  let u := max free umin
  let (q, r, b) := splitAt num den e u
  let q' := if roundsUp rm draw q r b then q + 1 else q
  -- tininess is judged after rounding with an unbounded exponent
  let (qf, rf, bf) := splitAt num den e free
  let qf' := if roundsUp rm draw qf rf bf then qf + 1 else qf
  let tiny := decide (topOf qf' free ≤ umin + (prec : Int) - 1)
  ⟨q', u, decide (0 < r), tiny && decide (0 < r), decide (rm = .sr) && decide (0 < r)⟩

/-- The least spacing of a float format: its smallest subnormal. -/
def Format.uMin (f : Format) : Int := 1 - (f.bias : Int) - f.mant

/-- Encode the magnitude q · 2^u of a float format, q < 2^(mant+1) or the power of two just above. -/
def Format.encodeMag (f : Format) (q : Nat) (u : Int) : Nat :=
  if q < 2 ^ f.mant then q
  else (u + f.mant + f.bias).toNat * 2 ^ f.mant + (q - 2 ^ f.mant)

/-- A rounding to a format: the encoding of the rounded magnitude and what was found (R77, R78). -/
structure Coded where
  bits : Nat
  ovf : Bool
  inexact : Bool
  tiny : Bool
  drew : Bool
  zero : Bool
  deriving DecidableEq, Repr

/-- Sign bit of a float encoding. -/
def Format.signBit (f : Format) (neg : Bool) : Nat := if neg then 2 ^ (f.width - 1) else 0

/-- Round the finite value ± num / den · 2^e to a float format; an overflow is reported and encoded as the largest finite value. A value takes a
draw when it is not representable, beyond the format's range too (R89). -/
def Format.round (f : Format) (rm : Rm) (draw : Nat) (neg : Bool) (num den : Nat) (e : Int) : Coded :=
  let r := roundMag rm draw (f.mant + 1) f.uMin num den e
  let m := f.encodeMag r.q r.u
  let ovf := decide (f.maxBits < m)
  ⟨f.signBit neg + (if ovf then f.maxBits else m), ovf, r.inexact || ovf, r.tiny, r.drew || (decide (rm = .sr) && ovf), decide (r.q = 0)⟩

/-- Round to an integer and apply saturate-or-wrap (R82). `ovf` says that the value was clamped or wrapped, `zero` that the result is zero. -/
def Format.roundInt (f : Format) (rm : Rm) (draw : Nat) (sw : Bool) (neg : Bool) (num den : Nat) (e : Int) : Coded :=
  let (q, r, b) := splitAt num den e 0
  let q' := if roundsUp rm draw q r b then q + 1 else q
  let x : Int := if neg then -(q' : Int) else q'
  let hi : Int := (2 ^ (f.width - 1) : Nat) - 1
  let lo : Int := -((2 ^ (f.width - 1) : Nat) : Int)
  let out := decide (hi < x) || decide (x < lo)
  let y := if out && !sw then (if hi < x then hi else lo) else x
  ⟨wrapTo f.width y, out, decide (0 < r), false, decide (rm = .sr) && (decide (0 < r) || out), decide (wrapTo f.width y = 0)⟩

/-- ±Inf into an integer format saturates whatever SW says (R82). -/
def Format.intInf (f : Format) (neg : Bool) : Nat := if neg then 2 ^ (f.width - 1) else 2 ^ (f.width - 1) - 1

/-- The mixing function of R80. -/
def mix (z : BitVec 64) : BitVec 64 :=
  let z := (z ^^^ (z >>> 30)) * 0xBF58476D1CE4E5B9#64
  let z := (z ^^^ (z >>> 27)) * 0x94D049BB133111EB#64
  z ^^^ (z >>> 31)

/-- The key of one rounding instruction: everything of R80 but the element index. -/
structure DrawKey where
  seed : Nat
  course : Nat
  ccycle : Nat
  tag : Nat
  src : Nat
  deriving DecidableEq, Repr

/-- The 32-bit draw of element `idx` (R80). -/
def DrawKey.draw (k : DrawKey) (idx : Nat) : Nat :=
  let a : BitVec 64 := (BitVec.ofNat 64 (k.course % 2 ^ 40) <<< 24) ||| BitVec.ofNat 64 (k.ccycle % 2 ^ 24)
  let b : BitVec 64 := (BitVec.ofNat 64 (k.tag % 1024) <<< 20) ||| (BitVec.ofNat 64 (k.src % 16) <<< 16) ||| BitVec.ofNat 64 (idx % 65536)
  (mix (mix (a ^^^ BitVec.ofNat 64 k.seed) ^^^ b)).toNat / 2 ^ 32

/-- IEEE flags of strict mode (R163). -/
structure FpFlags where
  iv : Bool := false
  dz : Bool := false
  ovf : Bool := false
  unf : Bool := false
  nx : Bool := false
  deriving DecidableEq, Repr

def FpFlags.join (a b : FpFlags) : FpFlags :=
  ⟨a.iv || b.iv, a.dz || b.dz, a.ovf || b.ovf, a.unf || b.unf, a.nx || b.nx⟩

/-- An FP32 result with the flags it raises and whether it took a draw. -/
structure FpRes where
  bits : Nat
  fl : FpFlags := {}
  drew : Bool := false
  deriving DecidableEq, Repr

/-- The canonical FP32 NaN (R68). -/
def nan32 : Nat := 0x7FC00000

/-- Signed FP32 infinity and zero. -/
def inf32 (neg : Bool) : Nat := if neg then 0xFF800000 else 0x7F800000
def zero32 (neg : Bool) : Nat := if neg then 0x80000000 else 0

/-- Is the value a signalling NaN (R163)? -/
def Val.isSnan : Val → Bool
  | .nan s => s
  | _ => false

def Val.isNan : Val → Bool
  | .nan _ => true
  | _ => false

/-- An FP32 rounding of a finite non-zero exact value; overflow as IEEE 754 has it per mode (R151). -/
def fpRound (rm : Rm) (draw : Nat) (neg : Bool) (num den : Nat) (e : Int) : FpRes :=
  let r := Format.fp32.round rm draw neg num den e
  let bits := if r.ovf && decide (rm ≠ .rtz) then inf32 neg else r.bits
  ⟨bits, { ovf := r.ovf, unf := r.tiny && r.inexact, nx := r.inexact }, r.drew⟩

/-- The exact sum of two dyadics as an integer and an exponent. -/
def dyAdd (n1 : Bool) (m1 : Nat) (e1 : Int) (n2 : Bool) (m2 : Nat) (e2 : Int) : Int × Int :=
  let e := min e1 e2
  let a : Int := ((m1 <<< (e1 - e).toNat : Nat) : Int)
  let b : Int := ((m2 <<< (e2 - e).toNat : Nat) : Int)
  ((if n1 then -a else a) + (if n2 then -b else b), e)

/-- Round an exact dyadic sum, with the zero-sign rule of R151: −0 only where both terms are −0. -/
def fpRoundSum (rm : Rm) (draw : Nat) (negBoth : Bool) (x : Int) (e : Int) : FpRes :=
  if x = 0 then ⟨zero32 negBoth, {}, false⟩ else fpRound rm draw (decide (x < 0)) x.natAbs 1 e

/-- FP32 addition of decoded values (R75, R151). -/
def fpAddV (rm : Rm) (draw : Nat) (a b : Val) : FpRes :=
  match a, b with
  | .nan s, .nan s' => ⟨nan32, { iv := s || s' }, false⟩
  | .nan s, _ => ⟨nan32, { iv := s }, false⟩
  | _, .nan s => ⟨nan32, { iv := s }, false⟩
  | .inf n, .inf n' => if n = n' then ⟨inf32 n, {}, false⟩ else ⟨nan32, { iv := true }, false⟩
  | .inf n, _ => ⟨inf32 n, {}, false⟩
  | _, .inf n => ⟨inf32 n, {}, false⟩
  | .num n m e, .num n' m' e' =>
    let (x, ex) := dyAdd n m e n' m' e'
    fpRoundSum rm draw (n && n' && decide (m = 0) && decide (m' = 0)) x ex

/-- Negate a value. -/
def Val.neg : Val → Val
  | .nan s => .nan s
  | .inf n => .inf (!n)
  | .num n m e => .num (!n) m e

def fp32 (bits : Nat) : Val := Format.fp32.decode bits

def fpAdd (rm : Rm) (draw a b : Nat) : FpRes := fpAddV rm draw (fp32 a) (fp32 b)

def fpSub (rm : Rm) (draw a b : Nat) : FpRes := fpAddV rm draw (fp32 a) (fp32 b).neg

/-- The exact product of two values: NaN, Inf or an exact dyadic; `true` marks an invalid 0 × Inf. -/
def mulV (a b : Val) : Val × Bool :=
  match a, b with
  | .nan s, .nan s' => (.nan (s || s'), false)
  | .nan s, _ => (.nan s, false)
  | _, .nan s => (.nan s, false)
  | .inf n, .inf n' => (.inf (n != n'), false)
  | .inf n, .num n' m _ => if m = 0 then (.nan false, true) else (.inf (n != n'), false)
  | .num n m _, .inf n' => if m = 0 then (.nan false, true) else (.inf (n != n'), false)
  | .num n m e, .num n' m' e' => (.num (n != n') (m * m') (e + e'), false)

/-- FP32 multiplication (R151). -/
def fpMul (rm : Rm) (draw a b : Nat) : FpRes :=
  match mulV (fp32 a) (fp32 b) with
  | (.nan s, bad) => ⟨nan32, { iv := s || bad }, false⟩
  | (.inf n, _) => ⟨inf32 n, {}, false⟩
  | (.num n m e, _) => if m = 0 then ⟨zero32 n, {}, false⟩ else fpRound rm draw n m 1 e

/-- FMA and FMS: a × b ± c with one rounding (R151). -/
def fpFma (rm : Rm) (draw : Nat) (negC : Bool) (a b c : Nat) : FpRes :=
  let cv := if negC then (fp32 c).neg else fp32 c
  let (p, bad) := mulV (fp32 a) (fp32 b)
  let r := fpAddV rm draw p cv
  { r with fl := { r.fl with iv := r.fl.iv || bad } }

/-- The order of two non-NaN values: −1, 0, 1; +0 and −0 are equal. -/
def cmpV (a b : Val) : Int :=
  match a, b with
  | .inf n, .inf n' => if n = n' then 0 else if n then -1 else 1
  | .inf n, _ => if n then -1 else 1
  | _, .inf n => if n then 1 else -1
  | .num n m e, .num n' m' e' => let (x, _) := dyAdd n m e (!n') m' e'; if x < 0 then -1 else if 0 < x then 1 else 0
  | _, _ => 0

def Val.isNeg : Val → Bool
  | .inf n => n
  | .num n _ _ => n
  | _ => false

/-- Maximum and minimum under R75: NaN wins, max(+0, −0) = +0, min(+0, −0) = −0. -/
def fpMax (isMin : Bool) (a b : Nat) : FpRes :=
  let va := fp32 a; let vb := fp32 b
  let iv := va.isSnan || vb.isSnan
  if va.isNan || vb.isNan then ⟨nan32, { iv := iv }, false⟩
  else
    let c := cmpV va vb
    let pickA := if c = 0 then (if isMin then va.isNeg else !va.isNeg) else (if isMin then decide (c < 0) else decide (0 < c))
    ⟨if pickA then a else b, {}, false⟩

/-- Compare codes: 0 EQ, 1 NE, 2 LT, 3 LE, 4 GT, 5 GE. -/
def ccHolds (cc : Nat) (c : Int) : Bool :=
  match cc with
  | 0 => decide (c = 0) | 1 => decide (c ≠ 0) | 2 => decide (c < 0) | 3 => decide (c ≤ 0) | 4 => decide (0 < c) | _ => decide (0 ≤ c)

/-- FCMP: NaN compares unordered (R75). -/
def fpCmp (cc a b : Nat) : FpRes :=
  let va := fp32 a; let vb := fp32 b
  let t := if va.isNan || vb.isNan then decide (cc = 1) else ccHolds cc (cmpV va vb)
  ⟨if t then 0xFFFFFFFF else 0, { iv := va.isSnan || vb.isSnan }, false⟩

/-- FP32 division by a positive count, correctly rounded (R157). -/
def fpDivN (rm : Rm) (a n : Nat) : FpRes :=
  match fp32 a with
  | .nan s => ⟨nan32, { iv := s }, false⟩
  | .inf g => ⟨inf32 g, {}, false⟩
  | .num g m e => if m = 0 then ⟨zero32 g, {}, false⟩ else fpRound rm 0 g m n e

/-- A conversion result with the counters of R154 and the strict flags of R163. -/
structure CvtRes where
  bits : Nat
  nan : Bool := false
  sat : Bool := false
  vanish : Bool := false
  fl : FpFlags := {}
  drew : Bool := false
  deriving DecidableEq, Repr

/-- Convert a value to a format under RM, OVF and SW (R82–R84). -/
def cvt (dst : Format) (rm : Rm) (draw : Nat) (ovf sw : Bool) (v : Val) : CvtRes :=
  if dst.isInt then
    match v with
    | .nan s => { bits := 0, nan := true, fl := { iv := true || s } }
    | .inf n => { bits := dst.intInf n, sat := true, fl := { iv := true } }
    | .num n m e =>
      let r := dst.roundInt rm draw sw n m 1 e
      { bits := r.bits, sat := r.ovf && !sw, vanish := decide (m ≠ 0) && r.zero,
        fl := { iv := r.ovf, nx := r.inexact }, drew := r.drew }
  else
    match v with
    | .nan s =>
      match dst.nanBits with
      | some b => { bits := b, nan := true, fl := { iv := s } }
      | none => { bits := 0, nan := true, fl := { iv := s } }
    | .inf n =>
      match dst.infBits with
      | some b => { bits := dst.signBit n + b }
      | none =>
        match dst.nanBits with
        | some b => if ovf then { bits := b, nan := true } else { bits := dst.signBit n + dst.maxBits, sat := true }
        | none => { bits := dst.signBit n + dst.maxBits, sat := true }
    | .num n m e =>
      if m = 0 then { bits := dst.signBit n } else
      let r := dst.round rm draw n m 1 e
      let fl : FpFlags := { ovf := r.ovf, unf := r.tiny && r.inexact, nx := r.inexact }
      if r.ovf then
        match (if ovf then (match dst.infBits with | some b => some (b, false) | none => dst.nanBits.map (·, true)) else none) with
        | some (b, isNan) => { bits := if isNan then b else dst.signBit n + b, nan := isNan, fl := fl, drew := r.drew }
        | none => { bits := r.bits, sat := true, fl := fl, drew := r.drew }
      else { bits := r.bits, vanish := r.zero, fl := fl, drew := r.drew }

/-- Integer square root by bits, structurally on the number of bits: the largest r with r² ≤ n. -/
def isqrtAux (n : Nat) : Nat → Nat → Nat
  | 0, r => r
  | k + 1, r => let r' := r + 2 ^ k; isqrtAux n k (if r' * r' ≤ n then r' else r)

def isqrt (n : Nat) : Nat := isqrtAux n (Nat.log2 n / 2 + 1) 0

/-- Round √(m · 2^e) once: the root is taken to 64 extra bits and a sticky half unit stands for the rest. -/
def sqrtParts (m : Nat) (e : Int) : Nat × Int :=
  let m' := if e % 2 = 0 then m else m * 2
  let e' := if e % 2 = 0 then e else e - 1
  let n := m' <<< 128
  let r := isqrt n
  (2 * r + (if r * r = n then 0 else 1), e' / 2 - 65)

/-- The balanced pairwise tree of R127, on a fuel of the list's length. -/
def pairUp {α : Type} (f : α → α → α) : List α → List α
  | a :: b :: r => f a b :: pairUp f r
  | r => r

def treeFold {α : Type} (f : α → α → α) : Nat → List α → List α
  | 0, l => l
  | _ + 1, [x] => [x]
  | k + 1, l => treeFold f k (pairUp f l)

/-- The tree over a list; an empty list gives the given value. -/
def tree {α : Type} (f : α → α → α) (d : α) (l : List α) : α := (treeFold f (Nat.log2 l.length + 1) l).headD d

end Sys2Proof.Machine
end

