-- ==== Sys2Proof/Machine/Net.lean ====
section
/-!
DEFINITION. Packets: header fields, formation and answers (R270–R274), the sending of packets into the mesh under credits (R48, R274), and the memory accesses that wait for bank grants (R204, R210).
-/

namespace Sys2Proof.Machine

/-! Header fields (R270). -/

def pDpkg (p : Packet) : Nat := fld p.w0.toNat 15 0
def pDdie (p : Packet) : Nat := fld p.w0.toNat 19 16
def pDnode (p : Packet) : Nat := fld p.w0.toNat 29 20
def pVl (p : Packet) : Nat := fld p.w0.toNat 31 30
def pType (p : Packet) : Nat := fld p.w0.toNat 35 32
def pSub (p : Packet) : Nat := fld p.w0.toNat 43 36
def pLen (p : Packet) : Nat := fld p.w0.toNat 53 44
def pCreq (p : Packet) : Bool := bit p.w0.toNat 54
def pWin (p : Packet) : Bool := bit p.w0.toNat 55
def pDkind (p : Packet) : Nat := fld p.w0.toNat 57 56
def pClass (p : Packet) : Nat := fld p.w0.toNat 58 58
def pSpkg (p : Packet) : Nat := fld p.w1.toNat 15 0
def pSdie (p : Packet) : Nat := fld p.w1.toNat 19 16
def pScore (p : Packet) : Nat := fld p.w1.toNat 29 20
def pSkind (p : Packet) : Nat := fld p.w1.toNat 31 30
def pEpoch (p : Packet) : Nat := fld p.w1.toNat 47 32
def pTag (p : Packet) : Nat := fld p.w1.toNat 55 48
def pAddr (p : Packet) : Nat := p.w2.toNat
def pTime (p : Packet) : Nat := p.w3.toNat

/-- Window and offset of a packet with WIN = 1. -/
def pWindow (p : Packet) : Nat := fld (pAddr p) 24 20
def pOffset (p : Packet) : Nat := fld (pAddr p) 19 0

/-- Source package, die and core as one word, laid out as in word 1 of the header (R375). -/
def pSource (p : Packet) : Nat := fld p.w1.toNat 29 0

/-- The TYPE of the command that carries a packet; a reserved code stays. -/
def asType (t : Nat) (p : Packet) : Packet :=
  if 8 ≤ pType p then p
  else { p with w0 := BitVec.ofNat 64 (p.w0.toNat - pType p * 2 ^ 32 + t * 2 ^ 32) }

/-- The subtype of the command that carries a MSG, TIME or ENUM packet; a reserved code, one past `top`, stays. -/
def asSub (top sub : Nat) (p : Packet) : Packet :=
  if top < pSub p then p
  else { p with w0 := BitVec.ofNat 64 (p.w0.toNat - pSub p * 2 ^ 36 + sub * 2 ^ 36) }

/-- Where a packet goes. -/
structure Dest where
  pkg : Nat
  die : Nat
  node : Nat
  kind : Nat
  deriving DecidableEq, Repr

/-- What a packet says. -/
structure Body where
  vl : Nat
  type : Nat
  sub : Nat := 0
  len : Nat := 0
  creq : Bool := false
  win : Bool := false
  tag : Nat := 0
  addr : Nat := 0
  payload : List Byte := []
  deriving DecidableEq, Repr

/-- A packet formed on this die by SKIND and SCORE: its own identity, the current epoch and the timestamp (R40, R270, R292). -/
def State.packet (s : State) (d : Dest) (skind score : Nat) (b : Body) : Packet :=
  { w0 := BitVec.ofNat 64 (d.pkg % 2 ^ 16 + d.die % 16 * 2 ^ 16 + d.node % 1024 * 2 ^ 20 + b.vl % 4 * 2 ^ 30 + b.type % 16 * 2 ^ 32 +
      b.sub % 256 * 2 ^ 36 + b.len % 1024 * 2 ^ 44 + b2n b.creq * 2 ^ 54 + b2n b.win * 2 ^ 55 + d.kind % 4 * 2 ^ 56)
    w1 := BitVec.ofNat 64 (s.df Reg.PLACE_PACKAGE_ID % 2 ^ 16 + s.df Reg.PLACE_DIE_ID % 16 * 2 ^ 16 + score % 1024 * 2 ^ 20 + skind % 4 * 2 ^ 30 +
      s.df Reg.RING_CURRENT % 2 ^ 16 * 2 ^ 32 + b.tag % 256 * 2 ^ 48)
    w2 := BitVec.ofNat 64 b.addr
    w3 := BitVec.ofNat 64 s.now
    payload := b.payload }

/-- A packet joins those that wait on this die. -/
def State.form (s : State) (p : Packet) : State := { s with net := { s.net with mesh := s.net.mesh ++ [p] } }

/-- Flits of a packet: its header, and its payload in 32-byte flits (R274). -/
def flits (p : Packet) : Nat := 1 + (p.payload.length + 31) / 32

def State.port (s : State) (n : Nat) : Port := Sparse.get Port.init s.ports n

def State.setPort (s : State) (n : Nat) (x : Port) : State := { s with ports := Sparse.put Port.init s.ports n x }

/-- The port is ACTIVE (R264, R296). -/
def State.portActive (s : State) (n : Nat) : Bool := decide (s.rd Reg.LINK_STATE n 0 = 5)

/-- The frame that carries a packet out of a port: it acknowledges the frame before the expected one, asks for a replay while frames are
discarded, and returns the credits owed (R262, R263). A freed count above 255 goes on with a later frame. -/
def Port.frameOf (x : Port) (n fseq : Nat) (p : Packet) : SentFrame :=
  ⟨n, fseq, (x.expect + 4095) % 4096, x.dropping, (List.range 8).map fun i => min 255 (Sparse.get 0 x.owed i), p⟩

/-- The credits that the sent control flit returned are no longer owed. -/
def Port.settle (x : Port) : Port := { x with owed := (List.range 8).foldl (fun m i => Sparse.put 0 m i (Sparse.get 0 m i - 255)) x.owed }

/-- A packet leaves by a bond port: its frame takes the next FSEQ and is kept among the last 128 until it is acknowledged (R262, R263). -/
def State.sendPort (s : State) (n : Nat) (p : Packet) : State :=
  let x := s.port n
  let kept := x.kept ++ [(x.fseq, p)]
  let s := s.setPort n { x.settle with fseq := (x.fseq + 1) % 4096, kept := kept.drop (kept.length - 128) }
  State.bump { s with net := { s.net with sent := s.net.sent ++ [x.frameOf n x.fseq p] } } Reg.LINK_TX_FLITS n 0 (flits p)

/-- The receive buffer of an ACTIVE port is freed of a packet, and its flits are owed to the peer (R274). -/
def State.oweFlits (s : State) (port : Nat) (p : Packet) : State :=
  let x := s.port port
  let i := 2 * pVl p + pClass p
  if s.portActive port then s.setPort port { x with owed := Sparse.put 0 x.owed i (Sparse.get 0 x.owed i + flits p) } else s

/-- A command takes a packet up that arrived on a port, or over the mesh. -/
def State.take (s : State) (port : Nat) (p : Packet) : State :=
  if port < 8 then
    let t : State := { s with net := { s.net with arrived := s.net.arrived.erase (port, p) } }
    if s.net.arrived.contains (port, p) then t.oweFlits port p else t
  else { s with net := { s.net with mesh := s.net.mesh.erase p } }

/-! Order (R275, R280). -/

/-- The flow key of a packet, as the two words that its hash mixes (R276). -/
def flowKey (p : Packet) : Nat × Nat :=
  let isAnswer := decide (pType p = 5) && decide (pSub p ≤ 1) && bit (pAddr p) 13
  let w := if pWin p then pWindow p + 1 else if isAnswer then fld (pAddr p) 12 8 + 1 else 0
  (pSpkg p * 2 ^ 32 + pSdie p * 2 ^ 28 + pSkind p * 2 ^ 26 + pScore p * 2 ^ 16 + w,
   pDpkg p * 2 ^ 32 + pDdie p * 2 ^ 28 + pDkind p * 2 ^ 26 + pDnode p * 2 ^ 16)

/-- Two packets have one flow key and one lane. -/
def sameFlow (p q : Packet) : Bool := decide (flowKey p = flowKey q) && decide (pVl p = pVl q)

/-- The packets that arrived before `p` on its port, or were formed before it for the mesh; none when `p` is not listed. -/
def State.ahead (s : State) (port : Nat) (p : Packet) : List Packet :=
  let l := if port < 8 then (s.net.arrived.filter fun x => decide (x.1 = port)).map Prod.snd else s.net.mesh
  if l.contains p then l.takeWhile (· ≠ p) else []

/-- Is it the packet's turn: no packet of its flow and lane is ahead of it (R280)? -/
def State.inTurn (s : State) (port : Nat) (p : Packet) : Bool := !(s.ahead port p).any fun q => sameFlow q p

/-! Credits of a port (R274). -/

/-- Receive buffer of a port per lane, in flits per class. -/
def portCapacity (vl : Nat) : Nat := if vl ≤ 1 then 96 else 32

def portKey (port vl cls : Nat) : Nat := 8 * port + 2 * vl + cls

/-- Credits of the port cover the packet and no earlier packet of the lane waits. -/
def State.portFree (s : State) (port : Nat) (p : Packet) : Bool :=
  decide (Sparse.get 0 s.net.portUsed (portKey port (pVl p) (pClass p)) + flits p ≤ portCapacity (pVl p))

/-- Send a packet whose credits are there. -/
def State.sendCredited (s : State) (port : Nat) (p : Packet) : State :=
  let k := portKey port (pVl p) (pClass p)
  let s : State := { s with net := { s.net with portUsed := Sparse.put 0 s.net.portUsed k (Sparse.get 0 s.net.portUsed k + flits p) } }
  s.sendPort port p

/-- A packet leaves by a port under credits, or waits for them in order. -/
def State.postPort (s : State) (port : Nat) (p : Packet) : State :=
  let queued := s.net.waiting.any fun x => decide (x.1 = port) && decide (pVl x.2 = pVl p)
  if s.portFree port p && !queued then s.sendCredited port p
  else { s with net := { s.net with waiting := s.net.waiting ++ [(port, p)] } }

/-- The packets that wait for a port go in order while credits last: the first waiting one of each lane goes ahead. -/
def State.drainPort (s : State) (port : Nat) : Nat → State
  | 0 => s
  | n + 1 =>
    match s.net.waiting.find? fun x => decide (x.1 = port) && s.portFree port x.2 &&
        (s.net.waiting.find? fun y => decide (y.1 = port) && decide (pVl y.2 = pVl x.2)) = some x with
    | none => s
    | some x =>
      let s : State := { s with net := { s.net with waiting := s.net.waiting.erase x } }
      (s.sendCredited port x.2).drainPort port n

/-- Credits of a port come back. -/
def State.creditPort (s : State) (port vl cls n : Nat) : State :=
  let k := portKey port vl cls
  let s : State := { s with net := { s.net with portUsed := Sparse.put 0 s.net.portUsed k (Sparse.get 0 s.net.portUsed k - n) } }
  s.drainPort port s.net.waiting.length

/-! Credits of a core's router (R274). -/

def State.meshFree (s : State) (c vl : Nat) : Nat := 8 - Sparse.get 0 s.net.meshUsed (4 * c + vl)

def State.useMesh (s : State) (c vl n : Nat) : State :=
  let v := min 8 (Sparse.get 0 s.net.meshUsed (4 * c + vl) + n)
  { s with net := { s.net with meshUsed := Sparse.put 0 s.net.meshUsed (4 * c + vl) v } }

/-- An engine of core c issues a packet: with a credit of its lane the mesh interface accepts it, otherwise the core holds as Credit (R48). -/
def State.issuePacket (s : State) (c : Nat) (p : Packet) : State :=
  if (s.core c).outQ = [] ∧ 0 < s.meshFree c (pVl p) then (s.useMesh c (pVl p) 1).form p
  else
    let s := s.mapCore c fun k => { k with outQ := k.outQ ++ [p] }
    if s.run c = 1 then s.holdCore c .credit else s

/-- Packets of core c that wait for a mesh credit go in order while credits last. -/
def State.drainCore (s : State) (c : Nat) : Nat → State
  | 0 => s
  | n + 1 =>
    match (s.core c).outQ with
    | [] => s
    | p :: r =>
      if 0 < s.meshFree c (pVl p) then
        (((s.mapCore c fun k => { k with outQ := r }).useMesh c (pVl p) 1).form p).drainCore c n
      else s

/-- Credits of a lane of core c's router come back. -/
def State.creditMesh (s : State) (c vl n : Nat) : State :=
  let k := 4 * c + vl
  let s : State := { s with net := { s.net with meshUsed := Sparse.put 0 s.net.meshUsed k (Sparse.get 0 s.net.meshUsed k - n) } }
  s.drainCore c (s.core c).outQ.length

/-! Answers (R272). -/

/-- The destination of an answer to a packet. -/
def answerTo (p : Packet) : Dest :=
  match pSkind p with
  | 0 => ⟨pSpkg p, pSdie p, pScore p, 0⟩
  | 1 => ⟨pSpkg p, pSdie p, pScore p, 1⟩
  | _ => ⟨pSpkg p, pSdie p, 0, 2⟩

/-- Source of an answer: the core that owns the target, else the foreman. -/
def answerFrom (p : Packet) : Nat × Nat := if pDkind p = 0 then (0, pDnode p) else (2, 0)

/-- The lane of an answer (R271). -/
def answerVl (p : Packet) : Nat := if pVl p = 3 then 3 else 1

/-- COMPLETE or NACK in answer to a packet, with the status and, for a window packet, its window. -/
def State.answerMsg (s : State) (p : Packet) (sub status : Nat) : State :=
  let (k, n) := answerFrom p
  s.form (s.packet (answerTo p) k n
    { vl := answerVl p, type := 5, sub := sub, tag := pTag p,
      addr := status + if pWin p then pWindow p * 256 + 2 ^ 13 else 0 })

def State.complete (s : State) (p : Packet) : State := s.answerMsg p 0 0
def State.nack (s : State) (p : Packet) (status : Nat) : State := s.answerMsg p 1 status

/-- READ_RSP in answer to a READ_REQ: the data, or a status and none. -/
def State.readRsp (s : State) (p : Packet) (status : Nat) (data : List Byte) : State :=
  let (k, n) := answerFrom p
  s.form (s.packet (answerTo p) k n
    { vl := answerVl p, type := 3, sub := status, len := if status = 0 then pLen p else 0, tag := pTag p,
      addr := pAddr p, payload := data })

/-- A packet addressed to this die is discarded with a status: answers and stale or malformed packets draw no answer (R272). -/
def State.discard (s : State) (p : Packet) (status : Nat) : State :=
  match pType p with
  | 0 | 1 | 4 => s.nack p status
  | 2 => s.readRsp p status []
  | _ => s

/-! Memory accesses that wait for grants. -/

/-- Cut bytes a to a + n − 1 at the boundaries of `unit`-byte lines; `fuel` bounds the number of pieces. -/
def cutPieces (unit : Nat) : Nat → Nat → Nat → List Piece
  | 0, _, _ => []
  | k + 1, a, n =>
    if n = 0 then [] else
    let m := min n (unit - a % unit)
    ⟨a, m, false, []⟩ :: cutPieces unit k (a + m) (n - m)

/-- The pieces of an access: 512-byte bed lines (R203) or 128-byte yard pieces (R210). -/
def piecesOf (a n : Nat) : List Piece := if (bedOf a).isSome then cutPieces 512 (n / 512 + 2) a n else cutPieces 128 (n / 128 + 2) a n

/-- Queue an access that came by input port `input` of its router, numbered as in R275, and in lane `vl`. -/
def State.requestBy (s : State) (o : Owner) (a n : Nat) (data : Option (List Byte)) (input vl : Nat) : State :=
  { s with net := { s.net with
    serial := s.net.serial + 1
    accesses := s.net.accesses ++ [⟨o, s.net.serial, s.lin, input, vl, a, data, piecesOf a n, false⟩] } }

/-- Queue an access of an engine of a core. -/
def State.request (s : State) (o : Owner) (a n : Nat) (data : Option (List Byte)) : State := s.requestBy o a n data 0 0

/-! Where a packet enters a router (R275, R276). -/

/-- Router of a core, and the router of a yard slice. -/
def coreRouter (c : Nat) : Nat × Nat := (c % 32, c / 32 % 32)
def sliceRouter (u : Nat) : Nat × Nat := (4 * (u % 8) + 1, 4 * (u / 8) + 1)

/-- Router at which port p attaches for attachment index i. -/
def portRouter (p i : Nat) : Nat × Nat :=
  match p with
  | 0 => (31, 8 + i) | 1 => (0, 8 + i) | 2 => (31, 16 + i) | 3 => (0, 16 + i)
  | 4 => (8 + i, 0) | 5 => (16 + i, 0) | 6 => (8 + i, 31) | _ => (16 + i, 31)

/-- The flow hash h of a packet (R276). -/
def flowHash (p : Packet) : BitVec 64 := mix (mix (BitVec.ofNat 64 (flowKey p).1) ^^^ BitVec.ofNat 64 (flowKey p).2)

/-- Router at which a packet that came on `port`, 8 for the die's own mesh, starts on the mesh of this die, and the input port by which it
enters there. -/
def startRouter (port : Nat) (p : Packet) : (Nat × Nat) × Nat :=
  if port < 8 then (portRouter port ((flowHash p).toNat % 8), 6)
  else match pSkind p with
    | 0 => (coreRouter (pScore p), 0)
    | 1 => (sliceRouter (pScore p), 1)
    | _ => ((16, 16), 6)

/-- Input port by which a packet enters the router at `d`, along x and then along y: north is the side of the lower y and west that of the lower
x (DESIGN CHOICE, notes/assumptions/55.md). -/
def inputPort (port : Nat) (p : Packet) (d : Nat × Nat) : Nat :=
  let (a, own) := startRouter port p
  if a = d then own
  else if a.2 ≠ d.2 then (if a.2 < d.2 then 4 else 5)
  else if a.1 < d.1 then 2 else 3

/-- Queue the access of a packet that came on `port`. -/
def State.requestFor (s : State) (port : Nat) (p : Packet) (o : Owner) (a n : Nat) (data : Option (List Byte)) : State :=
  let d := match bedOf a with | some (c, _) => coreRouter c | none => sliceRouter (a / 2 ^ 21)
  s.requestBy o a n data (inputPort port p d) (pVl p)

/-- The core whose engine made the access, for the holds of R218. -/
def Owner.engine : Owner → Option Nat
  | .moveRead c _ _ | .moveWrite c _ | .fetch c _ => some c
  | _ => none

/-- Carry one piece out: the state, and the piece done with its data or its failure. -/
def State.doPiece (s : State) (x : Access) (q : Piece) : State × Piece × Bool :=
  match x.data with
  | some d =>
    let (s, ok) := s.extWrite q.addr ((d.drop (q.addr - x.base)).take q.len)
    (s, { q with done := true }, ok)
  | none =>
    let (s, r) := match x.owner.engine, bedOf q.addr with
      | some c, some (_, o) => s.wideRead c o q.len
      | _, _ => s.extRead q.addr q.len
    (s, { q with done := true, got := r.getD [] }, r.isSome)

/-- The data of a finished read. -/
def Access.bytes (x : Access) : List Byte := x.pieces.flatMap fun q => q.got

/-- The request of an access that may be granted next where `here` picks addresses out: bed requests in any order, yard pieces in address
order (R203, R210). -/
def Access.next (x : Access) (here : Nat → Bool) : Option Piece :=
  if (bedOf x.base).isSome then x.pieces.find? fun q => !q.done && here q.addr
  else (x.pieces.find? fun q => !q.done).filter fun q => here q.addr

/-- An access with a waiting request that `here` picks out. -/
def Access.waits (x : Access) (here : Nat → Bool) : Bool := (x.next here).isSome

/-- Rank among requests of one arrival cycle: at a bank the sequencer's demand fetches go before the local mover's accesses (R204), at a
sub-bank the lower input port and then the lower lane (R210). -/
def Access.rank (x : Access) : Nat :=
  match x.owner with
  | .fetch _ _ => 0
  | .moveRead _ _ _ | .moveWrite _ _ => 1
  | _ => 4 * x.input + x.vl

/-- The first of a list of accesses in order of arrival: the earliest cycle, then the lowest rank, then the order of the list. -/
def oldest : List Access → Option Access
  | [] => none
  | x :: r =>
    match oldest r with
    | none => some x
    | some y => if y.since < x.since ∨ (y.since = x.since ∧ y.rank < x.rank) then some y else some x

/-- Grant the oldest waiting request that `here` picks out among the accesses that `who` admits: the state after the access and, when it
was the access's last piece, the finished access, which leaves the queue. -/
def State.grantOne (s : State) (who : Access → Bool) (here : Nat → Bool) : State × Option Access :=
  match oldest (s.net.accesses.filter fun x => who x && x.waits here) with
  | none => (s, none)
  | some x =>
    match x.next here with
    | none => (s, none)
    | some q =>
      let (t, q', ok) := s.doPiece x q
      let x' := { x with pieces := x.pieces.replace q q', bad := x.bad || !ok }
      if x'.pieces.all fun q => q.done then
        ({ t with net := { t.net with accesses := t.net.accesses.erase x } }, some x')
      else ({ t with net := { t.net with accesses := t.net.accesses.replace x x' } }, none)

end Sys2Proof.Machine
end

