-- ==== Sys2Proof/Machine/Ledger.lean ====
section
/-!
DEFINITION. The IBIs of the sideband and the rail requests (R437, R444), and the ledger: acceptance of events, records, suppression, acknowledgement, and the operating hours (R366–R387).
-/

namespace Sys2Proof.Machine

/-! IBIs (R444). -/

/-- Pending IBIs leave in the order RAIL_REQ, ALERT, LEDGER while IBIs are enabled; otherwise they are held (R441, R444). -/
def State.flushIbis (s : State) : State :=
  if !s.side.enabled then s
  else
    let p := s.side.pending
    let ordered := (p.filter fun x => x.1 = 1) ++ (p.filter fun x => x.1 = 2) ++ (p.filter fun x => x.1 = 3)
    { s with side := { s.side with pending := [], raised := s.side.raised ++ ordered } }

/-- Raise an IBI. -/
def State.ibi (s : State) (mdb : Nat) (payload : List Byte) : State :=
  State.flushIbis { s with side := { s.side with pending := s.side.pending ++ [(mdb, payload)] } }

/-- The setting of a rail in 0.5 mV units that a VID code asks for (R435). -/
def vidSetting (code : Nat) : Nat := 1200 + 5 * code

/-- Payload of a RAIL_REQ. -/
def railPayload (r : RailReq) : List Byte := toBytes 1 r.rail ++ toBytes 2 r.setting

/-- Open a RAIL_REQ and raise it (R444). -/
def State.railReq (s : State) (rail setting : Nat) : State :=
  let r : RailReq := ⟨rail, setting⟩
  State.ibi { s with side := { s.side with rails := (s.side.rails.filter fun x => x.rail ≠ rail) ++ [r] } } 1 (railPayload r)

/-- No RAIL_REQ of a rail is open. -/
def State.railClosed (s : State) (rail : Nat) : Bool := s.side.rails.all fun x => decide (x.rail ≠ rail)

/-- A RAIL_REQ that is still open is raised again (R444). -/
def execRailReqRepeat (s : State) : Host.Outcome State Fault Refusal :=
  s.live fun s => s.side.rails.foldl (fun s r => s.ibi 1 (railPayload r)) s

/-- A RAIL_REQ unanswered for 100 ms closes (R444). -/
def execRailReqTimeout (rail : Nat) (s : State) : Host.Outcome State Fault Refusal :=
  s.live fun s => { s with side := { s.side with rails := s.side.rails.filter fun x => x.rail ≠ rail } }

/-- ALERT bits [6:0] as they stand (R336). -/
def alertRows : List Row :=
  [Reg.POWER_ALERT_CAL_FAULT, Reg.POWER_ALERT_TEL_LOST, Reg.POWER_ALERT_THERMAL, Reg.POWER_ALERT_THERMAL_TRIP,
   Reg.POWER_ALERT_COOLANT_STOP, Reg.POWER_ALERT_ENVELOPE_MISS, Reg.POWER_ALERT_AGEING_LIMIT]

def State.alerts (s : State) : Nat := ((List.range 7).map fun i => s.df (alertRows.getD i Reg.POWER_ALERT_CAL_FAULT) * 2 ^ i).foldl (· + ·) 0

/-- A cause bit sets: an ALERT IBI is raised when it was clear (R336, R444). -/
def State.setAlert (s : State) (r : Row) : State :=
  if s.df r = 1 then s
  else
    let s := s.setD r 1
    s.ibi 2 (toBytes 1 s.alerts)

/-- ALERT_N is low (R336). -/
def State.alertLow (s : State) : Bool := (List.range 7).any fun i => bit s.alerts i && bit (s.df Reg.POWER_ALERT_MASK) i

/-! Records (R373–R377, R386). -/

/-- The first unacknowledged record is offered to the sideband (R378, R444). -/
def State.offer (s : State) : State :=
  if s.df Reg.LEDGER_ACK_SEQ < s.df Reg.LEDGER_HEAD_SEQ then s.ibi 3 (toBytes 6 (s.df Reg.LEDGER_ACK_SEQ)) else s

/-- The eight words of a record (R374). -/
def State.recordWords (s : State) (seq : Nat) (e : Event) : List Nat :=
  let d (i : Nat) : Nat := e.data.getD i 0 % 2 ^ 64
  [seq % 2 ^ 48 + e.code * 2 ^ 48,
   e.time,
   s.df Reg.LEDGER_HOURS + s.df Reg.LEDGER_MINUTES * 2 ^ 17 + s.df Reg.LEDGER_HOURS_SAT * 2 ^ 23 + s.df Reg.LEDGER_CYCLES * 2 ^ 32 +
     s.df Reg.LEDGER_CYCLES_SAT * 2 ^ 46 + e.sev * 2 ^ 48 + b2n (decide (4 < e.data.length)) * 2 ^ 50,
   e.unit % 2 ^ 16 + s.df Reg.RING_CURRENT * 2 ^ 16,
   d 0, d 1, d 2, d 3]

/-- Overwriting an unacknowledged record: ACK_SEQ moves on, LOST counts, and the first loss since an ACK_SEQ write is recorded (R379). -/
def State.overwrite (s : State) (seq : Nat) : State :=
  if 8192 ≤ seq ∧ s.df Reg.LEDGER_ACK_SEQ ≤ seq - 8192 then
    let s := (s.setD Reg.LEDGER_ACK_SEQ (seq - 8191)).bumpD Reg.LEDGER_LOST 1
    if s.ledger.overrun then s
    else State.note { s with ledger := { s.ledger with overrun := true } } 0x0E00 noUnit [seq - 8192]
  else s

/-- FIRST_STOP takes the event that stopped the task; among equal timestamps the lowest unit (R369). -/
def State.firstStop (s : State) (seq : Nat) (e : Event) : State :=
  let first := decide (s.df Reg.LEDGER_FIRST_STOP_VALID = 0) ||
    (decide (s.df Reg.LEDGER_FIRST_STOP_TIME = e.time) && decide (e.unit < s.df Reg.LEDGER_FIRST_STOP_UNIT))
  if e.stop && first then
    ((((s.setD Reg.LEDGER_FIRST_STOP_SEQ seq).setD Reg.LEDGER_FIRST_STOP_EVENT e.code).setD Reg.LEDGER_FIRST_STOP_UNIT e.unit).setD
      Reg.LEDGER_FIRST_STOP_VALID 1).setD Reg.LEDGER_FIRST_STOP_TIME e.time
  else s

/-- Write the record of an event into its slot; HEAD_SEQ advances last (R373, R376, R383). -/
def State.writeRecord (s : State) (e : Event) : State :=
  let seq := s.df Reg.LEDGER_HEAD_SEQ
  let k := seq % 8192
  let s := (s.overwrite seq).firstStop seq e
  let s : State := { s with ledger := { s.ledger with
    slots := Sparse.putRun 0 s.ledger.slots (8 * k) (s.recordWords seq e)
    bad := s.ledger.bad.filter (· ≠ k)
    reported := s.ledger.reported.filter (· ≠ k) } }
  let s := if e.sev = 2 then s.bumpD Reg.LEDGER_SEV2 1 else if e.sev = 3 then s.bumpD Reg.LEDGER_SEV3 1 else s
  let s := s.setD Reg.LEDGER_HEAD_SEQ (seq + 1)
  if s.df Reg.LEDGER_ACK_SEQ = seq then s.offer else s

/-- The order of events detected in one cycle: BLOCK, then UNIT, then EVENT (R376). -/
def Event.before (a b : Event) : Bool :=
  if a.code / 256 = b.code / 256 then (if a.unit = b.unit then decide (a.code < b.code) else decide (a.unit < b.unit))
  else decide (a.code / 256 < b.code / 256)

/-- Is event a accepted before b, where both wait? That of the earlier cycle is (R376). -/
def Event.sooner (a b : Event) : Bool := decide (a.time < b.time) || (decide (a.time = b.time) && a.before b)

/-- The event accepted next: of those detected in the tick of the oldest the first in the order of R376; POWER_ON is the first record after its
reset (R373). -/
def firstEvent : List Event → Option Event
  | [] => none
  | e :: r => some (if e.code = 0 then e else r.foldl (fun m x => if decide (x.time / 2 ^ 24 = e.time / 2 ^ 24) && x.sooner m then x else m) e)

/-- The foreman accepts the next event and records it, or suppresses it past the 64th of its code in the period (R376, R377). -/
def State.acceptEvent (s : State) : State :=
  match firstEvent s.detected with
  | none => s
  | some e =>
    let s : State := { s with detected := s.detected.erase e }
    if 2 ≤ e.sev then s.writeRecord e
    else
      let n := Sparse.get 0 s.ledger.counts e.code
      if 64 ≤ n then
        State.bumpD { s with ledger := { s.ledger with
          muted := Sparse.put 0 s.ledger.muted e.code (Sparse.get 0 s.ledger.muted e.code + 1) } } Reg.LEDGER_SUPPRESSED 1
      else State.writeRecord { s with ledger := { s.ledger with counts := Sparse.put 0 s.ledger.counts e.code (n + 1) } } e

/-- Every event detected so far, `n` of them at most, is recorded. -/
def State.acceptEvents (s : State) : Nat → State
  | 0 => s
  | n + 1 => s.acceptEvent.acceptEvents n

def execLedgerRecord (s : State) : Host.Outcome State Fault Refusal :=
  s.live fun s => if s.df Reg.BOOT_PHASE = 0 then s else s.acceptEvent

/-- A LEDGER IBI is raised again while a record is unacknowledged (R444). -/
def execLedgerIbiRepeat (s : State) : Host.Outcome State Fault Refusal := s.live State.offer

/-- The end of a 1 ms period: one RATE_SUMMARY per suppressed code with its count (R377). -/
def execRateSummary (s : State) : Host.Outcome State Fault Refusal :=
  s.live fun s =>
    let t := s.ledger.muted.foldl (fun s x => s.note 0x0E01 noUnit [x.1, x.2]) s
    { t with ledger := { t.ledger with counts := [], muted := [] } }

/-- ACK_SEQ through the sideband: from its current value to HEAD_SEQ (R378). -/
def State.ackSeq (s : State) (v : Nat) : State :=
  if s.df Reg.LEDGER_ACK_SEQ ≤ v ∧ v ≤ s.df Reg.LEDGER_HEAD_SEQ then
    State.offer (State.setD { s with ledger := { s.ledger with overrun := false } } Reg.LEDGER_ACK_SEQ v)
  else s

/-! Reading the ring (R383, R384, R387). -/

/-- Word w of slot k as a readout shows it: DAMAGED is set in a slot with an uncorrectable word. -/
def State.slotWord (s : State) (k w : Nat) : Nat :=
  let v := Sparse.get 0 s.ledger.slots (8 * k + w)
  if w = 2 ∧ s.ledger.bad.contains k ∧ !bit v 51 then v + 2 ^ 51 else v

/-- A readout of slot k: LEDGER_UE is recorded once per damaged slot. -/
def State.readSlot (s : State) (k : Nat) : State :=
  if s.ledger.bad.contains k ∧ !s.ledger.reported.contains k then
    State.note { s with ledger := { s.ledger with reported := s.ledger.reported ++ [k] } } 0x0E02 noUnit [k]
  else s

/-- The 64 bytes of the record in slot k. -/
def State.slotBytes (s : State) (k : Nat) : List Byte := (List.range 8).flatMap fun w => toBytes 8 (s.slotWord k w)

/-! Operating hours (R337, R380). -/

/-- HOURS, MINUTES and HOURS_SAT from the thermometer and the fine count. -/
def State.showHours (s : State) : State :=
  if 6144 ≤ s.ledger.steps then
    ((s.setD Reg.LEDGER_HOURS 98304).setD Reg.LEDGER_MINUTES 0).setD Reg.LEDGER_HOURS_SAT 1
  else
    (s.setD Reg.LEDGER_HOURS (16 * s.ledger.steps + s.ledger.fine / 60)).setD Reg.LEDGER_MINUTES (s.ledger.fine % 60)

/-- The fine count advances; at 960 one step is burned, and the last step saturates the count. -/
def State.minute (s : State) : State :=
  if s.df Reg.LEDGER_HOURS_SAT = 1 then s
  else if s.ledger.fine + 1 < 960 then State.showHours { s with ledger := { s.ledger with fine := s.ledger.fine + 1 } }
  else
    let s := State.showHours { s with ledger := { s.ledger with fine := 0, steps := s.ledger.steps + 1 } }
    if s.df Reg.LEDGER_HOURS_SAT = 1 then s.note 0x0E03 noUnit [] else s

/-- A minute of operation with VDD_PLINTH up and PWRGOOD high; every multiple of 1,000 hours starts a repointing. -/
def execMinuteCount (s : State) : Host.Outcome State Fault Refusal :=
  s.live fun s =>
    if !(s.boot.plinth && s.boot.pwrgood) then s
    else
      let t := s.minute
      let h := t.df Reg.LEDGER_HOURS
      if t.df Reg.LEDGER_HOURS_SAT = 0 ∧ 0 < h ∧ h % 1000 = 0 ∧ t.power.repointHours ≠ h then
        State.setD { t with power := { t.power with repointHours := h } } Reg.POWER_AGE_BUSY 1
      else t

end Sys2Proof.Machine
end

