-- ==== Sys2Proof/Machine/Links.lean ====
section
/-!
DEFINITION. The bond ports and the routes: port domains, training, frames, loss, the live link graph, routing tables, and the forwarding of packets (R261–R280, R288–R290, R430).
-/

namespace Sys2Proof.Machine

/-! Power domains (R428). -/

/-- Switch power domain d. -/
def State.setDomain (s : State) (d : Nat) (on : Bool) : State :=
  let r := if d < 64 then Reg.DIR_DOM_ON_LO else Reg.DIR_DOM_ON_HI
  let i := d % 64
  if bit (s.df r) i = on then s else s.setD r (if on then s.df r + 2 ^ i else s.df r - 2 ^ i)

/-- Switch domains on or off; each switch counts (R429). -/
def State.switchDomains (s : State) (ds : List Nat) (on : Bool) : State :=
  ds.foldl (fun s d => if s.domainOn d = on then s else (s.setDomain d on).bumpD Reg.DIR_DOM_CHANGES 1) s

/-! Roles (R14, R19). -/

def State.role (s : State) (p : Nat) : Nat := fld (s.df Reg.PLACE_ROLE) (2 * p + 1) (2 * p)
def State.peerOf (s : State) (p : Nat) : Nat := fld (s.df Reg.PLACE_PEER) (4 * p + 3) (4 * p)

/-- Set ROLE and PEER of a port; a change is recorded (R19). -/
def State.setRole (s : State) (p role peer : Nat) : State :=
  if s.role p = role ∧ s.peerOf p = peer then s
  else
    let s := s.setD Reg.PLACE_ROLE (s.df Reg.PLACE_ROLE - s.role p * 4 ^ p + role % 4 * 4 ^ p)
    let s := s.setD Reg.PLACE_PEER (s.df Reg.PLACE_PEER - s.peerOf p * 16 ^ p + peer % 16 * 16 ^ p)
    s.note 0x0004 p [role, peer]

/-! The live link graph (R278, R295). -/

/-- N, the ring size. -/
def State.ringSize (s : State) : Nat := s.df Reg.PLACE_RING_SIZE
def State.dieId (s : State) : Nat := s.df Reg.PLACE_DIE_ID

/-- Ring position that ring port p of position k reaches in a ring of n (R14). -/
def ringPeer (n k p : Nat) : Nat :=
  match p with
  | 0 => (k + 1) % n | 1 => (k + n - 1) % n | 2 => (k + 2) % n | _ => (k + 2 * n - 2) % n

/-- Bit of RING.LINKS of the link that ring port p of position k ends. -/
def linkBit (n k p : Nat) : Nat :=
  match p with
  | 0 => 2 * (k % n) | 1 => 2 * ((k + n - 1) % n) | 2 => 2 * (k % n) + 1 | _ => 2 * ((k + 2 * n - 2) % n) + 1

/-- Ring ports that a ring of n uses (R14). -/
def ringPorts (n : Nat) : List Nat := if 4 ≤ n then [0, 1, 2, 3] else if 2 ≤ n then [0, 1] else []

/-- Positions reached from position k over live links. -/
def neighbours (n links k : Nat) : List Nat :=
  ((ringPorts n).filter fun p => bit links (linkBit n k p)).map (ringPeer n k)

/-- Positions within `d` hops of those in a list. -/
def spread (n links : Nat) : Nat → List Nat → List Nat
  | 0, l => l
  | d + 1, l => spread n links d (l ++ ((l.flatMap (neighbours n links)).filter fun x => !l.contains x))

/-- Hops from position a to b, or none without a path. -/
def hops (n links a b : Nat) : Option Nat := (List.range (n + 1)).find? fun d => (spread n links d [a]).contains b

/-- The lowest ring port that begins a path of fewest hops to position d (R278). -/
def nextHop (n links k d : Nat) : Option Nat :=
  match hops n links k d with
  | none | some 0 => none
  | some (h + 1) => (ringPorts n).find? fun p =>
      bit links (linkBit n k p) && decide (hops n links (ringPeer n k p) d = some h)

/-- NEXT_HOP entry of compute die d. -/
def State.hopEntry (s : State) (d : Nat) : Nat :=
  if d = s.dieId then 0xE
  else if s.ringSize ≤ d then 0xF
  else (nextHop s.ringSize (s.df Reg.RING_LINKS) s.dieId d).getD 0xF

/-- Hub die on hub port `p` (4 to 7) of position k by the hub map; 0 for none. -/
def State.hubOf (s : State) (k p : Nat) : Nat := Sparse.get 0 s.ring.hubs (4 * k + p - 4)

/-- The nearest die, by hops and then position, of those that `ok` admits. -/
def State.nearest (s : State) (ok : Nat → Bool) : Option Nat :=
  let n := s.ringSize
  let l := s.df Reg.RING_LINKS
  let far (d : Nat) : Nat := (hops n l s.dieId d).getD 99
  ((List.range n).filter fun d => decide (d ≠ s.dieId) && ok d && decide (far d < 99)).foldl
    (fun (m : Option Nat) d => match m with
      | none => some d
      | some x => if far d < far x then some d else some x) none

/-- The ACTIVE hub port to hub die h. -/
def State.hubPort (s : State) (h : Nat) : Option Nat :=
  [4, 5, 6, 7].find? fun p => s.portActive p && decide (s.role p = 3) && decide (s.peerOf p = h)

/-- HUB_HOP entry of hub die h (R295). -/
def State.hubEntry (s : State) (h : Nat) : Nat :=
  match s.hubPort h with
  | some p => p
  | none =>
    match s.nearest fun d => [4, 5, 6, 7].any fun p => decide (s.hubOf d p = h) with
    | some d => (nextHop s.ringSize (s.df Reg.RING_LINKS) s.dieId d).getD 0xF
    | none => 0xF

/-- The routing tables as the live graph and the hub map give them (R277, R278). -/
def State.routes (s : State) : State :=
  let nh := ((List.range 8).map fun d => s.hopEntry d * 16 ^ d).foldl (· + ·) 0
  let hh := ((List.range 8).map fun j => s.hubEntry (8 + j) * 16 ^ j).foldl (· + ·) 0
  State.setD (State.setD { s with ring := { s.ring with stale := false } } Reg.RING_NEXT_HOP nh) Reg.RING_HUB_HOP hh

/-- A changed link graph gets its new tables (R289). -/
def execRouteTableInstall (s : State) : Host.Outcome State Fault Refusal :=
  s.live fun s => if s.ring.stale then s.routes else s

/-! ENUM packets (R271, R279, R283). -/

/-- Send an ENUM packet by a port: one hop, with its 32 bytes of payload. -/
def State.sendEnum (s : State) (port sub : Nat) (payload : List Byte) : State :=
  s.postPort port (s.packet ⟨0, 0, 0, 0⟩ 2 0 { vl := 3, type := 7, sub := sub, len := 32, payload := payload })

/-- Active ring ports. -/
def State.ringActive (s : State) : List Nat := [0, 1, 2, 3].filter s.portActive

/-! A port goes DOWN (R266, R267, R289). -/

/-- LINK_DOWN payload (R283). -/
def downPayload (pkg k b3 b4 : Nat) : List Byte := toBytes 2 pkg ++ toBytes 1 k ++ toBytes 1 b3 ++ toBytes 1 b4 ++ List.replicate 27 0#8

/-- The link or the hub port leaves the graph, and LINK_DOWN is sent on the other ring ports, by either live end of a link and whether or not
the entry is gone already (R289). A port that no role used, and any port before N is known, has no link to leave. -/
def State.leaveGraph (s : State) (p role : Nat) : State :=
  let n := s.ringSize
  let k := s.dieId
  let pkg := s.df Reg.PLACE_PACKAGE_ID
  if n = 0 then s
  else if p < 4 then
    if !(ringPorts n).contains p then s
    else
      let b := linkBit n k p
      let m := downPayload pkg k (b / 2 + b % 2 * 8) 0
      let s : State := { s with ring := { s.ring with stale := true, downs := s.ring.downs ++ [m] } }
      let s := if bit (s.df Reg.RING_LINKS) b then s.setD Reg.RING_LINKS (s.df Reg.RING_LINKS - 2 ^ b) else s
      (s.ringActive.filter (· ≠ p)).foldl (fun s q => s.sendEnum q 5 m) s
  else if role ≠ 3 then s
  else
    let m := downPayload pkg k 0 (p - 4 + 4)
    let s : State := { s with ring := { s.ring with hubs := Sparse.put 0 s.ring.hubs (4 * k + p - 4) 0, stale := true, downs := s.ring.downs ++ [m] } }
    s.ringActive.foldl (fun s q => s.sendEnum q 5 m) s

/-- A port goes DOWN with a cause: unacknowledged frames and waiting packets are lost, ROLE and PEER clear, the link leaves the graph. -/
def State.portDown (s : State) (p cause : Nat) : State :=
  let x := s.port p
  let late := s.net.waiting.filter fun w => decide (w.1 = p)
  let s := s.bump Reg.LINK_LOST p 0 (x.kept.length + late.length)
  let s : State := { s with net := { s.net with
    waiting := s.net.waiting.filter fun w => decide (w.1 ≠ p)
    portUsed := s.net.portUsed.filter fun u => decide (u.1 / 8 ≠ p) } }
  let s := s.setPort p { Port.init with tx := 6, rx := 6 }
  let s := (((s.wr Reg.LINK_STATE p 0 6).wr Reg.LINK_DOWN_CAUSE p 0 cause).wr Reg.LINK_TX_WIDTH p 0 0).wr Reg.LINK_RX_WIDTH p 0 0
  let s := s.note 0x0801 p [cause]
  (s.setRole p 0 0).leaveGraph p (s.role p)

/-- The domain of an unused port is powered down (R16, R430). -/
def State.portOff (s : State) (p : Nat) : State :=
  let s := s.setPort p Port.init
  ((s.wr Reg.LINK_STATE p 0 6).wr Reg.LINK_DOWN_CAUSE p 0 7).switchDomains [64 + p] false

/-- No valid frame for 1,700 cycles (R267, R268). -/
def execLossOfFrame (port : Nat) (s : State) : Host.Outcome State Fault Refusal :=
  s.live fun s => if port < 8 ∧ s.portActive port then s.portDown port 3 else s

/-! Training (R264–R266). -/

/-- A direction's state as LINK.STATE shows both: DOWN when either is, else the earlier one. -/
def Port.shown (x : Port) : Nat := if x.tx = 6 ∨ x.rx = 6 then 6 else min x.tx x.rx

/-- Lanes in a mask. -/
def lanes (m : Nat) : Nat := ((List.range 32).filter (bit m)).length

/-- The width a direction with g good lanes runs at; 0 below 8 (R266). -/
def widthOf (g : Nat) : Nat := min 32 (g / 8 * 8)

/-- A port starts training: its domain is on, its counters start again (R264, R296). -/
def State.startTraining (s : State) (p : Nat) : State :=
  let s := s.switchDomains [64 + p] true
  let s := s.setPort p { Port.init with tx := 1, rx := 1 }
  let s := [Reg.LINK_FEC_CORR, Reg.LINK_FEC_UNCORR, Reg.LINK_REPLAYS, Reg.LINK_LOST, Reg.LINK_TX_FLITS, Reg.LINK_RX_FLITS,
    Reg.LINK_TX_WIDTH, Reg.LINK_RX_WIDTH, Reg.LINK_TX_LANES, Reg.LINK_RX_LANES, Reg.LINK_DOWN_CAUSE].foldl (fun s r => s.wr r p 0 0) s
  let s : State := { s with net := { s.net with badPorts := s.net.badPorts.filter (· ≠ p) } }
  s.wr Reg.LINK_STATE p 0 1

/-- Set the training state of one direction. -/
def State.setDir (s : State) (p : Nat) (tx : Bool) (v : Nat) : State :=
  let x := s.port p
  let x := if tx then { x with tx := v } else { x with rx := v }
  (s.setPort p x).wr Reg.LINK_STATE p 0 x.shown

/-- A direction leaves WIDTH: its good lanes are published, its width is chosen, and narrow ones are recorded (R265, R266). -/
def State.chooseWidth (s : State) (p : Nat) (tx : Bool) (mask us : Nat) : State :=
  let w := widthOf (lanes mask)
  let s := s.wr (if tx then Reg.LINK_TX_LANES else Reg.LINK_RX_LANES) p 0 mask
  if w = 0 then s.portDown p 2
  else
    let s := (s.wr (if tx then Reg.LINK_TX_WIDTH else Reg.LINK_RX_WIDTH) p 0 w).setDir p tx 5
    let s := s.wr Reg.LINK_TRAIN_US p 0 us
    if w < 32 then s.note 0x0800 p [s.rd Reg.LINK_TX_LANES p 0, s.rd Reg.LINK_RX_LANES p 0] else s

/-- The lanes of a direction that detected the peer are kept for WIDTH (R265). -/
def State.keepSeen (s : State) (p : Nat) (tx : Bool) (mask : Nat) : State :=
  let x := s.port p
  s.setPort p (if tx then { x with txSeen := mask } else { x with rxSeen := mask })

/-- The lanes of a mask that also detected the peer. -/
def Port.goodLanes (x : Port) (tx : Bool) (mask : Nat) : Nat := mask &&& (if tx then x.txSeen else x.rxSeen)

/-- A direction of a port meets the exit condition of its training state (R264); `us` is the duration of the training so far. `mask` is, in
DETECT, the lanes that see the peer and, in WIDTH, the lanes with at most 64 symbol errors and an eye margin of at least the fused one: a lane
is good when it is in both (R265). No port trains while a task runs. -/
def State.trainExit (s : State) (p : Nat) (tx : Bool) (mask us : Nat) : State :=
  let x := s.port p
  if s.taskRuns then s
  else match (if tx then x.tx else x.rx) with
  | 0 => if s.domainOn (64 + p) then s.setDir p tx 1 else s
  | 1 => if mask % 2 ^ 32 = 0 then s else (s.keepSeen p tx (mask % 2 ^ 32)).setDir p tx 2
  | 2 => s.setDir p tx 3
  | 3 => s.setDir p tx 4
  | 4 => s.chooseWidth p tx (x.goodLanes tx (mask % 2 ^ 32)) us
  | _ => s

def execTrainingStateExit (port : Nat) (tx : Bool) (mask us : Nat) (s : State) : Host.Outcome State Fault Refusal :=
  s.live fun s => if port < 8 then s.trainExit port tx mask us else s

/-- A training state does not exit within its bound (R264). -/
def execTrainingTimeout (port : Nat) (s : State) : Host.Outcome State Fault Refusal :=
  s.live fun s =>
    let x := s.port port
    if port < 8 ∧ ((1 ≤ x.tx ∧ x.tx ≤ 4) ∨ (1 ≤ x.rx ∧ x.rx ≤ 4)) then s.portDown port 1 else s

/-- Every port has left training (R281). -/
def State.trained (s : State) : Bool :=
  (List.range 8).all fun p => !s.domainOn (64 + p) || decide (5 ≤ s.rd Reg.LINK_STATE p 0)

/-! Frames (R262, R263, R267). -/

/-- Frames that an ACK releases: those up to its FSEQ in the order sent. -/
def ackFrames (ack : Nat) (l : List (Nat × Packet)) : List (Nat × Packet) :=
  if l.any fun x => decide (x.1 = ack) then (l.dropWhile fun x => decide (x.1 ≠ ack)).drop 1 else l

/-- The receiver NAKs the frame it expects; the eighth time in succession takes the port DOWN (R263). -/
def State.nakFrame (s : State) (p : Nat) : State :=
  let x := s.port p
  let run := if x.nakSeq = x.expect ∧ 0 < x.nakRun then x.nakRun + 1 else 1
  let s := s.setPort p { x with dropping := true, nakSeq := x.expect, nakRun := run }
  if 8 ≤ run then s.portDown p 4 else s

/-- The transmitter resends every frame kept, in the original order, each with the acknowledgement of now (R263). -/
def State.replay (s : State) (p : Nat) : State :=
  let s := s.bump Reg.LINK_REPLAYS p 0 1
  let x := s.port p
  { s with net := { s.net with sent := s.net.sent ++ x.kept.map fun y => Port.frameOf { x with owed := [] } p y.1 y.2 } }

/-- An accepted frame: its control flit acts and its packets have arrived. -/
def State.acceptFrame (s : State) (p : Nat) (f : Frame) : State :=
  let x := s.port p
  let s := s.setPort p { x with expect := (x.expect + 1) % 4096, dropping := false, nakRun := 0, kept := ackFrames (f.ack % 4096) x.kept }
  let s := if f.nak then s.replay p else s
  let s := (List.range 8).foldl (fun s i => s.creditPort p (i / 2) (i % 2) (f.credits.getD i 0 % 256)) s
  State.bump { s with net := { s.net with arrived := s.net.arrived ++ f.packets.map fun q => (p, q) } }
    Reg.LINK_RX_FLITS p 0 ((f.packets.map flits).foldl (· + ·) 0)

/-- A frame arrives on an ACTIVE port (R262, R263). -/
def State.frame (s : State) (p : Nat) (f : Frame) : State :=
  let good := f.errors.filter (· ≤ 4)
  let lost := f.errors.filter (4 < ·)
  let s := (s.bump Reg.LINK_FEC_CORR p 0 (good.foldl (· + ·) 0)).bump Reg.LINK_FEC_UNCORR p 0 lost.length
  let x := s.port p
  if f.fseq % 4096 = x.expect then
    if lost.isEmpty then s.acceptFrame p f else s.nakFrame p
  else if x.dropping then s
  else s.nakFrame p

def execFrame (port : Nat) (f : Frame) (s : State) : Host.Outcome State Fault Refusal :=
  s.live fun s => if port < 8 ∧ s.portActive port then s.frame port f else s

/-! Forwarding (R276, R277, R290). -/

/-- ACTIVE hub ports in ascending number. -/
def State.hubPorts (s : State) : List Nat := [4, 5, 6, 7].filter fun p => s.portActive p && decide (s.role p = 3)

/-- Where the packet goes next. -/
inductive Hop where
  | own
  | port (n : Nat)
  | none_
  deriving DecidableEq, Repr

/-- An entry of NEXT_HOP or HUB_HOP as a hop. -/
def hopOf (v : Nat) : Hop := if v < 8 then .port v else .none_

/-- The next hop of a packet that came in on `port`, 8 for the die's own mesh (R277). -/
def State.hop (s : State) (port : Nat) (p : Packet) : Hop :=
  if 4 ≤ port ∧ port < 8 ∧ pDpkg p ≠ s.df Reg.PLACE_PACKAGE_ID then .none_
  else if pDpkg p = s.df Reg.PLACE_PACKAGE_ID then
    if pDdie p = s.dieId then .own
    else if pDdie p < 8 then hopOf (fld (s.df Reg.RING_NEXT_HOP) (4 * pDdie p + 3) (4 * pDdie p))
    else hopOf (fld (s.df Reg.RING_HUB_HOP) (4 * (pDdie p - 8) + 3) (4 * (pDdie p - 8)))
  else
    match s.hubPorts with
    | [] =>
      match s.nearest fun d => [4, 5, 6, 7].any fun q => decide (s.hubOf d q ≠ 0) with
      | some d => hopOf (fld (s.df Reg.RING_NEXT_HOP) (4 * d + 3) (4 * d))
      | none => .none_
    | l => .port (l.getD (fld (flowHash p).toNat 63 32 % l.length) 4)

/-- The class a packet travels in over a hop (R274). -/
def State.hopClass (s : State) (n : Nat) (p : Packet) : Nat :=
  let q := ringPeer (max 1 s.ringSize) s.dieId n
  let wraps := (decide (n = 0 ∨ n = 2) && decide (q < s.dieId)) || (decide (n = 1 ∨ n = 3) && decide (s.dieId < q))
  if pClass p = 1 ∨ wraps then 1 else 0

/-- A packet with its buffer class. -/
def withClass (p : Packet) (v : Nat) : Packet := { p with w0 := BitVec.ofNat 64 (putFld p.w0.toNat 58 58 v) }

/-- An unreachable packet is discarded, counted, recorded and, unless it is an answer, answered by this die (R272, R277). -/
def State.unreachable (s : State) (p : Packet) : State :=
  let s := (s.bumpD Reg.RING_UNROUTABLE 1).note 0x0803 noUnit []
  let win := if pWin p then pWindow p * 256 + 2 ^ 13 else 0
  match pType p with
  | 0 | 1 | 4 => s.form (s.packet (answerTo p) 2 0 { vl := answerVl p, type := 5, sub := 1, tag := pTag p, addr := 7 + win })
  | 2 => s.form (s.packet (answerTo p) 2 0 { vl := answerVl p, type := 3, sub := 7, tag := pTag p, addr := pAddr p })
  | _ => s

/-- A packet that goes on leaves its place in turn: none of its flow and lane is ahead, and of those that arrived on one port in one lane
none that goes on too (R280). -/
def State.goesOn (s : State) (port : Nat) (p : Packet) : Bool :=
  s.inTurn port p && !(decide (port < 8) && (s.ahead port p).any fun q => decide (pVl q = pVl p) && decide (s.hop port q ≠ .own))

/-- The port switch holds the whole length of a packet toward port n: 32 flits a lane (R274). -/
def State.switchHolds (s : State) (n : Nat) (p : Packet) : Bool :=
  let held := (s.net.waiting.filter fun x => decide (x.1 = n) && decide (pVl x.2 = pVl p)).map fun x => flits x.2
  decide (held.foldl (· + ·) 0 + flits p ≤ 32)

/-- Route a packet that is not addressed to this die and does not travel by single hops (R277–R279, R290). It stays where it is until its
turn comes and the port switch has room for it. -/
def State.forward (s : State) (port : Nat) (p : Packet) : State :=
  if pType p = 6 ∨ pType p = 7 ∨ !s.goesOn port p then s
  else match s.hop port p with
  | .own => s
  | .none_ => (s.take port p).unreachable p
  | .port n =>
    let q := withClass p (s.hopClass n p)
    if !s.portActive n then (s.take port p).bump Reg.LINK_LOST n 0 1
    else if s.switchHolds n q then (s.take port p).postPort n q
    else s

def execPacketForward (port : Nat) (p : Packet) (s : State) : Host.Outcome State Fault Refusal := s.live fun s => s.forward port p

end Sys2Proof.Machine
end

