-- ==== Sys2Proof/Machine/Check.lean ====
section
/-!
DEFINITION. What a die checks of a packet that arrives: its epoch (R293) and its form (R271, R273).
-/

namespace Sys2Proof.Machine

/-- A die-local address in the die register pages (R22). -/
def inDiePages (a : Nat) : Bool := decide (0x20000000000 ≤ a) && decide (a < 0x20001000000)

/-- A data length of 8 to 512 bytes in whole words. -/
def goodLen (n : Nat) : Bool := decide (n % 8 = 0) && decide (8 ≤ n) && decide (n ≤ 512)

/-- ADDR of a packet that names memory by WIN and DKIND (R271, R273). -/
def goodAddr (p : Packet) : Bool :=
  let a := pAddr p
  decide (a % 8 = 0) &&
  (if pWin p then decide (a < 2 ^ 25) && decide (pDkind p = 0)
   else decide (a < 2 ^ 44) &&
    (decide (pDkind p ≠ 0) ||
      (decide (0x10000000000 ≤ a) && decide (a < 0x10040000000) && decide ((a - 0x10000000000) / 0x100000 = pDnode p))))

/-- The lane of a WRITE or READ_REQ: management exactly for a die register page. -/
def goodLane (p : Packet) : Bool :=
  if !pWin p && inDiePages (pAddr p) then decide (pVl p = 3) else decide (pVl p = 0)

/-- A packet keeps the rows of the type table (R271, R273). -/
def wellFormed (p : Packet) : Bool :=
  let n := pLen p
  let m := p.payload.length
  let a := pAddr p
  decide (p.w0.toNat / 2 ^ 59 = 0) && decide (p.w1.toNat / 2 ^ 56 = 0) &&
  (!pWin p || decide (pType p ≤ 1)) &&
  match pType p with
  | 0 => goodLen n && decide (m = n) && decide (pSub p = 0) && goodAddr p && goodLane p
  | 1 => goodLen n && decide (m = n) && decide (pSub p = 0) && pWin p && goodAddr p && decide (pVl p = 0)
  | 2 => goodLen n && decide (m = 0) && decide (pSub p = 0) && goodAddr p && goodLane p
  | 3 => (decide (pVl p = 1) || decide (pVl p = 3)) && decide (pSub p ≤ 9) && decide (m = n) &&
      (if pSub p = 0 then goodLen n else decide (n = 0)) && decide (a % 8 = 0) && decide (a < 2 ^ 44)
  | 4 => decide (pVl p = 2) && decide (n = 0) && decide (m = 0) && decide (a ≠ 0)
  | 5 => decide (n = 0) && decide (m = 0) &&
      (if pSub p ≤ 1 then (decide (pVl p = 1) || decide (pVl p = 3)) && decide (a < 2 ^ 14) && decide (a % 256 ≤ 9)
       else decide (pSub p ≤ 3) && decide (pVl p = 2) && decide (a < 8))
  | 6 => decide (pSub p ≤ 1) && decide (pVl p = 2) && decide (n = 0) && decide (m = 0) &&
      (decide (pSub p = 0) || decide (a < 2 ^ 40))
  | 7 => decide (pSub p ≤ 5) && decide (pVl p = 3) && decide (n = 32) && decide (m = 32) && decide (a = 0)
  | _ => false

/-- PKG of an ENUM payload. -/
def enumPkg (p : Packet) : Nat := fld (ofBytes p.payload) 15 0

/-- Does this die find the packet malformed (R273)? -/
def State.malformed (s : State) (p : Packet) : Bool :=
  !wellFormed p || (decide (pType p = 7) && decide (pSub p = 5) && decide (enumPkg p ≠ s.df Reg.PLACE_PACKAGE_ID))

/-- A malformed packet is counted, and recorded when it is the first of its port since training (R273). -/
def State.dropMalformed (s : State) (port : Nat) : State :=
  let s := s.bumpD Reg.RING_MALFORMED 1
  if s.net.badPorts.contains port then s
  else
    let s : State := { s with net := { s.net with badPorts := s.net.badPorts ++ [port] } }
    if port < 8 then s.note 0x0802 port [] else s.note 0x0802 noUnit []

/-- Is the source a hub die of this die's package (R292, R293)? -/
def State.fromHub (s : State) (p : Packet) : Bool :=
  decide (pSkind p = 3) && decide (8 ≤ pSdie p) && decide (pSpkg p = s.df Reg.PLACE_PACKAGE_ID)

/-- Packets whose epoch is not checked (R293). -/
def State.epochExempt (s : State) (p : Packet) : Bool :=
  decide (pType p = 7) || (decide (pType p = 6) && decide (pSub p = 0)) || (decide (pVl p = 3) && s.fromHub p)

/-- A stale packet (R293). -/
def State.isStale (s : State) (p : Packet) : Bool := !s.epochExempt p && decide (pEpoch p ≠ s.df Reg.RING_CURRENT)

/-- A stale packet is counted, the first one is captured, and the first one of each source die is recorded (R293, R371). -/
def State.dropStale (s : State) (p : Packet) : State :=
  let s := s.bumpD Reg.RING_STALE 1
  let s := if s.df Reg.RING_STALE_VALID = 1 then s
    else (((s.setD Reg.RING_STALE_EPOCH (pEpoch p)).setD Reg.RING_STALE_PKG (pSpkg p)).setD Reg.RING_STALE_DIE (pSdie p)).setD
      Reg.RING_STALE_VALID 1
  let d := (pSpkg p, pSdie p)
  if s.net.staleDies.contains d then s
  else State.note { s with net := { s.net with staleDies := s.net.staleDies ++ [d] } } 0x080B noUnit [pSpkg p + pSdie p * 2 ^ 16]

/-- Take a packet up in its turn and check it; `f` is what a sound packet does (R272, R273, R280, R293). -/
def State.sound (s : State) (port : Nat) (p : Packet) (f : State → State) : State :=
  if !s.inTurn port p then s
  else
    let s := s.take port p
    if s.isStale p then s.dropStale p
    else if s.malformed p then s.dropMalformed port
    else f s

/-- A packet for this die: what it does, with nothing done for one that is addressed elsewhere (R20, R277). -/
def State.receive (s : State) (port : Nat) (p : Packet) (f : State → State) : State :=
  if s.hop port p = .own then s.sound port p f else s

end Sys2Proof.Machine
end

