-- ==== Sys2Proof/Machine/Enum.lean ====
section
/-!
DEFINITION. Enumeration, the applied LINK_DOWN, and tick alignment (R14–R18, R269, R281–R289, R344, R345).
-/

namespace Sys2Proof.Machine

/-! Bring-up status (R345). -/

/-- BOOT.STATUS keeps the first non-zero code; codes 1 to 5 are recorded as BOOT_STATUS. -/
def State.bootStatus (s : State) (code : Nat) : State :=
  let s := if s.df Reg.BOOT_STATUS = 0 then s.setD Reg.BOOT_STATUS code else s
  if 1 ≤ code ∧ code ≤ 5 then s.noteSev 0x0B01 noUnit [code] (if code = 5 then 3 else 0) false else s

/-- Enumeration fails on this die: state, status code, event, and no valid die ID (R284, R345). -/
def State.enumFail (s : State) (st code event : Nat) : State :=
  (((s.setD Reg.RING_ENUM_STATE st).setD Reg.PLACE_VALID 0).setD Reg.BOOT_ENUM_WAIT 0).bootStatus code |>.note event noUnit []

/-! The token (R282, R283). -/

/-- TOKEN and DONE data. -/
structure Token where
  pkg : Nat
  next : Nat
  excl : Nat
  n : Nat
  ports : Nat
  hubs : Nat
  deriving DecidableEq, Repr

def Token.ofPayload (bs : List Byte) : Token :=
  let w := ofBytes bs
  ⟨fld w 15 0, fld w 23 16, fld w 31 24, fld w 39 32, fld w 71 40, fld w 199 72⟩

def Token.payload (t : Token) : List Byte :=
  toBytes 2 t.pkg ++ toBytes 1 t.next ++ toBytes 1 t.excl ++ toBytes 1 t.n ++ toBytes 4 t.ports ++ toBytes 16 t.hubs ++ List.replicate 7 0#8

/-- Mark a position in EXCL. -/
def Token.exclude (t : Token) (k : Nat) : Token := if k < 8 ∧ !bit t.excl k then { t with excl := t.excl + 2 ^ k } else t

/-- ACTIVE of BP0 to BP3, one bit each. -/
def State.portBits (s : State) : Nat := ((List.range 4).map fun p => b2n (s.portActive p) * 2 ^ p).foldl (· + ·) 0

/-- Hub die IDs of BP4 to BP7, 4 bits each. -/
def State.hubBits (s : State) : Nat :=
  ((List.range 4).map fun i => if s.role (i + 4) = 3 then s.peerOf (i + 4) * 16 ^ i else 0).foldl (· + ·) 0

/-- Enter this die's port and hub entries at its position. -/
def State.enter (s : State) (k : Nat) (t : Token) : Token :=
  { t with ports := putFld t.ports (4 * k + 3) (4 * k) s.portBits, hubs := putFld t.hubs (16 * k + 15) (16 * k) s.hubBits }

/-- The ring port on which token and DONE go on: BP0, or BP2 when BP0 is not ACTIVE. -/
def State.onward (s : State) : Nat := if s.portActive 0 then 0 else 2

/-- Forward a token whose NEXT names the die behind BP0: on BP2 that position is skipped and excluded. -/
def State.passToken (s : State) (t : Token) : State :=
  let t := if s.onward = 0 then t else { t.exclude t.next with next := t.next + 1 }
  s.sendEnum s.onward 0 t.payload

/-- The master sends its token. -/
def State.sendToken (s : State) : State :=
  let t : Token := s.enter 0 ⟨s.df Reg.PLACE_PACKAGE_ID, 1, 0, 0, 0, 0⟩
  State.passToken { s with ring := { s.ring with tokens := s.ring.tokens + 1, mine := some (s.portBits, s.hubBits) } } t

/-- Step 2 begins: the die waits for its token, and the master sends it (R282, R344). -/
def State.enumStep2 (s : State) : State :=
  let s := (s.setD Reg.BOOT_ENUM_WAIT 0).setD Reg.RING_ENUM_STATE 2
  let s : State := { s with boot := { s.boot with goHeld := false } }
  if s.df Reg.PLACE_MASTER = 1 then s.sendToken else s

/-- Step 1: HUB_QUERY on every ACTIVE hub port; then ENUM_WAIT, and step 2 at once when ENUM_GO was written before (R281, R282, R344). A
misplaced master does not enumerate. -/
def State.enumStart (s : State) : State :=
  let q := toBytes 2 (s.df Reg.PLACE_PACKAGE_ID) ++ toBytes 1 s.dieId ++ List.replicate 29 0#8
  let ps := [4, 5, 6, 7].filter s.portActive
  if s.df Reg.PLACE_MASTER = 1 ∧ s.df Reg.PLACE_POS_STRAP ≠ 0 then s.enumFail 4 9 0x0804
  else
    let s : State := { s with ring := { s.ring with queries := ps, reported := [] } }
    let s := ps.foldl (fun s p => s.sendEnum p 3 q) s
    let s := (s.setD Reg.RING_ENUM_STATE 1).setD Reg.BOOT_ENUM_WAIT 1
    if s.boot.goHeld then s.enumStep2 else s

def execEnumerationStart (s : State) : Host.Outcome State Fault Refusal :=
  s.live fun s =>
    if s.df Reg.BOOT_PHASE = 5 ∧ s.trained ∧ s.ring.placed ∧ s.df Reg.RING_ENUM_STATE = 0 then s.enumStart else s

/-- BOOT.CTRL.ENUM_GO is written with 1; a write before ENUM_WAIT is held (R344). -/
def State.enumGo (s : State) : State :=
  if s.df Reg.BOOT_ENUM_WAIT = 1 then s.enumStep2 else { s with boot := { s.boot with goHeld := true } }

/-! Hub replies (R269, R282). -/

/-- An ENUM packet of a subtype, one hop. -/
def State.enumIn (s : State) (port sub : Nat) (p : Packet) (f : State → State) : State := s.sound port (asSub 5 sub (asType 7 p)) f

/-- The hub map as this die knows it before DONE, by its strapped position. -/
def State.setHub (s : State) (port id : Nat) : State :=
  { s with ring := { s.ring with hubs := Sparse.put 0 s.ring.hubs (4 * s.df Reg.PLACE_POS_STRAP + port - 4) id } }

/-- Two hub ports report one hub die: both are unused, go DOWN with cause role conflict and are powered down (R15, R16, R269). One that a
conflict has taken down already stays so. -/
def State.hubConflict (s : State) (p q id : Nat) : State :=
  let out (s : State) (x : Nat) : State := if s.portActive x then ((s.setHub x 0).portDown x 6).portOff x else s
  (out (out s p) q).note 0x0003 (min p q) [max p q, id]

/-- The query of a port is answered, or its time is over. -/
def State.closeQuery (s : State) (port : Nat) : State :=
  { s with ring := { s.ring with queries := s.ring.queries.filter (· ≠ port) } }

/-- A reply in time (R269): a bad one is treated as none; an ID that another port has reported conflicts, whatever became of that port. -/
def State.hubReply (s : State) (port : Nat) (p : Packet) : State :=
  let id := fld (ofBytes p.payload) 23 16
  if id < 8 ∨ 16 ≤ id ∨ enumPkg p ≠ s.df Reg.PLACE_PACKAGE_ID then s.setRole port 0 0
  else
    let rival := s.ring.reported.find? fun x => decide (x.1 ≠ port) && decide (x.2 = id)
    let s := s.closeQuery port
    let s : State := { s with ring := { s.ring with reported := s.ring.reported ++ [(port, id)] } }
    match rival with
    | some x => s.hubConflict port x.1 id
    | none => (s.setRole port 3 id).setHub port id

/-- A HUB_REPLY counts while the 10 µs of its port's query last (R282); a later one is taken up and does nothing. -/
def execHubReply (port : Nat) (p : Packet) (s : State) : Host.Outcome State Fault Refusal :=
  s.live fun s =>
    if 4 ≤ port ∧ port < 8 ∧ s.portActive port then
      s.enumIn port 4 p fun s => if s.ring.queries.contains port then s.hubReply port p else s
    else s

/-- A hub port with no reply within 10 µs has role unused. -/
def execHubQueryTimeout (port : Nat) (s : State) : Host.Outcome State Fault Refusal :=
  s.live fun s => if s.ring.queries.contains port then (s.closeQuery port).setRole port 0 0 else s

/-! DONE (R14, R16, R282). -/

/-- RING.LINKS of a finished token: both ends ACTIVE and neither in EXCL. -/
def Token.links (t : Token) : Nat :=
  let up (k p : Nat) : Bool := bit t.ports (4 * k + p) && !bit t.excl k
  ((List.range t.n).map fun k =>
    let a := (k + 1) % t.n
    let b := (k + 2) % t.n
    b2n (up k 0 && up a 1) * 2 ^ (2 * k) + b2n (decide (4 ≤ t.n) && up k 2 && up b 3) * 2 ^ (2 * k + 1)).foldl (· + ·) 0

/-- The hub map of a finished token. -/
def Token.hubMap (t : Token) : Sparse Nat :=
  (List.range 32).foldl (fun m i => Sparse.put 0 m i (fld t.hubs (4 * i + 3) (4 * i))) []

/-- ROLE and PEER of ring port p (R14). -/
def State.ringRole (s : State) (p : Nat) : State :=
  if (ringPorts s.ringSize).contains p && s.portActive p then s.setRole p (if p < 2 then 1 else 2) (ringPeer s.ringSize s.dieId p)
  else s.setRole p 0 0

/-- An enumerated die applies DONE, powers its unused ports down, and says HELLO. -/
def State.applyDone (s : State) (t : Token) : State :=
  let s := (s.setD Reg.PLACE_RING_SIZE t.n).setD Reg.RING_EXCL t.excl
  let s := [0, 1, 2, 3].foldl State.ringRole s
  let s : State := { s with ring := { s.ring with hubs := t.hubMap, downs := [] } }
  let s := (s.setD Reg.RING_LINKS t.links).routes
  let s := (s.setD Reg.RING_ENUM_STATE 3).setD Reg.BOOT_ENUM_WAIT 0
  let s := ((List.range 8).filter fun p => decide (s.role p = 0)).foldl State.portOff s
  let hello := toBytes 2 (s.df Reg.PLACE_PACKAGE_ID) ++ toBytes 1 s.dieId ++ List.replicate 29 0#8
  ([2, 3].filter s.portActive).foldl (fun s p => s.sendEnum p 2 hello) s

/-- DONE at a die that is not the master: an enumerated die applies it, and every die sends it on once. -/
def State.enumDone (s : State) (t : Token) : State :=
  if s.df Reg.PLACE_MASTER = 1 then s
  else
    let out := s.onward
    let s := if s.df Reg.PLACE_VALID = 1 ∧ s.df Reg.RING_ENUM_STATE = 2 then s.applyDone t else s
    s.sendEnum out 1 t.payload

def execEnumDone (port : Nat) (p : Packet) (s : State) : Host.Outcome State Fault Refusal :=
  s.live fun s => if port < 4 then s.enumIn port 1 p fun s => s.enumDone (Token.ofPayload p.payload) else s

/-! TOKEN (R17, R18, R282). -/

/-- The token is back at the master: N, its own identity, DONE, and alignment at the next edge. A master without a ring peer on BP0 or BP1 stays
unenumerated like any other die (R13; notes/assumptions/53.md). -/
def State.tokenReturn (s : State) (port : Nat) (t : Token) : State :=
  if !(s.portActive 0 || s.portActive 1) then s.enumFail 5 8 0x0806
  else
  let n := t.next - if port = 3 then 1 else 0
  let t := { t with n := n }
  let s := (s.setD Reg.PLACE_DIE_ID 0).setD Reg.PLACE_VALID 1
  let s := s.sendEnum s.onward 1 t.payload
  let s := s.applyDone t
  { s with ring := { s.ring with go := true } }

/-- The token at a die that is not the master: it passes and takes its ID, or it is excluded; the token goes on. -/
def State.tokenPass (s : State) (t : Token) : State :=
  let k := t.next
  let s : State := { s with ring := { s.ring with seen := true } }
  if t.pkg = s.df Reg.PLACE_PACKAGE_ID ∧ k = s.df Reg.PLACE_POS_STRAP ∧ (s.portActive 0 ∨ s.portActive 1) then
    let s := (s.setD Reg.PLACE_DIE_ID k).setD Reg.PLACE_VALID 1
    s.passToken { s.enter k t with next := k + 1 }
  else
    let s := if s.df Reg.RING_ENUM_STATE = 5 then s else s.enumFail 5 8 0x0806
    s.passToken { t.exclude k with next := k + 1 }

/-- Is the token one that this master sent: it returns on BP1 or BP3 with the PKG and the position-0 entries that it left with (R281, R282;
notes/assumptions/53.md)? -/
def State.ownToken (s : State) (port : Nat) (t : Token) : Bool :=
  decide (port = 1 ∨ port = 3) && decide (t.pkg = s.df Reg.PLACE_PACKAGE_ID) && decide (s.ring.mine = some (fld t.ports 3 0, fld t.hubs 15 0))

/-- A TOKEN at a die. A foreign one at the master is dropped and recorded, and fails an enumeration that is not complete (R281, R284). -/
def State.tokenIn (s : State) (port : Nat) (t : Token) : State :=
  let st := s.df Reg.RING_ENUM_STATE
  if s.df Reg.PLACE_MASTER = 1 then
    if !s.ownToken port t then (if st = 3 then s.note 0x0805 noUnit [] else s.enumFail 4 10 0x0805)
    else if st = 2 then s.tokenReturn port t
    else s
  else if st = 1 ∨ st = 2 ∨ st = 5 then s.tokenPass t
  else s

def execToken (port : Nat) (p : Packet) (s : State) : Host.Outcome State Fault Refusal :=
  s.live fun s => if port < 4 then s.enumIn port 0 p fun s => s.tokenIn port (Token.ofPayload p.payload) else s

/-- No token comes back for 1 ms: the master sends it again up to three times; then it, and every die that saw a token, an excluded one
too, fails (R284). -/
def execTokenReturnTimeout (s : State) : Host.Outcome State Fault Refusal :=
  s.live fun s =>
    let st := s.df Reg.RING_ENUM_STATE
    if s.df Reg.PLACE_MASTER = 1 ∧ st = 2 then (if s.ring.tokens < 4 then s.sendToken else s.enumFail 4 7 0x0807)
    else if s.df Reg.PLACE_MASTER = 0 ∧ (st = 2 ∨ st = 5) ∧ s.ring.seen then s.enumFail 4 7 0x0807
    else s

/-- No token within 5 ms of step 2 (R284). -/
def execTokenWaitTimeout (s : State) : Host.Outcome State Fault Refusal :=
  s.live fun s =>
    if s.df Reg.RING_ENUM_STATE = 2 ∧ s.df Reg.PLACE_MASTER = 0 ∧ s.ring.seen = false then s.enumFail 4 7 0x0807 else s

/-! HELLO (R282). -/

def State.hello (s : State) (port : Nat) (p : Packet) : State :=
  if fld (ofBytes p.payload) 23 16 = ringPeer (max 1 s.ringSize) s.dieId port then s
  else (s.portDown port 5).note 0x0808 port []

/-- A HELLO is checked once DONE has told the die N. -/
def execHello (port : Nat) (p : Packet) (s : State) : Host.Outcome State Fault Refusal :=
  s.live fun s =>
    if (port = 2 ∨ port = 3) ∧ s.portActive port ∧ s.df Reg.RING_ENUM_STATE = 3 then s.enumIn port 2 p fun s => s.hello port p else s

/-! LINK_DOWN (R289). -/

/-- Apply a LINK_DOWN that is new and send it on. -/
def State.linkDown (s : State) (port : Nat) (p : Packet) : State :=
  if s.ring.downs.contains p.payload then s
  else
    let w := ofBytes p.payload
    let k := fld w 23 16
    let b3 := fld w 31 24
    let b4 := fld w 39 32
    let i := 2 * (b3 % 8) + b3 / 8 % 2
    let s : State := { s with ring := { s.ring with downs := s.ring.downs ++ [p.payload], stale := true } }
    let s := s.bumpD Reg.RING_LINK_DOWNS 1
    let s := if bit b4 2 then { s with ring := { s.ring with hubs := Sparse.put 0 s.ring.hubs (4 * k + b4 % 4) 0 } }
      else if bit (s.df Reg.RING_LINKS) i then s.setD Reg.RING_LINKS (s.df Reg.RING_LINKS - 2 ^ i)
      else s
    (s.ringActive.filter (· ≠ port)).foldl (fun s q => s.sendEnum q 5 p.payload) s

def execLinkDown (port : Nat) (p : Packet) (s : State) : Host.Outcome State Fault Refusal :=
  s.live fun s => if port < 4 then s.enumIn port 5 p fun s => s.linkDown port p else s

/-! Tick alignment (R285–R287). -/

/-- The timestamp `d` cycles from now. -/
def State.stampIn (s : State) (d : Nat) : Nat :=
  let p := s.inForce Reg.CTRL_PERIOD
  let x := s.tickCycle + d
  (s.tickCount + x / p) % 2 ^ 40 * 2 ^ 24 + x % p

/-- Cycles of the reference clock in a number of REFCLK periods (R286). -/
def refCycles (n : Nat) : Nat := n * 136 / 25

/-- The master forms and sends ALIGN at E0; `refs` is the SYNC_TICK period in REFCLK periods. -/
def State.sendAlign (s : State) (refs : Nat) : State :=
  let v := s.stampIn (refCycles refs)
  let s : State := { s with ring := { s.ring with go := false, align := some v, aligns := [v] } }
  ([0, 1].filter s.portActive).foldl (fun s p =>
    s.postPort p (s.packet ⟨0, 0, 0, 0⟩ 2 0 { vl := 2, type := 6, sub := 0, addr := v })) s

/-- E1: the timestamp becomes V. -/
def State.setAligned (s : State) (v : Nat) : State :=
  let old := s.lin
  let s := ((s.setD Reg.CTRL_TIMESTAMP v).setD Reg.RING_ALIGNED 1).shiftStamps old
  let s := (s.setD Reg.RING_LAG 0).setD Reg.RING_EDGES 0
  { s with ring := { s.ring with align := none, base := s.lin, refs := 0 } }

/-- A later edge: LAG = E − C. -/
def State.measureLag (s : State) (refs : Nat) : State :=
  let s : State := { s with ring := { s.ring with refs := s.ring.refs + refs } }
  (s.setD Reg.RING_LAG (refCycles s.ring.refs - (s.lin - s.ring.base))).bumpD Reg.RING_EDGES 1

/-- A rising edge of SYNC_TICK; `refs` is its period in REFCLK periods. -/
def State.syncEdge (s : State) (refs : Nat) : State :=
  let s := match s.ring.align with
    | some v => s.setAligned v
    | none => if s.df Reg.RING_ALIGNED = 1 then s.measureLag refs else s
  if s.ring.go ∧ s.df Reg.PLACE_MASTER = 1 then s.sendAlign refs else s

/-- An edge during a freeze only counts its REFCLK periods, which thus enter LAG (R405). -/
def execSyncTickEdge (refs : Nat) (s : State) : Host.Outcome State Fault Refusal :=
  .next (if s.frozen then { s with ring := { s.ring with refs := s.ring.refs + refs } } else s.syncEdge refs)

/-- A TIME ALIGN: forwarded once; its value is set at the next edge, unless a task runs here (R285, R287). -/
def State.alignIn (s : State) (port : Nat) (p : Packet) : State :=
  let v := pAddr p
  if s.ring.aligns.contains v then s
  else
    let s : State := { s with ring := { s.ring with aligns := [v] } }
    let s := (s.ringActive.filter (· ≠ port)).foldl (fun s q => s.postPort q p) s
    if s.taskRuns then (s.setD Reg.RING_ALIGNED 0).note 0x0809 noUnit []
    else { s with ring := { s.ring with align := some v } }

def execAlign (port : Nat) (p : Packet) (s : State) : Host.Outcome State Fault Refusal :=
  s.live fun s => let p := asSub 1 0 (asType 6 p); if port < 4 then s.sound port p fun s => s.alignIn port p else s

end Sys2Proof.Machine
end

