-- ==== Sys2Proof/Machine/Operands.lean ====
section
/-!
DEFINITION. Operand forms: the slots of a bundle and their fields (R182–R201), the illegal encodings (R187), and handles with their access checks (R211–R214).
-/

namespace Sys2Proof.Machine

/-! The slots of a bundle (R182). -/

def bHdr (b : Bundle) : Nat := fld b.toNat 7 0
def bS (b : Bundle) : Nat := fld b.toNat 39 8
def bM (b : Bundle) : Nat := fld b.toNat 103 40
def bV (b : Bundle) : Nat := fld b.toNat 159 104
def bT (b : Bundle) : Nat := fld b.toNat 183 160
def bX (b : Bundle) : Nat := fld b.toNat 231 184
def bY (b : Bundle) : Nat := fld b.toNat 255 232

/-- PAIR and DELAY of the header (R183). -/
def bPair (b : Bundle) : Nat := fld (bHdr b) 2 0
def bDelay (b : Bundle) : Nat := fld (bHdr b) 7 3

/-- Replace the opcode field of a slot: `lo` its lowest bundle bit, `w` its width. -/
def setOpcode (b : Bundle) (lo w op : Nat) : Bundle :=
  BitVec.ofNat 256 (b.toNat - fld b.toNat (lo + w - 1) lo * 2 ^ lo + op * 2 ^ lo)

/-- The slots that a pairing borrows (R185): T, X and Y. -/
def borrowsT (b : Bundle) : Bool := bPair b = 1 || bPair b = 3 || bPair b = 4
def borrowsX (b : Bundle) : Bool := bPair b = 2 || bPair b = 4
def borrowsY (b : Bundle) : Bool := bPair b = 3

/-- The 48-bit export extension, where the pairing supplies one (R185, R193). -/
def bExt (b : Bundle) : Option Nat :=
  if bPair b = 2 ∨ bPair b = 4 then some (bX b)
  else if bPair b = 3 then some (bT b + bY b * 2 ^ 24) else none

/-- The lowest reason of a list of checks in rising order of reason. -/
def firstReason : List (Nat × Bool) → Option Nat
  | [] => none
  | (r, bad) :: rest => if bad then some r else firstReason rest

/-- Formats of V operations (R195). -/
inductive VForm where
  | nop | r | c | x | m | l
  deriving DecidableEq, Repr

/-- Format and used fields of a V-slot opcode: a, b, c sources; RM, SW, SUB used. -/
structure VUse where
  form : VForm
  a : Bool := false
  b : Bool := false
  c : Bool := false
  rm : Bool := false
  sw : Bool := false
  sub : Bool := false
  deriving DecidableEq, Repr

/-- The V-slot operations of R195. -/
def vUse (op : Nat) : Option VUse :=
  match op with
  | 0x00 => some { form := .nop }
  | 0x01 | 0x02 | 0x03 => some { form := .r, a := true, b := true, rm := true }
  | 0x04 | 0x05 => some { form := .r, a := true, b := true, c := true, rm := true }
  | 0x06 | 0x07 => some { form := .r, a := true, b := true }
  | 0x08 | 0x09 => some { form := .r, a := true }
  | 0x10 | 0x11 | 0x12 => some { form := .r, a := true, b := true, sw := true }
  | 0x13 | 0x14 | 0x15 | 0x16 | 0x17 | 0x18 | 0x19 | 0x1A | 0x1B => some { form := .r, a := true, b := true }
  | 0x1C => some { form := .r, a := true }
  | 0x20 | 0x21 => some { form := .r, a := true, b := true, sub := true }
  | 0x22 => some { form := .r, a := true, b := true, c := true }
  | 0x23 => some { form := .r, a := true, b := true }
  | 0x24 => some { form := .r, a := true, b := true, sub := true }
  | 0x28 | 0x29 => some { form := .r, a := true, sub := true }
  | 0x30 | 0x31 | 0x32 | 0x33 => some { form := .c, a := true, rm := true }
  | 0x38 | 0x39 | 0x3A | 0x3B | 0x3C | 0x3D => some { form := .x, a := true, rm := true }
  | 0x40 | 0x41 => some { form := .m }
  | 0x48 | 0x49 | 0x50 => some { form := .l }
  | _ => none

/-- Source code of a five-bit source field, and its broadcast bit (R196). -/
def srcCode (f : Nat) : Nat := f % 16
def srcBcast (f : Nat) : Bool := decide (16 ≤ f)

def vOp (v : Nat) : Nat := fld v 6 0
def vDst (v : Nat) : Nat := fld v 10 7
def vSA (v : Nat) : Nat := fld v 15 11
def vSB (v : Nat) : Nat := fld v 20 16
def vSC (v : Nat) : Nat := fld v 25 21
def vRM (v : Nat) : Nat := fld v 27 26
def vSW (v : Nat) : Bool := bit v 28
def vQB (v : Nat) : Nat := fld v 35 30
def vSUB (v : Nat) : Nat := fld v 39 36
def vImm16 (v : Nat) : Nat := fld v 55 40

/-- Shuffle patterns that read b (R151, R195). -/
def shufReadsB (p : Nat) : Bool := decide (2 ≤ p) && decide (p ≤ 5)

/-- The five-bit source fields an operation of form V-R, V-C or V-X uses. -/
def vSources (v : Nat) : List Nat :=
  match vUse (vOp v) with
  | some u =>
    match u.form with
    | .r => (if u.a then [vSA v] else []) ++
        (if u.b && (vOp v != 0x24 || shufReadsB (vSUB v)) then [vSB v] else []) ++ (if u.c then [vSC v] else [])
    | .c | .x => [vSA v]
    | _ => []
  | none => []

/-- Does the operation of form V-R name the immediate? -/
def vNamesImm (v : Nat) : Bool := (vSources v).any fun f => srcCode f = 0xA

/-- The illegal field values of the V slot, by reason (R187, R195, R196). -/
def vBreach (v : Nat) : Option Nat :=
  let op := vOp v
  match vUse op with
  | none => some 0
  | some u =>
    let srcs := vSources v
    let badSrc := srcs.any fun f => 0xC ≤ srcCode f
    let imms := (srcs.filter fun f => srcCode f = 0xA).length
    let dst := vDst v
    let badDst := decide (8 ≤ dst) && decide (dst ≠ 0xB)
    let cache := decide (dst = 0xB) || srcs.any fun f => srcCode f = 0xB
    let qbBad := !cache && decide (vQB v ≠ 0)
    match u.form with
    | .nop => firstReason [(2, fld v 55 7 ≠ 0)]
    | .r =>
      let subBad := match op with
        | 0x20 | 0x21 => decide (6 ≤ vSUB v)
        | 0x24 => decide (8 ≤ vSUB v)
        | 0x28 | 0x29 => decide (4 ≤ vSUB v)
        | _ => false
      let usesB := u.b && (op != 0x24 || shufReadsB (vSUB v))
      firstReason
        [(1, badSrc || subBad || (u.rm && vRM v = 3) || badDst),
         (2, (!u.a && vSA v != 0) || (!usesB && vSB v != 0) || (!u.c && vSC v != 0) || (!u.rm && vRM v != 0) ||
             (!u.sw && vSW v) || bit v 29 || (!u.sub && vSUB v != 0) ||
             (if op = 0x24 then fld v 55 46 != 0 else imms = 0 && vImm16 v != 0) || qbBad),
         (6, 1 < imms || (op = 0x24 && imms != 0) || srcs.any fun f => srcCode f = 0xA && srcBcast f)]
    | .c =>
      let split := op = 0x32 || op = 0x33
      let sf := fld v 19 16
      let df := fld v 23 20
      firstReason
        [(1, badSrc || badDst || (!split && ((Format.ofCode sf).isNone || (Format.ofCode df).isNone || vRM v = 3)) ||
             (op = 0x31 && fld v 40 39 = 3)),
         (2, fld v 25 24 != 0 || fld v 55 47 != 0 || qbBad || (op != 0x31 && fld v 46 36 != 0) ||
             (split && (sf != 0 || df != 0 || vRM v != 0 || vSW v || bit v 29))),
         (5, op = 0x31 && (match Format.ofCode sf with | some f => f.isInt | none => false)),
         (6, imms != 0)]
    | .x =>
      let amax := op = 0x3D
      firstReason
        [(1, badSrc || badDst || vRM v = 3 || (amax && ((Format.ofCode (fld v 39 36)).isNone || fld v 41 40 = 3))),
         (2, fld v 25 23 != 0 || fld v 29 28 != 0 || fld v 55 43 != 0 || qbBad || (!amax && fld v 42 36 != 0) ||
             (bit v 16 && fld v 22 17 != 0)),
         (5, vRM v = 2),
         (6, imms != 0)]
    | .m =>
      let load := op = 0x40
      let sa := vSA v
      let named := if load then dst = 0xB else srcCode sa = 0xB
      firstReason
        [(1, if load then badDst else decide (0xC ≤ srcCode sa)),
         (2, (if load then sa != 0 else dst != 0) || fld v 29 27 != 0 || fld v 55 36 != 0 || (!named && vQB v != 0)),
         (6, !load && srcCode sa = 0xA)]
    | .l =>
      match op with
      | 0x48 => firstReason [(2, fld v 55 19 != 0)]
      | 0x49 => firstReason [(2, fld v 55 17 != 0)]
      | _ => firstReason [(1, fld v 33 32 = 3), (2, fld v 55 36 != 0)]

/-- The illegal field values of the S slot (R188); `delay` is the header's. -/
def sBreach (w delay : Nat) : Option Nat :=
  let op := fld w 5 0
  if op = 0 then firstReason [(2, fld w 31 6 ≠ 0)]
  else if 1 ≤ op ∧ op ≤ 0xB then firstReason [(2, fld w 31 21 ≠ 0)]
  else if 0x10 ≤ op ∧ op ≤ 0x12 then none
  else if op = 0x13 then firstReason [(2, fld w 15 13 ≠ 0)]
  else if op = 0x14 ∨ op = 0x15 then none
  else if op = 0x16 then firstReason [(1, 7 ≤ fld w 15 11), (2, fld w 31 16 ≠ 0)]
  else if op = 0x17 then firstReason [(2, fld w 31 17 ≠ 0), (5, 28 < fld w 16 12)]
  else if 0x20 ≤ op ∧ op ≤ 0x23 then none
  else if op = 0x24 then firstReason [(2, fld w 15 6 ≠ 0)]
  else if op = 0x25 then firstReason [(2, fld w 31 11 ≠ 0)]
  else if op = 0x26 then firstReason [(2, fld w 10 8 ≠ 0 ∨ fld w 31 16 ≠ 0)]
  else if op = 0x27 then firstReason [(2, fld w 15 8 ≠ 0)]
  else if op = 0x28 then firstReason [(2, fld w 15 8 ≠ 0), (5, fld w 31 31 = 0)]
  else if op = 0x29 then firstReason [(2, fld w 11 6 ≠ 0)]
  else if op = 0x2A then firstReason [(5, fld w 13 6 = 0 ∨ fld w 31 20 = 0)]
  else if op = 0x2B then firstReason [(2, fld w 31 20 ≠ 0), (5, 12287 < fld w 19 6 ∨ delay ≠ 0)]
  else some 0

/-- The illegal field values of the M slot (R71, R131, R192–R194). -/
def mBreach (w : Nat) (ext : Option Nat) : Option Nat :=
  match fld w 3 0 with
  | 0 => firstReason [(2, fld w 63 4 ≠ 0)]
  | 1 =>
    let fa := fld w 52 49
    let fw := fld w 56 53
    let float (x : Nat) : Bool := 4 ≤ x && x ≤ 10
    firstReason [(1, (Format.ofCode fa).isNone || (Format.ofCode fw).isNone),
      (4, !((float fa && float fw) || (decide (fa ≤ 1) && decide (fw ≤ 1))))]
  | 2 =>
    let mode := fld w 23 22
    let ofmt := fld w 27 24
    let dest := fld w 32 31
    let fop := fld w 34 33
    let stats := fld w 36 35
    let hist := fld w 38 37
    let x := ext.getD 0
    let isInt := match Format.ofCode ofmt with | some f => f.isInt | none => false
    firstReason
      [(1, mode = 3 || (Format.ofCode ofmt).isNone || fld w 29 28 = 3 || dest = 3 || fop = 3 || hist = 3 ||
           (ext.isSome && fop != 0 && (Format.ofCode (fld x 9 6)).isNone)),
       (2, fld w 63 58 != 0 || (dest = 1 && fld w 57 55 != 0) || (dest = 0 && fld w 57 49 != 0) || fld x 47 37 != 0 ||
           (fop = 0 && fld x 9 0 != 0) || (!bit x 16 && fld x 15 10 != 0) || (!bit x 23 && fld x 22 17 != 0) ||
           (!bit x 30 && fld x 29 24 != 0) || (stats = 0 && fld x 36 31 != 0)),
       (5, (ext.isNone && (fop != 0 || stats != 0)) ||
           (mode = 1 && (isInt || !bit x 30 || stats != 0)) || (mode != 1 && bit x 30) ||
           (mode = 2 && (fop != 0 || stats != 0 || hist != 0 || dest != 1)) ||
           (dest != 1 && ofmt != 0xB && ofmt != 0x2))]
  | 3 => firstReason [(2, fld w 63 24 ≠ 0)]
  | _ => some 0

/-- The illegal field values of the T, X and Y slots (R197, R198, R201). -/
def tBreach (w : Nat) : Option Nat :=
  match fld w 2 0 with
  | 0 | 3 => firstReason [(2, fld w 23 3 ≠ 0)]
  | 1 => firstReason [(1, 5 ≤ fld w 5 3 ∨ fld w 13 12 = 3), (2, fld w 23 14 ≠ 0), (5, fld w 13 12 = 2)]
  | 2 => firstReason [(1, 5 ≤ fld w 5 3), (2, fld w 23 17 ≠ 0)]
  | _ => some 0

def xBreach (w : Nat) : Option Nat :=
  match fld w 4 0 with
  | 0 => firstReason [(2, fld w 47 5 ≠ 0)]
  | 1 => firstReason [(2, fld w 47 34 ≠ 0)]
  | 2 => firstReason [(2, fld w 47 35 ≠ 0)]
  | 3 => firstReason [(2, fld w 47 26 ≠ 0)]
  | 4 => firstReason [(2, fld w 47 37 ≠ 0 ∨ (fld w 28 28 = 0 ∧ fld w 36 29 ≠ 0))]
  | _ => some 0

def yBreach (w : Nat) : Option Nat :=
  match fld w 3 0 with
  | 0 => firstReason [(2, fld w 23 4 ≠ 0)]
  | 1 => firstReason [(2, fld w 23 10 ≠ 0)]
  | 2 => firstReason [(2, fld w 23 15 ≠ 0)]
  | 3 => firstReason [(5, fld w 23 12 = 0)]
  | 4 => firstReason [(2, fld w 23 17 ≠ 0)]
  | 5 | 6 => firstReason [(2, fld w 23 22 ≠ 0)]
  | 7 => firstReason [(2, fld w 23 7 ≠ 0)]
  | 8 => firstReason [(2, fld w 23 12 ≠ 0)]
  | 9 | 10 => firstReason [(2, fld w 23 9 ≠ 0)]
  | _ => some 0

/-- A breach of the pairing rules (R185). -/
def pairBreach (b : Bundle) : Bool :=
  let vBad := match vUse (vOp (bV b)) with
    | some u => u.form ≠ .r || !vNamesImm (bV b) || vOp (bV b) = 0x24 || fld (bT b) 23 16 != 0
    | none => true
  let mBad := fld (bM b) 3 0 != 2
  match bPair b with
  | 1 => vBad
  | 2 | 3 => mBad
  | 4 => vBad || mBad
  | _ => false

/-- The first breach of R187 in a bundle: slot (0 header, 7 pairing, 1–6 the slots) and reason. -/
def bundleBreach (b : Bundle) : Option (Nat × Nat) :=
  if 5 ≤ bPair b then some (0, 1)
  else if pairBreach b then some (7, 3)
  else match sBreach (bS b) (bDelay b) with
  | some r => some (1, r)
  | none =>
    match mBreach (bM b) (bExt b) with
    | some r => some (2, r)
    | none =>
      match vBreach (bV b) with
      | some r => some (3, r)
      | none =>
        match (if borrowsT b then none else tBreach (bT b)) with
        | some r => some (4, r)
        | none =>
          match (if borrowsX b then none else xBreach (bX b)) with
          | some r => some (5, r)
          | none =>
            match (if borrowsY b then none else yBreach (bY b)) with
            | some r => some (6, r)
            | none => none

/-- The immediate of a V-R operation as the pairing supplies it: the value and whether it is 32 bits wide (R150, R185). -/
def vImmediate (b : Bundle) : Nat × Bool :=
  if bPair b = 1 ∨ bPair b = 4 then (vImm16 (bV b) + fld (bT b) 15 0 * 65536, true) else (vImm16 (bV b), false)

/-! Handles (R211–R214). -/

/-- A handle as its two words hold it. -/
structure Handle where
  base : Nat
  extent : Nat
  kind : Nat
  view : Nat
  index : Nat
  assoc : Bool
  deriving DecidableEq, Repr

/-- A handle from bytes 0–7 and 8–15 (R211). -/
def Handle.ofWords (w0 w1 : Nat) : Handle :=
  ⟨w0, fld w1 39 0, fld w1 43 40, fld w1 45 44, fld w1 55 48, bit w1 56⟩

/-- The two stored words of handle h of core c. -/
def State.handleWords (s : State) (c h : Nat) : Nat × Nat :=
  (s.rd Reg.HANDLE_BASE c h,
   s.rd Reg.HANDLE_EXTENT c h + s.rd Reg.HANDLE_KIND c h * 2 ^ 40 + s.rd Reg.HANDLE_VIEW c h * 2 ^ 44 +
   s.rd Reg.HANDLE_INDEX c h * 2 ^ 48 + s.rd Reg.HANDLE_ASSOC c h * 2 ^ 56)

/-- Write the two words of a handle; reserved bits are not kept. -/
def State.setHandleWords (s : State) (c h w0 w1 : Nat) : State :=
  (((((s.wr Reg.HANDLE_BASE c h w0).wr Reg.HANDLE_EXTENT c h (fld w1 39 0)).wr Reg.HANDLE_KIND c h (fld w1 43 40)).wr
    Reg.HANDLE_VIEW c h (fld w1 45 44)).wr Reg.HANDLE_INDEX c h (fld w1 55 48)).wr Reg.HANDLE_ASSOC c h (fld w1 56 56)

/-- Handle h as the current bundle of core c resolves it: its value at the start of the issue cycle (R186, R211). -/
def State.handle (s : State) (c h : Nat) : Handle :=
  let now := s.handleWords c h
  match (s.core c).seq.view.oldHandle with
  | some (h', w0, w1) => if h' = h then Handle.ofWords w0 w1 else Handle.ofWords now.1 now.2
  | none => Handle.ofWords now.1 now.2

/-- VIEW, INDEX and ASSOC hold values that the kind admits (R212). -/
def Handle.formOk (h : Handle) : Bool :=
  match h.kind with
  | 1 => decide (h.view ≠ 3) && (if h.assoc then decide (h.index < 32) else decide (h.index = 0))
  | 5 => decide (h.view = 0) && !h.assoc && decide (h.index < 32)
  | 6 => decide (h.view = 0) && !h.assoc && decide (h.index < 256)
  | 2 | 3 | 4 => decide (h.view = 0) && !h.assoc && decide (h.index = 0)
  | _ => false

/-- BASE, EXTENT and alignment lie inside the object of the kind (R211, R212). -/
def Handle.objectOk (h : Handle) : Bool :=
  match h.kind with
  | 1 => let al := if h.view = 2 then 8 else 16
         decide (h.base % al = 0) && decide (h.extent % al = 0) && decide (h.base + h.extent ≤ bedSize)
  | 2 => decide (h.base % 16 = 0) && decide (h.extent % 16 = 0) && decide (h.base + h.extent ≤ 8192)
  | 3 => decide (h.base % 16 = 0) && decide (h.extent % 16 = 0) && decide (h.base + h.extent ≤ yardSize)
  | 4 => decide (h.base % 16 = 0)
  | 5 => decide (h.base % 16 = 0)
  | 6 => decide (h.base % 2 ^ 20 = 0)
  | _ => false

/-- R212: the access of `len` bytes at `off` is inside a well-formed handle. -/
def Handle.admits (h : Handle) (off len : Nat) : Bool :=
  h.formOk && h.objectOk && decide (0 < h.extent) && decide (off + len ≤ h.extent)

/-- A wide bed handle that admits the access. -/
def Handle.wide (h : Handle) (off len : Nat) : Bool := decide (h.kind = 1) && decide (h.view ≠ 2) && h.admits off len

/-- A narrow bed handle that admits the access. -/
def Handle.narrow (h : Handle) (off len : Nat) : Bool := decide (h.kind = 1) && decide (h.view ≠ 1) && h.admits off len

/-- Word i of window descriptor w of core c (R244). -/
def State.winWord (s : State) (c w i : Nat) : Nat := Sparse.get 0 (s.core c).windows (8 * w + i)

/-- OPEN of window w of core c. -/
def State.windowOpen (s : State) (c w : Nat) : Bool := bit (s.winWord c w 0) 0

/-- R214: a write by an engine of the handle's own core is shut out while the associated window is open. -/
def State.writable (s : State) (c : Nat) (h : Handle) : Bool := !(h.assoc && s.windowOpen c h.index)

end Sys2Proof.Machine
end

