-- ==== Sys2Proof/Machine/Overrun.lean ====
section
/-!
DEFINITION. The deadline of a course: the ISSUE capture, courses longer than their header says, overruns and slips (R50–R55, R190).
-/

namespace Sys2Proof.Machine

/-! Fault captures. Each fills once after task start (R369). -/

/-- Capture in the ISSUE page (R187, R202). -/
def State.captureIssue (s : State) (c fault slot reason : Nat) : State :=
  let q := (s.core c).seq
  if s.cf Reg.ISSUE_FAULT c ≠ 0 then s else
  let b := q.bundle.toNat
  ((((((((s.setC Reg.ISSUE_FAULT c fault).setC Reg.ISSUE_SLOT c slot).setC Reg.ISSUE_REASON c reason).setC
    Reg.ISSUE_CYCLE c q.cycle).setC Reg.ISSUE_INDEX c q.index).setC Reg.ISSUE_BUNDLE0 c (fld b 63 0)).setC
    Reg.ISSUE_BUNDLE1 c (fld b 127 64)).setC Reg.ISSUE_BUNDLE2 c (fld b 191 128)).setC Reg.ISSUE_BUNDLE3 c (fld b 255 192)

/-- The deadline dl of the course (R50). -/
def State.deadline (s : State) : Nat :=
  s.inForce Reg.CTRL_PERIOD - 1 - (if s.inForce Reg.CTRL_SLIP_ENABLE = 1 then s.inForce Reg.CTRL_SLIP_LEAD else 0)

/-- The last cycle of dl in the present tick as a cycle count. -/
def State.deadlineLin (s : State) : Nat := s.tickCount * s.inForce Reg.CTRL_PERIOD + s.deadline

/-! Overruns (R51, R52, R55). -/

/-- Participants that have not retired COURSE_END, in rising order of ID. -/
def State.unretired (s : State) : List Nat := (List.range 1024).filter fun c => s.task.parts.contains c && (s.core c).seq.inCourse

/-- Bond ports whose role is not unused (R53). -/
def State.usedPorts (s : State) : List Nat := (List.range 8).filter fun p => fld (s.df Reg.PLACE_ROLE) (2 * p + 1) (2 * p) ≠ 0

/-- A TIME SLIP notice for a target tick, sent on every used port but `except` (R53). -/
def State.sendSlip (s : State) (target except : Nat) : State :=
  (s.usedPorts.filter fun p => p ≠ except).foldl (fun s p =>
    s.postPort p (s.packet ⟨0, 0, 0, 0⟩ 2 0 { vl := 2, type := 6, sub := 1, addr := target })) s

/-- Capture the lowest overrunning core of the last overrun. -/
def State.captureOverrun (s : State) (c : Nat) : State := (s.setD Reg.CTRL_OVERRUN_CORE c).setD Reg.CTRL_OVERRUN_VALID 1

/-- A tick at which no course starts. -/
def State.slips (s : State) (tick : Nat) : Bool := s.slip.due.any fun x => decide (x.1 = tick)

/-- Course cycle L − 1 of core c has passed by the end of cycle x without COURSE_END (R190). -/
def State.tooLong (s : State) (x c : Nat) : Bool :=
  let q := (s.core c).seq
  q.inCourse && decide (s.run c = 1) && q.endEntry.isNone && decide (s.coreLin c + (q.len - q.cycle) ≤ x)

/-- SCHEDULE_LONG at core c in the cycle after course cycle L − 1. -/
def State.scheduleLong (s : State) (c : Nat) : State :=
  let q := (s.core c).seq
  let s := s.reachLin (s.coreLin c + (q.len - q.cycle))
  (s.captureIssue c 5 1 0).failStop c 0x0101 c [q.len] 2 2

/-- Every participant whose course has run past L by the end of cycle x fails. -/
def State.failLong (s : State) (x : Nat) : State := (s.task.parts.filter (s.tooLong x)).foldl State.scheduleLong s

/-- Do something at a timestamp that the die has not reached. -/
def State.atStamp (s : State) (x : Nat) (f : State → State) : State := (f (s.setD Reg.CTRL_TIMESTAMP x)).setD Reg.CTRL_TIMESTAMP s.now

/-- COURSE_OVERRUN and the stop: the lowest overrunning core, their number, the tick count and the after-slip word (R51, R55). -/
def State.overrunStop (s : State) (c n after : Nat) : State :=
  ((s.captureOverrun c).noteSev 0x0102 c [n, s.tickCount, after] 2 true).failTask 3

/-- The slip of the die by one tick, decided in cycle dl + 1 (R52, R53). -/
def State.slipNow (s : State) (c : Nat) : State :=
  let target := (s.tickCount + 1) % 2 ^ 40
  let s := ((s.captureOverrun c).note 0x0103 c []).sendSlip target 8
  { s with slip := { s.slip with
      seen := s.slip.seen ++ (if s.slip.seen.contains target then [] else [target])
      due := if s.slips target then s.slip.due else s.slip.due ++ [(target, false)]
      overAt := some s.tickCount } }

/-- Cycle dl passes with participants not retired (R50). With SLIP_ENABLE = 0 the task fails at the tick that follows, with that tick's count
(R51); with SLIP_ENABLE = 1 the die slips by one tick, decided in cycle dl + 1 and once a tick (R52), unless the course overran into this tick
already (R55). -/
def State.overrun (s : State) : State :=
  if !(s.taskRuns && decide (2 ≤ s.taskState)) ∨ s.slip.overAt = some s.tickCount then s
  else
    let s := s.failLong s.deadlineLin
    match s.unretired with
    | [] => s
    | c :: r =>
      if s.taskState = 7 then s
      else if s.inForce Reg.CTRL_SLIP_ENABLE = 0 then
        (s.reachLin s.deadlineLin).atStamp ((s.tickCount + 1) % 2 ^ 40 * 2 ^ 24) fun s => s.overrunStop c (r.length + 1) 0
      else
        let s := s.reachLin (s.deadlineLin + 1)
        if s.slip.overAt.map (fun x => (x + 1) % 2 ^ 40) = some s.tickCount then s.overrunStop c (r.length + 1) 1
        else s.slipNow c

def execCourseOverrun (s : State) : Host.Outcome State Fault Refusal := .next (if s.clocksRun then s.overrun else s)

end Sys2Proof.Machine
end

