-- ==== Sys2Proof/Machine/Issue.lean ====
section
/-!
DEFINITION. Issuing a bundle: opening it in its course cycle, its illegal encodings, the scalar registers its slots read, tile rows in time, the end of the course, and the frame in which every slot command runs (R37, R44–R51, R182–R190).
-/

namespace Sys2Proof.Machine

/-! Reading and writing scalar registers (R186). -/

/-- Scalar register r as the current bundle reads it. -/
def Core.sval (k : Core) (r : Nat) : Nat := if h : r < 32 then (k.seq.view.sreg[r]'h).toNat else 0

def State.sval (s : State) (c r : Nat) : Nat := (s.core c).sval r

/-- The value scalar register r holds for the next bundle. -/
def State.sregNext (s : State) (c r : Nat) : Nat := if h : r < 32 then ((s.core c).sreg[r]'h).toNat else 0

/-- Write scalar register r; later bundles see the value. -/
def State.setS (s : State) (c r v : Nat) : State :=
  s.mapCore c fun k => { k with
    sreg := if h : r < 32 then k.sreg.set r (BitVec.ofNat 64 v) h else k.sreg
    tm := { k.tm with sReady := Sparse.put 0 k.tm.sReady r 0 } }

/-- The current bundle of core c issues n cycles later: the core holds before it (R48, R189). -/
def State.holdIssue (s : State) (c n : Nat) (cause : HoldCause) : State :=
  if n = 0 then s
  else ((s.countHold c n cause).mapSeq c fun q => { q with view := { q.view with held := q.view.held + n } }).atIssue c

/-- Elapsed cycles of the course at the issue of the current bundle. -/
def Core.issued (k : Core) : Nat := k.seq.cycle + k.seq.view.held

/-- A slot that reads register r before an earlier LD has returned holds the core as a late fill (R189). -/
def State.waitReg (s : State) (c r : Nat) : State :=
  let k := s.core c
  s.holdIssue c (Sparse.get 0 k.seq.view.ready r - k.issued) .feed

/-! Tile registers in time (R147, R152, R161). -/

/-- Key of a lane of a tile register or hod-queue entry. -/
def laneKey (t row lane : Nat) : Nat := (16 * t + row) * 64 + lane

/-- Lane as it stands in a course cycle: the last write whose cycle lies before it, else the stored lane. -/
def Core.laneAt (k : Core) (cyc t row lane : Nat) : Lane :=
  k.rowWrites.foldl (fun v w =>
    if w.cycle < cyc ∧ w.t = t ∧ w.row = row then Sparse.get v w.lanes lane else v)
    (Sparse.get 0#32 k.tile (laneKey t row lane))

/-- Insert a row write behind those of the same or an earlier cycle. -/
def insertWrite (w : RowWrite) : List RowWrite → List RowWrite
  | [] => [w]
  | x :: r => if w.cycle < x.cycle then w :: x :: r else x :: insertWrite w r

/-- Store the lanes of a row write. -/
def applyWrite (m : Sparse Lane) (w : RowWrite) : Sparse Lane :=
  w.lanes.foldl (fun m lv => Sparse.put 0#32 m (laneKey w.t w.row lv.1) lv.2) m

/-- Make the row writes of cycles up to `cyc` part of the stored registers. -/
def Core.settle (k : Core) (cyc : Nat) : Core :=
  { k with
    tile := (k.rowWrites.filter fun w => w.cycle ≤ cyc).foldl applyWrite k.tile
    rowWrites := k.rowWrites.filter fun w => cyc < w.cycle }

/-- Make every row write part of the stored registers. -/
def Core.settleAll (k : Core) : Core :=
  { k with tile := k.rowWrites.foldl applyWrite k.tile, rowWrites := [] }

/-- Another engine writes or reserves the same row of the same register in the same cycle (R161, R179). -/
def Core.collides (k : Core) (w : RowWrite) : Bool :=
  k.rowWrites.any fun x => x.cycle = w.cycle && x.t = w.t && x.row = w.row && x.src ≠ w.src &&
    !(x.src = .pointing && w.src = .pointing)

/-- The lane values a core's row has after everything issued so far has landed. -/
def Core.laneNow (k : Core) (t row lane : Nat) : Lane := Sparse.get 0#32 k.settleAll.tile (laneKey t row lane)

/-! Template banks: the moments in which pending loads and swaps become visible (R174, R175). -/

/-- The earliest pending TLOAD completes: SHADOW_READY sets and LOADS counts (R174). -/
def State.tloadComplete (s : State) (c : Nat) : State :=
  match (s.core c).tm.tloads with
  | [] => s
  | _ :: r => ((s.mapTm c fun t => { t with tloads := r }).setC Reg.TPL_SHADOW_READY c 1).bumpC Reg.TPL_LOADS c 1

/-- The pending TLOADs of a list of completion cycles, completed while they lie before `cyc`. -/
def State.tloadsBefore (s : State) (c cyc : Nat) : List Nat → State
  | [] => s
  | x :: r => if x < cyc then (s.tloadComplete c).tloadsBefore c cyc r else s

/-- A pending swap takes effect: the banks exchange, SHADOW_READY clears, SWAPS counts (R175). Every earlier load is complete then. -/
def State.swapEffect (s : State) (c : Nat) : State :=
  match (s.core c).tm.swapAt with
  | none => s
  | some x =>
    let s := s.tloadsBefore c x (s.core c).tm.tloads
    (((s.mapTm c fun t => { t with swapAt := none }).setC Reg.TPL_ACTIVE c (1 - s.cf Reg.TPL_ACTIVE c)).setC
      Reg.TPL_SHADOW_READY c 0).bumpC Reg.TPL_SWAPS c 1

/-- What the template banks show from course cycle `cyc` on. -/
def State.bankEvents (s : State) (c cyc : Nat) : State :=
  let s := match (s.core c).tm.swapAt with
    | some x => if x ≤ cyc then s.swapEffect c else s
    | none => s
  s.tloadsBefore c cyc (s.core c).tm.tloads

/-- A program fault of the sequencer: captured, recorded with core and course cycle, and a fail-stop (R51). -/
def State.issueFault (s : State) (c fault code slot : Nat) : State :=
  let q := (s.core c).seq
  (s.captureIssue c fault slot 0).failStop c code c [q.cycle, q.index] 2 2

/-! The end of a course (R46, R50). -/

/-- Is there a non-empty slot of the bundle behind slot code n? -/
def laterSlot (b : Bundle) (n : Nat) : Bool :=
  (n < 2 && fld (bM b) 3 0 != 0) || (n < 3 && vOp (bV b) != 0) || (n < 4 && !borrowsT b && fld (bT b) 2 0 != 0) ||
  (n < 5 && !borrowsX b && fld (bX b) 4 0 != 0) || (n < 6 && !borrowsY b && fld (bY b) 3 0 != 0)

/-- A course of core c completes in tick cycle x with h held cycles: an idle core, DONE, and the hold and slack registers (R46, R50, R64). An
idle course completes like any other (DESIGN CHOICE, notes/assumptions/56.md). -/
def State.courseDone (s : State) (c h x : Nat) : State :=
  let slack : Int := (s.deadline : Int) - x
  let least := signedOf 24 (s.cf Reg.SEQ_MIN_SLACK c)
  let minS := if s.df Reg.CTRL_COURSE_NUMBER = 0 then slack else min least slack
  (((((s.setC Reg.SEQ_RUN c 0).setC Reg.SEQ_DONE c 1).setC Reg.SEQ_LAST_HOLD c h).setC
    Reg.SEQ_MAX_HOLD c (max (s.cf Reg.SEQ_MAX_HOLD c) (min h (2 ^ 24 - 1)))).setC Reg.SEQ_LAST_SLACK c (wrapTo 24 slack)).setC
    Reg.SEQ_MIN_SLACK c (wrapTo 24 minS)

/-- COURSE_END retires in the tick cycle that its position and holds give (R46, R50). -/
def State.retireNow (s : State) (c entry : Nat) : State :=
  let k := s.core c
  let s := s.reachLin (s.coreLin c)
  let s := s.bankEvents c (k.seq.cycle + 4096)
  let s := s.mapCore c fun k =>
    let k := k.settleAll
    { k with
      seq := { k.seq with inCourse := false, endEntry := none, cause := none, lastSlot := 7 }
      tm := Timing.init
      hod := (k.hod.filter fun x => x.release.isNone).map fun x => { x with final := 0 } }
  (s.courseDone c k.seq.held k.tickCycle).setC Reg.SEQ_ENTRY c entry

/-- COURSE_END retires; past the deadline the overrun is found first, and it may stop the core (R50–R55). -/
def State.retire (s : State) (c entry : Nat) : State :=
  let s := if s.deadlineLin < s.coreLin c then s.overrun else s
  if s.run c = 3 then s else s.retireNow c entry

/-- No bed write of core c waits for its grant and no packet for a credit (R46). -/
def State.drained (s : State) (c : Nat) : Bool :=
  (s.core c).outQ.isEmpty && !s.net.accesses.any fun x => match x.owner with | .moveWrite d _ => decide (d = c) | _ => false

/-- While core c issues and the last slot of a bundle with COURSE_END has issued: the course retires at once, or the core holds as Drain
(R46, R48). -/
def State.tryRetire (s : State) (c : Nat) : State :=
  let q := (s.core c).seq
  match q.endEntry with
  | none => s
  | some e =>
    if s.run c ≠ 1 ∨ laterSlot q.bundle q.lastSlot then s
    else if q.drainAt ≤ q.cycle ∧ s.drained c then s.retire c e
    else s.holdCore c .drain

/-! Opening a bundle. -/

/-- A core whose next slot command has an effect: reachable, in a course, issuing, with its clocks running (R37, R47, R404). -/
def State.issuing (s : State) (c : Nat) : Bool :=
  s.clocksRun && s.coreAlive c && decide (s.run c = 1) && (s.core c).seq.inCourse

/-- Code of a slot, 1 to 6 (R202). -/
def slotCode : Slot → Nat
  | .s => 1 | .m => 2 | .v => 3 | .t => 4 | .x => 5 | .y => 6

/-- Lowest bundle bit and width of a slot's opcode field (R182, R188–R201). -/
def slotOpAt : Slot → Nat × Nat
  | .s => (8, 6) | .m => (40, 4) | .v => (104, 7) | .t => (160, 3) | .x => (184, 5) | .y => (232, 4)

/-- The pairing borrows the slot, which then carries no operation (R185). -/
def slotBorrowed (b : Bundle) : Slot → Bool
  | .t => borrowsT b | .x => borrowsX b | .y => borrowsY b | _ => false

/-- A bundle that a FILLB still brings holds the core as a late fetch until it has arrived (R48, R191). -/
def State.awaitFill (s : State) (c : Nat) : State :=
  let k := s.core c
  let a := 32 * k.seq.index
  match k.tm.fills.find? fun f => f.buf = 9 && decide (f.lo ≤ a) && decide (a < f.hi) && decide (k.issued < f.ready) with
  | some f => s.holdIssue c (f.ready - k.issued) .fetch
  | none => s

/-- A bundle-buffer slot that holds no bundle: an index past every bundle. -/
def emptySlot : Nat × Bundle := (16384, 0#256)

/-- The next bundle of core c issues: its course cycle, what it reads, its timing and counters. -/
def State.startBundle (s : State) (c n : Nat) (b : Bundle) : State :=
  let q := (s.core c).seq
  let s := s.bankEvents c q.nextCycle
  let vl := s.cf Reg.DRESS_VL c
  let rl := s.cf Reg.DRESS_RL c
  let s := s.mapCore c fun k =>
    let k := k.settle q.nextCycle
    { k with
      seq := { k.seq with
        bundle := b, index := q.nextIndex, cycle := q.nextCycle, lastSlot := n,
        nextIndex := q.nextIndex + 1, nextCycle := q.nextCycle + 1 + bDelay b,
        view := ⟨k.sreg, vl, rl, none, k.tm.sReady, k.seq.held⟩ }
      hod := k.hod.filter fun x => match x.release with | some r => decide (q.nextCycle ≤ r) | none => true }
  (s.atIssue c).awaitFill c

/-- Does the bundle buffer hold bundle b at the index that core c issues next (R191)? -/
def Core.holds (k : Core) (b : Bundle) : Bool :=
  decide (Sparse.get emptySlot k.bbuf (k.seq.nextIndex % 128) = (k.seq.nextIndex, b))

/-- Open the bundle of a slot command: the same bundle goes on where this slot follows the last one issued; otherwise the
bundle that the buffer holds at the next index issues, is checked, and may fail-stop. `error` carries a state in which the slot does not
issue. -/
def State.openBundle (s : State) (c n : Nat) (b : Bundle) : Except State State :=
  let q := (s.core c).seq
  if q.bundle = b ∧ q.lastSlot < n then .ok ((s.mapSeq c fun q => { q with lastSlot := n }).atIssue c)
  else if s.stopReaches c (s.coreLin c + (q.nextCycle - q.cycle)) then .error (s.haltCore c)
  else if q.endEntry.isSome then .error s
  else if q.len ≤ q.nextCycle then .error (s.scheduleLong c)
  else if !(s.core c).holds b then .error s
  else
    let s := s.startBundle c n b
    if (s.core c).parityBad.any fun w => 73728 ≤ 8 * w && decide (8 * w / 32 - 2304 = (s.core c).seq.index % 128) then
      .error (s.failStop c 0x0600 c [9, (s.core c).seq.cycle] 3 5)
    else match bundleBreach b with
    | some (slot, reason) =>
      let q := (s.core c).seq
      .error ((s.captureIssue c 1 slot reason).failStop c 0x0105 c [q.cycle, q.index, slot] 2 2)
    | none => .ok ((s.bumpC Reg.ISSUE_ISSUED c 1).bumpC Reg.ISSUE_DELAYED c (bDelay b))

/-- Every slot command: with the core issuing, its bundle opens and the slot's operation takes place; a core that does not issue
does nothing (R37, R47, R368). -/
def runSlot (sl : Slot) (op c : Nat) (b : Bundle) (body : State → Bundle → Except State State) (s : State) :
    Host.Outcome State Fault Refusal :=
  let b := setOpcode b (slotOpAt sl).1 (slotOpAt sl).2 op
  if s.issuing c && !slotBorrowed b sl then
    match (s.openBundle c (slotCode sl) b).bind fun s => body s b with
    | .ok t => .next ((t.tryRetire c).notBefore s.now)
    | .error t => .next (t.notBefore s.now)
  else .next s

/-- A course cycle up to which COURSE_END must wait (R46). -/
def State.drainTo (s : State) (c x : Nat) : State := s.mapSeq c fun q => { q with drainAt := max q.drainAt x }

/-- The current course cycle of core c. -/
def State.cyc (s : State) (c : Nat) : Nat := (s.core c).seq.cycle

end Sys2Proof.Machine
end

