-- ==== Sys2Proof/Machine/Scalar.lean ====
section
/-!
DEFINITION. The S slot: one meaning per scalar operation (R188–R190, R211, R328).
-/

namespace Sys2Proof.Machine

/-! Fields of the S slot (R188). -/
def sRd (b : Bundle) : Nat := fld (bS b) 10 6
def sRa (b : Bundle) : Nat := fld (bS b) 15 11
def sRb (b : Bundle) : Nat := fld (bS b) 20 16
def sImm16 (b : Bundle) : Nat := fld (bS b) 31 16
/-- Sources of the SB format: ra at [10:6], rb at [15:11]. -/
def sBa (b : Bundle) : Nat := fld (bS b) 10 6
def sBb (b : Bundle) : Nat := fld (bS b) 15 11
def sLc (b : Bundle) : Nat := fld (bS b) 7 6

/-- A scalar register as a 64-bit word. -/
def State.sword (s : State) (c r : Nat) : Word := BitVec.ofNat 64 (s.sval c r)

/-- rd = f ra rb. -/
def aluRR (c : Nat) (f : Word → Word → Word) (s : State) (b : Bundle) : State :=
  let s := (s.waitReg c (sRa b)).waitReg c (sRb b)
  s.setS c (sRd b) (f (s.sword c (sRa b)) (s.sword c (sRb b))).toNat

/-- rd = f ra imm16. -/
def aluRI (c : Nat) (f : Word → BitVec 16 → Word) (s : State) (b : Bundle) : State :=
  let s := s.waitReg c (sRa b)
  s.setS c (sRd b) (f (s.sword c (sRa b)) (BitVec.ofNat 16 (sImm16 b))).toNat

def addW (x y : Word) : Word := x + y
def subW (x y : Word) : Word := x - y
def mulW (x y : Word) : Word := x * y
def shlW (x y : Word) : Word := x <<< (y.toNat % 64)
def shrW (x y : Word) : Word := x >>> (y.toNat % 64)
def sarW (x y : Word) : Word := x.sshiftRight (y.toNat % 64)
def sltW (x y : Word) : Word := if x.slt y then 1#64 else 0#64
def sltuW (x y : Word) : Word := if x.ult y then 1#64 else 0#64

def execAdd (c : Nat) (b : Bundle) (s : State) := runSlot .s 0x01 c b (fun s b => .ok (aluRR c addW s b)) s
def execSub (c : Nat) (b : Bundle) (s : State) := runSlot .s 0x02 c b (fun s b => .ok (aluRR c subW s b)) s
def execMul (c : Nat) (b : Bundle) (s : State) := runSlot .s 0x03 c b (fun s b => .ok (aluRR c mulW s b)) s
def execSAnd (c : Nat) (b : Bundle) (s : State) := runSlot .s 0x04 c b (fun s b => .ok (aluRR c (· &&& ·) s b)) s
def execSOr (c : Nat) (b : Bundle) (s : State) := runSlot .s 0x05 c b (fun s b => .ok (aluRR c (· ||| ·) s b)) s
def execSXor (c : Nat) (b : Bundle) (s : State) := runSlot .s 0x06 c b (fun s b => .ok (aluRR c (· ^^^ ·) s b)) s
def execShl (c : Nat) (b : Bundle) (s : State) := runSlot .s 0x07 c b (fun s b => .ok (aluRR c shlW s b)) s
def execShr (c : Nat) (b : Bundle) (s : State) := runSlot .s 0x08 c b (fun s b => .ok (aluRR c shrW s b)) s
def execSar (c : Nat) (b : Bundle) (s : State) := runSlot .s 0x09 c b (fun s b => .ok (aluRR c sarW s b)) s
def execSlt (c : Nat) (b : Bundle) (s : State) := runSlot .s 0x0A c b (fun s b => .ok (aluRR c sltW s b)) s
def execSltu (c : Nat) (b : Bundle) (s : State) := runSlot .s 0x0B c b (fun s b => .ok (aluRR c sltuW s b)) s

def execAddi (c : Nat) (b : Bundle) (s : State) :=
  runSlot .s 0x10 c b (fun s b => .ok (aluRI c (fun x i => x + i.signExtend 64) s b)) s
def execAndi (c : Nat) (b : Bundle) (s : State) :=
  runSlot .s 0x11 c b (fun s b => .ok (aluRI c (fun x i => x &&& i.zeroExtend 64) s b)) s
def execOri (c : Nat) (b : Bundle) (s : State) :=
  runSlot .s 0x12 c b (fun s b => .ok (aluRI c (fun x i => x ||| i.zeroExtend 64) s b)) s

/-- Replace quarter q of a word. -/
def setQuarter (x : Word) (q : Nat) (i : BitVec 16) : Word :=
  (x &&& ~~~((0xFFFF#64) <<< (16 * q))) ||| (i.zeroExtend 64 <<< (16 * q))

/-- LIQ: imm16 into quarter q of rd, the other bits unchanged. -/
def execLiq (c : Nat) (b : Bundle) (s : State) :=
  runSlot .s 0x13 c b (fun s b =>
    let s := s.waitReg c (sRd b)
    .ok (s.setS c (sRd b) (setQuarter (s.sword c (sRd b)) (fld (bS b) 12 11) (BitVec.ofNat 16 (sImm16 b))).toNat)) s

/-- The byte offset of LD and ST: s(ra) + 8 · imm10, modulo 2^64 (R12, R189). -/
def memOffset (s : State) (c : Nat) (b : Bundle) : Nat :=
  wrapTo 64 ((s.sval c (sRa b) : Int) + 8 * signedOf 10 (fld (bS b) 31 22))

/-- LD (R189): 8 bytes of bed through the narrow view; rd is usable from the cycle after the read's completion. -/
def execLd (c : Nat) (b : Bundle) (s : State) :=
  runSlot .s 0x14 c b (fun s b =>
    let s := s.waitReg c (sRa b)
    let off := memOffset s c b
    let h := s.handle c (fld (bS b) 21 16)
    if off % 8 = 0 ∧ h.narrow off 8 then
      match s.narrowRead c (h.base + off) with
      | (s, none) => .error s
      | (s, some d) =>
        let s := s.setS c (sRd b) (ofBytes d)
        .ok (s.mapCore c fun k => { k with
          tm := { k.tm with sReady := Sparse.put 0 k.tm.sReady (sRd b) (k.issued + 6) } })
    else .error (s.issueFault c 3 0x0107 1)) s

/-- ST (R189): rd to 8 bytes of bed through the narrow view, in effect in cycle c + 2. -/
def execSt (c : Nat) (b : Bundle) (s : State) :=
  runSlot .s 0x15 c b (fun s b =>
    let s := (s.waitReg c (sRa b)).waitReg c (sRd b)
    let off := memOffset s c b
    let h := s.handle c (fld (bS b) 21 16)
    if off % 8 = 0 ∧ h.narrow off 8 ∧ s.writable c h then
      .ok ((s.bedWrite c (h.base + off) (toBytes 8 (s.sval c (sRd b)))).drainTo c (s.cyc c + 2))
    else .error (s.issueFault c 3 0x0107 1)) s

/-- The system values of RDSYS (R188). -/
def sysValue (s : State) (c sel : Nat) : Nat :=
  match sel with
  | 0 => s.coreStamp c
  | 1 => s.df Reg.CTRL_COURSE_NUMBER
  | 2 => c
  | 3 => s.cf Reg.NUM_TAG c
  | 4 => s.df Reg.PLACE_DIE_ID
  | 5 => s.df Reg.PLACE_PACKAGE_ID
  | _ => s.df Reg.RING_CURRENT

/-- RDSYS. -/
def execRdsys (c : Nat) (b : Bundle) (s : State) :=
  runSlot .s 0x16 c b (fun s b => .ok (s.setS c (sRd b) (sysValue s c (fld (bS b) 15 11)))) s

/-- HSET (R211): handle h from s(ra) to s(ra + 3); the bundle's own slots still see the old handle (R186). -/
def execHset (c : Nat) (b : Bundle) (s : State) :=
  runSlot .s 0x17 c b (fun s b =>
    let h := fld (bS b) 11 6
    let ra := fld (bS b) 16 12
    let s := (((s.waitReg c ra).waitReg c (ra + 1)).waitReg c (ra + 2)).waitReg c (ra + 3)
    let old := s.handleWords c h
    let s := s.mapSeq c fun q => { q with view := { q.view with oldHandle := some (h, old.1, old.2) } }
    .ok (s.setHandleWords c h (s.sval c ra) (s.sval c (ra + 1)))) s

/-- A taken branch to bundle index `t` of the current course, or BRANCH_RANGE (R190). -/
def branchTo (s : State) (c : Nat) (t : Int) : Except State State :=
  if t < 0 ∨ 12287 < t ∨ (bedSize : Int) < 32 * (s.cf Reg.SEQ_ENTRY c : Int) + 64 + 32 * t then
    .error (s.issueFault c 2 0x0106 1)
  else .ok ((s.mapSeq c fun q => { q with nextIndex := t.toNat }).bumpC Reg.ISSUE_TAKEN c 1)

/-- What a conditional branch does to run-ahead (R58, R59): a backward branch was predicted taken. -/
def predictTaken (s : State) (c : Nat) (back taken : Bool) : State :=
  if back then
    if taken then s.mapCore c fun k => { k with shadow := k.shadow.map fun f => { f with depth := f.depth - 1 } }
    else if (s.core c).shadow.any fun f => 0 < f.depth then
      (s.mapCore c fun k => { k with shadow := k.shadow.filter fun f => f.depth = 0 }).bumpC Reg.SEQ_DISCARDS c 1
    else s
  else s

/-- A conditional branch of format SB. -/
def condBranch (c : Nat) (p : Word → Word → Bool) (s : State) (b : Bundle) : Except State State :=
  let s := (s.waitReg c (sBa b)).waitReg c (sBb b)
  let off := signedOf 16 (sImm16 b)
  let taken := p (s.sword c (sBa b)) (s.sword c (sBb b))
  let s := predictTaken s c (decide (off < 0)) taken
  if taken then branchTo s c (((s.core c).seq.index : Int) + off) else .ok s

def execBeq (c : Nat) (b : Bundle) (s : State) := runSlot .s 0x20 c b (condBranch c fun x y => x == y) s
def execBne (c : Nat) (b : Bundle) (s : State) := runSlot .s 0x21 c b (condBranch c fun x y => x != y) s
def execBlt (c : Nat) (b : Bundle) (s : State) := runSlot .s 0x22 c b (condBranch c fun x y => x.slt y) s
def execBge (c : Nat) (b : Bundle) (s : State) := runSlot .s 0x23 c b (condBranch c fun x y => !x.slt y) s

/-- JMP. -/
def execJmp (c : Nat) (b : Bundle) (s : State) :=
  runSlot .s 0x24 c b (fun s b => branchTo s c (((s.core c).seq.index : Int) + signedOf 16 (sImm16 b))) s

/-- JR: to the bundle index in s(ra). -/
def execJr (c : Nat) (b : Bundle) (s : State) :=
  runSlot .s 0x25 c b (fun s b =>
    let s := s.waitReg c (sBa b)
    branchTo s c (s.sval c (sBa b))) s

/-- Loop counters lc0–lc3. -/
def State.lc (s : State) (c i : Nat) : BitVec 32 := if h : i < 4 then (s.core c).lc[i]'h else 0#32

def State.setLc (s : State) (c i : Nat) (v : BitVec 32) : State :=
  s.mapCore c fun k => { k with lc := if h : i < 4 then k.lc.set i v h else k.lc }

/-- LSET: lc = s(ra)[31:0]. -/
def execLset (c : Nat) (b : Bundle) (s : State) :=
  runSlot .s 0x26 c b (fun s b =>
    let s := s.waitReg c (sRa b)
    .ok (s.setLc c (sLc b) (BitVec.ofNat 32 (s.sval c (sRa b))))) s

/-- LSETI: lc = imm16. -/
def execLseti (c : Nat) (b : Bundle) (s : State) :=
  runSlot .s 0x27 c b (fun s b => .ok (s.setLc c (sLc b) (BitVec.ofNat 32 (sImm16 b)))) s

/-- BLOOP: decrement and branch while lc > 1, otherwise lc = 0. -/
def execBloop (c : Nat) (b : Bundle) (s : State) :=
  runSlot .s 0x28 c b (fun s b =>
    let v := s.lc c (sLc b)
    if 1 < v.toNat then
      branchTo (s.setLc c (sLc b) (v - 1#32)) c (((s.core c).seq.index : Int) + signedOf 16 (sImm16 b))
    else .ok (s.setLc c (sLc b) 0#32)) s

/-- DELAYI: imm20 further empty cycles behind the bundle (R184). -/
def execDelayi (c : Nat) (b : Bundle) (s : State) :=
  runSlot .s 0x29 c b (fun s b =>
    let d := fld (bS b) 31 12
    .ok ((s.mapSeq c fun q => { q with nextCycle := q.nextCycle + d }).bumpC Reg.ISSUE_DELAYED c d)) s

/-- The last course a hint covers. -/
def HintSlot.last (h : HintSlot) : Nat := h.first + h.span - 1

/-- Is a hint slot free in course n (R328)? -/
def hintFree (n : Nat) : Option HintSlot → Bool
  | none => true
  | some h => decide (h.last < n)

/-- PHASE_HINT (R328): fill a free slot, else replace the slot whose span ends first, slot 0 on a tie. -/
def execPhaseHint (c : Nat) (b : Bundle) (s : State) :=
  runSlot .s 0x2A c b (fun s b =>
    let n := s.df Reg.CTRL_COURSE_NUMBER
    let h : HintSlot := ⟨n + fld (bS b) 13 6, fld (bS b) 31 20, fld (bS b) 19 14⟩
    .ok (s.mapCore c fun k =>
      if hintFree n k.hint0 then { k with hint0 := some h }
      else if hintFree n k.hint1 then { k with hint1 := some h }
      else match k.hint0, k.hint1 with
        | some h0, some h1 => if h0.last ≤ h1.last then { k with hint0 := some h } else { k with hint1 := some h }
        | _, _ => k)) s

/-- COURSE_END: ENTRY is carried to the retirement, which `runSlot` makes when R46 allows it. -/
def execCourseEnd (c : Nat) (b : Bundle) (s : State) :=
  runSlot .s 0x2B c b (fun s b => .ok (s.mapSeq c fun q => { q with endEntry := some (fld (bS b) 19 6) })) s

/-- NOP of any slot: the bundle's issue alone (R183, R189). -/
def execNop (c : Nat) (slot : Slot) (b : Bundle) (s : State) : Host.Outcome State Fault Refusal := runSlot slot 0 c b (fun s _ => .ok s) s

end Sys2Proof.Machine
end

