-- ==== Sys2Proof/Machine/Matrix.lean ====
section
/-!
DEFINITION. The M slot: MM and KADD, the mortar window, the keystone element and its promotions (R90–R127).
-/

namespace Sys2Proof.Machine

/-! The keystone metadata word (R114). -/

def Elem.zero : Elem := ⟨0#128, 0#32⟩

def Elem.nan (e : Elem) : Bool := bit e.md.toNat 0
def Elem.pinf (e : Elem) : Bool := bit e.md.toNat 1
def Elem.ninf (e : Elem) : Bool := bit e.md.toNat 2
def Elem.cls (e : Elem) : Nat := fld e.md.toNat 4 3
def Elem.loss (e : Elem) : Bool := bit e.md.toNat 5
def Elem.wexp (e : Elem) : Int := signedOf 16 (fld e.md.toNat 31 16)

/-- Build an element; reserved metadata bits are zero. -/
def Elem.make (v : Int) (nan pinf ninf : Bool) (cls : Nat) (loss : Bool) (wexp : Int) : Elem :=
  ⟨BitVec.ofInt 128 v,
   BitVec.ofNat 32 (b2n nan + 2 * b2n pinf + 4 * b2n ninf + 8 * cls + 32 * b2n loss + 65536 * wrapTo 16 wexp)⟩

/-- Weight exponent of a BF16 element that holds no run yet. -/
def noRun : Int := -32768

/-- Key of element (i, j) of entry e of array a. -/
def accKey (a e i j : Nat) : Nat := (12 * a + e) * 256 + 16 * i + j

def Core.elem (k : Core) (a e i j : Nat) : Elem := Sparse.get Elem.zero k.acc (accKey a e i j)

/-- v / 2^d to nearest, ties to even (R121). -/
def rneShr (v : Int) (d : Nat) : Int :=
  let q := v / (2 ^ d : Nat)
  let r := v - q * (2 ^ d : Nat)
  if d = 0 then v
  else if (2 ^ (d - 1) : Nat) < r ∨ (r = (2 ^ (d - 1) : Nat) ∧ q % 2 = 1) then q + 1 else q

/-! Feed buffers (R98). -/

/-- Code of bank `bk` of array a's weight buffer; 0 is the activation buffer and 9 the bundle buffer. -/
def wBuf (a bk : Nat) : Nat := 1 + 2 * a + bk

/-- Bits [bit0 + w − 1 : bit0] of the byte stream that starts at byte `byte0` of a buffer (R69). -/
def Core.feedBits (k : Core) (buf byte0 bit0 w : Nat) : Nat :=
  let first := byte0 + bit0 / 8
  let x := ofBytes ((List.range 5).map fun i => Sparse.get 0#8 k.fbuf (buf * 8192 + first + i))
  x / 2 ^ (bit0 % 8) % 2 ^ w

/-- Bytes of n elements, padded to a multiple of 16 (R98, R133). -/
def padRow (n w : Nat) : Nat := ((n * w + 7) / 8 + 15) / 16 * 16

/-! The decoded matrix instruction (R192). -/

structure MmArgs where
  mask : Nat
  m : Nat
  n : Nat
  k : Nat
  ah : Nat
  aoff : Nat
  fa : Format
  fw : Format
  run : Nat
  acc : Nat
  ow : Bool
  deriving DecidableEq, Repr

def mmArgs (w : Nat) : MmArgs :=
  ⟨fld w 7 4, fld w 11 8 + 1, fld w 17 12 + 1, fld w 33 18, fld w 39 34, fld w 48 40,
   (Format.ofCode (fld w 52 49)).getD .int8, (Format.ofCode (fld w 56 53)).getD .int8,
   (match fld w 58 57 with | 0 => 1 | 1 => 4 | 2 => 8 | _ => 16), fld w 62 59, bit w 63⟩

/-- Digits of the wider significand: the class of the pair (R70, R92). -/
def MmArgs.digits (p : MmArgs) : Nat :=
  let g := max p.fa.sigWidth p.fw.sigWidth
  if g ≤ 4 then 1 else if g ≤ 8 then 2 else 3

/-- Cycles per K-step (R95). -/
def MmArgs.step (p : MmArgs) : Nat := if p.run = 1 then 16 * p.digits else p.digits

/-- Entries used: one for each 16 columns (R102). -/
def MmArgs.entries (p : MmArgs) : Nat := (p.n + 15) / 16

/-- Keystone class of the pair (R115). -/
def MmArgs.cls (p : MmArgs) : Nat :=
  if p.fa.isInt then 0 else if p.fa = .bf16 ∨ p.fw = .bf16 then 2 else 1

/-- Window width P (R109). -/
def MmArgs.window (p : MmArgs) : Nat := if p.digits = 1 then 24 else 48

/-- Cycle in which the last digit enters logical row 0, for issue in cycle c (R95). -/
def MmArgs.tLast (p : MmArgs) (c : Nat) : Nat := c + 3 + (p.k - 1) * p.step + p.digits - 1

/-! One run of one element (R108–R111). -/

structure RunSum where
  sum : Int
  /-- E_run; none where the run has no finite non-zero activation or weight. -/
  erun : Option Int
  nan : Bool
  pinf : Bool
  ninf : Bool
  rounded : Nat
  deriving DecidableEq, Repr

/-- The largest top exponent of the finite non-zero values. -/
def maxTop (l : List Val) : Option Int :=
  l.foldl (fun o v => match v with
    | .num _ m e => if m = 0 then o else match o with
      | none => some (topOf m e)
      | some t => some (max t (topOf m e))
    | _ => o) none

/-- The placed value of a finite product in window units, and whether it differs from the product (R110, R111). -/
def place (neg : Bool) (m : Nat) (e low : Int) : Int × Bool :=
  let (q, r, b) := splitAt m 1 e low
  let q' := if roundsUp .rne 0 q r b then q + 1 else q
  (if neg then -(q' : Int) else q', decide (0 < r))

/-- The run sum of a list of operand pairs. -/
def runSum (isInt : Bool) (window : Nat) (ps : List (Val × Val)) : RunSum :=
  let er : Option Int := if isInt then some 0 else
    match maxTop (ps.map Prod.fst), maxTop (ps.map Prod.snd) with
    | some ra, some cb => some (ra + cb + 1)
    | _, _ => none
  let low : Int := if isInt then 0 else er.getD 0 - window
  ps.foldl (fun r p =>
    match mulV p.1 p.2 with
    | (.nan _, _) => { r with nan := true }
    | (.inf g, _) => if g then { r with ninf := true } else { r with pinf := true }
    | (.num g m e, _) =>
      if m = 0 then r else
      let (x, inexact) := place g m e low
      { r with sum := r.sum + x, rounded := r.rounded + b2n inexact })
    ⟨0, er, false, false, false, 0⟩

/-- An element that takes a run alone (R118, R120, R121). -/
def freshElem (cls window : Nat) (r : RunSum) : Elem :=
  match cls with
  | 0 => Elem.make r.sum r.nan r.pinf r.ninf 0 false 0
  | 1 =>
    let v : Int := match r.erun with
      | none => 0
      | some er => let sh := er - window + 48
                   if 0 ≤ sh then r.sum * (2 ^ sh.toNat : Nat) else r.sum / (2 ^ (-sh).toNat : Nat)
    Elem.make v r.nan r.pinf r.ninf 1 false (-48)
  | _ =>
    match r.erun with
    | none => Elem.make 0 r.nan r.pinf r.ninf 2 false noRun
    | some er => Elem.make (r.sum * (2 ^ 52 : Nat)) r.nan r.pinf r.ninf 2 false (er - 100)

/-- Promotion of a run into an element of the same class, and whether it set LOSS (R118, R120, R121). -/
def promote (window : Nat) (e : Elem) (r : RunSum) : Elem × Bool :=
  let nan := e.nan || r.nan
  let pinf := e.pinf || r.pinf
  let ninf := e.ninf || r.ninf
  match e.cls with
  | 0 => (Elem.make (e.v.toInt + r.sum) nan pinf ninf 0 e.loss 0, false)
  | 1 =>
    let d : Int := match r.erun with
      | none => 0
      | some er => let sh := er - window - e.wexp
                   if 0 ≤ sh then r.sum * (2 ^ sh.toNat : Nat) else r.sum / (2 ^ (-sh).toNat : Nat)
    (Elem.make (e.v.toInt + d) nan pinf ninf 1 e.loss e.wexp, false)
  | _ =>
    match r.erun with
    | none => (Elem.make e.v.toInt nan pinf ninf 2 e.loss e.wexp, false)
    | some er =>
      if e.wexp = noRun then (Elem.make (r.sum * (2 ^ 52 : Nat)) nan pinf ninf 2 e.loss (er - 100), false)
      else
        let x := e.wexp
        let d := (er - 100 - x).toNat
        let v2 := rneShr e.v.toInt d
        let lossA := decide (v2 * (2 ^ d : Nat) ≠ e.v.toInt)
        let x' := max x (er - 100)
        let sh := er - 48 - x'
        let k := (-sh).toNat
        let s2 := rneShr r.sum k
        let add := if 0 ≤ sh then r.sum * (2 ^ sh.toNat : Nat) else s2
        let lossB := decide (sh < 0) && decide (s2 * (2 ^ k : Nat) ≠ r.sum)
        (Elem.make (v2 + add) nan pinf ninf 2 (e.loss || lossA || lossB) x', lossA || lossB)

/-- What the runs of one instruction leave in one element. -/
structure ElemOut where
  elem : Elem
  mismatch : Bool
  rounded : Nat
  losses : Nat
  deriving DecidableEq, Repr

/-- Promote the runs of an instruction in order (R117–R119); `fresh` says that the first run overwrites. -/
def promoteRuns (cls window : Nat) : Bool → ElemOut → List RunSum → ElemOut
  | _, o, [] => o
  | true, o, r :: rs => promoteRuns cls window false { o with elem := freshElem cls window r, rounded := o.rounded + r.rounded } rs
  | false, o, r :: rs =>
    if o.elem.cls ≠ cls then { o with mismatch := true, rounded := o.rounded + r.rounded } else
    let (e, l) := promote window o.elem r
    promoteRuns cls window false { o with elem := e, rounded := o.rounded + r.rounded, losses := o.losses + b2n l } rs

/-- Cut a list into runs of n. -/
def runsOf {α : Type} (n : Nat) : Nat → List α → List (List α)
  | 0, _ => []
  | k + 1, l => if l.isEmpty then [] else l.take n :: runsOf n k (l.drop n)

/-- Activation A[i, k] and weight W[k, n] of array a as the feed buffers hold them (R98). -/
def Core.actAt (k : Core) (p : MmArgs) (base i step : Nat) : Val :=
  p.fa.decode (k.feedBits 0 (base + (p.aoff + step) * padRow p.m p.fa.width) (i * p.fa.width) p.fa.width)

/-- Rows of a weight bank, and the bank that K-step `step` reads. -/
def MmArgs.bankRows (p : MmArgs) : Nat := 4096 / padRow p.n p.fw.width
def Core.bankAt (k : Core) (p : MmArgs) (a step : Nat) : Nat :=
  (Sparse.get 0 k.curBank a + step / p.bankRows) % 2

def Core.weightAt (k : Core) (p : MmArgs) (a n step : Nat) : Val :=
  p.fw.decode (k.feedBits (wBuf a (k.bankAt p a step)) (step % p.bankRows * padRow p.n p.fw.width) (n * p.fw.width) p.fw.width)

/-- What the instruction leaves in element (m, n) of array a (R104). -/
def Core.mmElem (k : Core) (p : MmArgs) (base a m n : Nat) : ElemOut :=
  let pairs := (List.range p.k).map fun t => (k.actAt p base m t, k.weightAt p a n t)
  let runs := (runsOf p.run p.k pairs).map (runSum p.fa.isInt p.window)
  promoteRuns p.cls p.window p.ow ⟨k.elem a (p.acc + n / 16) m (n % 16), false, 0, 0⟩ runs

/-- The arrays of a mask in ascending order. -/
def maskArrays (mask : Nat) : List Nat := (List.range 4).filter fun a => bit mask a

/-- Lowest array named, 0 for an empty mask. -/
def lowArray (mask : Nat) : Nat := (maskArrays mask).headD 0

/-- The mask is empty or names an array that the floor plan does not list (R106). -/
def State.maskBad (s : State) (c mask : Nat) : Bool := (maskArrays mask).isEmpty || (maskArrays mask).any fun a => !s.arrayGood c a

/-- A fault of the arrays: captured in ARRAY.FAULT, recorded, and a fail-stop (R106). -/
def State.arrayFault (s : State) (c fault code mask : Nat) : State :=
  let y := s.cyc c
  let s := if s.cf Reg.ARRAY_FAULT c ≠ 0 then s else
    ((s.setC Reg.ARRAY_FAULT c fault).setC Reg.ARRAY_FAULT_ARRAY c (lowArray mask)).setC Reg.ARRAY_FAULT_CYCLE c y
  s.failStop c code c [lowArray mask, y] 2 2

/-- A fault of the accumulators: captured in ACC.FAULT, recorded with array, entry, element and cycle, and a fail-stop (R119, R125). -/
def State.accFault (s : State) (c fault code a e el : Nat) : State :=
  let y := s.cyc c
  let s := if s.cf Reg.ACC_FAULT c ≠ 0 then s else
    ((((s.setC Reg.ACC_FAULT c fault).setC Reg.ACC_FAULT_ARRAY c a).setC Reg.ACC_FAULT_ENTRY c e).setC
      Reg.ACC_FAULT_ELEMENT c el).setC Reg.ACC_FAULT_CYCLE c y
  s.failStop c code c [a, e, el, y] 2 2

/-- Cycles in which rows of a matrix instruction begin a promotion include x (R99, R126). -/
def Promo.beginsAt (p : Promo) (x : Nat) : Bool :=
  if p.kadd then decide (p.c + 42 ≤ x) && decide (x < p.c + 58)
  else (List.range p.rows).any fun i =>
    let base := p.c + 3 + p.digits - 1 + i + 2
    decide (base ≤ x) &&
      (let st := (x - base) / p.step
       decide ((x - base) % p.step = 0) && decide (st < p.k) && (decide ((st + 1) % p.run = 0) || decide (st + 1 = p.k)))

/-- The last cycle of a promotion span. -/
def Promo.last (p : Promo) : Nat := if p.kadd then p.c + 61 else p.c + 3 + p.k * p.step + 21

/-- Two spans into a common array meet in a first promotion cycle; only pairs with a KADD can (R126). -/
def Promo.meets (p q : Promo) : Bool :=
  decide (Nat.land p.mask q.mask ≠ 0) && (p.kadd || q.kadd) &&
    (let (k, o) := if p.kadd then (p, q) else (q, p)
     (List.range 16).any fun i => o.beginsAt (k.c + 42 + i))

/-- Fills whose data a reader of bytes lo to hi − 1 of a buffer consumes: the elapsed cycle from which all are usable. -/
def Core.fillReady (k : Core) (buf lo hi : Nat) : Nat :=
  (k.tm.fills.filter fun f => f.buf = buf && f.lo < hi && lo < f.hi).foldl (fun m f => max m f.ready) 0

/-- Hold cycles of the look-ahead reads of an instruction: each run waits for its fills (R96). -/
def Core.lookAheadHold (k : Core) (p : MmArgs) (base : Nat) : Nat :=
  let ua := padRow p.m p.fa.width
  let uw := padRow p.n p.fw.width
  (List.range ((p.k + p.run - 1) / p.run)).foldl (fun h r =>
    let lo := r * p.run
    let hi := min p.k (lo + p.run)
    let at_ := k.issued + 1 + lo * p.step + h
    let ra := k.fillReady 0 (base + (p.aoff + lo) * ua) (base + (p.aoff + hi) * ua)
    let rw := (maskArrays p.mask).foldl (fun m a =>
      (List.range (hi - lo)).foldl (fun m i =>
        let t := lo + i
        max m (k.fillReady (wBuf a (k.bankAt p a t)) (t % p.bankRows * uw) ((t % p.bankRows + 1) * uw))) m) 0
    h + (max ra rw - at_)) 0

/-- A feed-buffer word of those an instruction reads that holds wrong parity (R208). -/
def Core.feedParity (k : Core) (p : MmArgs) (base : Nat) : Option Nat :=
  let ua := padRow p.m p.fa.width
  let uw := padRow p.n p.fw.width
  k.parityBad.find? fun w =>
    let x := 8 * w
    (decide (x + 7 ≥ base + p.aoff * ua) && decide (x < base + (p.aoff + p.k) * ua)) ||
    ((maskArrays p.mask).any fun a => (List.range p.k).any fun t =>
      let b := wBuf a (k.bankAt p a t) * 8192 + t % p.bankRows * uw
      decide (b < x + 8) && decide (x < b + uw))

/-- What SECDED finds in accumulator codeword x: 5 · element key + w with w = 0 to 3 the 32-bit words of V and 4 the metadata (R217). -/
def Core.accFinds (k : Core) (x : Nat) : Nat := secded (2 ^ 64 + x) (Sparse.get 0 k.accMarks x)

/-- The marked codewords of row i of entries e to e + n − 1 of array a. -/
def Core.accMarked (k : Core) (a e n i : Nat) : List Nat :=
  (k.accMarks.map Prod.fst).filter fun x =>
    decide (12 * a + e ≤ x / 1280) && decide (x / 1280 < 12 * a + e + n) && decide (x / 80 % 16 = i)

/-- n accumulator reads of core c have been corrected (R117, R218). -/
def State.accCorrected (s : State) (c n : Nat) : State :=
  if n = 0 then s else (s.bumpC Reg.BED_CORR_ACC c n).holdFor c (2 * n) .ecc

/-- A read of row i of entries e to e + n − 1 of array a, one access with a check of each codeword (R117, R135, R144, R218; DEDUCED,
notes/assumptions/58.md): a correction holds the core, and an uncorrectable codeword is reported by its element. -/
def State.accRead (s : State) (c a e n i : Nat) : State × Option Nat :=
  let k := s.core c
  let l := k.accMarked a e n i
  match l.find? fun x => decide (k.accFinds x = 2) with
  | some x => (s, some (x / 5))
  | none => (if l.any fun x => decide (k.accFinds x = 1) then s.accCorrected c 1 else s, none)

/-- What stops a core at an accumulator row: an uncorrectable element, a class mismatch at an array, entry and element, or an image row that
was not delivered. -/
inductive AccFault where
  | ue (key : Nat)
  | mismatch (a e el : Nat)
  | read
  deriving DecidableEq, Repr

/-- A matrix instruction or KADD ends: the first fault of its rows stops the core, whose other rows have completed (R117, R119, R368). ECC_UE
names memory 2, the entry and the element. -/
def State.rowsDone (s : State) (c : Nat) : Option AccFault → Except State State
  | none => .ok s
  | some (.ue x) => .error (s.failStop c 0x0601 c [2, x / 256, x % 256] 3 5)
  | some (.mismatch a e el) => .error (s.accFault c 1 0x0206 a e el)
  | some .read => .error s

/-- Fresh check bits for the codewords of an element. -/
def freshMarks (m : Sparse Nat) (key : Nat) : Sparse Nat := m.filter fun x => decide (x.1 / 5 ≠ key)

/-- The checks of MM in the order of R106; the code of the first that fails. -/
def mmCheck (s : State) (c : Nat) (p : MmArgs) : Option (Nat × Nat) :=
  let h := s.handle c p.ah
  let span : Promo := ⟨p.mask, false, s.cyc c, p.k, p.run, p.step, p.digits, p.m⟩
  if s.maskBad c p.mask then some (1, 0x0200)
  else if (if p.digits = 1 then 48 else 16) < p.n ∨ p.k = 0 then some (2, 0x0201)
  else if 12 < p.acc + p.entries then some (3, 0x0202)
  else if s.cyc c < (s.core c).tm.mmNext ∨ (s.core c).tm.promos.any span.meets then some (4, 0x0203)
  else if !(decide (h.kind = 2) && h.formOk && h.objectOk && decide (0 < h.extent)) ∨
      h.extent / padRow p.m p.fa.width < p.aoff + p.k then some (5, 0x0204)
  else none

/-- Add 1 to ISSUED and the digit cycles to FEED of each array of the mask (R107). -/
def State.countFeed (s : State) (c mask n : Nat) : State :=
  let row (s : State) (a : Nat) (i f : Row) := if bit mask a then (s.bumpC i c 1).bumpC f c n else s
  row (row (row (row s 0 Reg.ARRAY_ISSUED0 Reg.ARRAY_FEED0) 1 Reg.ARRAY_ISSUED1 Reg.ARRAY_FEED1) 2
    Reg.ARRAY_ISSUED2 Reg.ARRAY_FEED2) 3 Reg.ARRAY_ISSUED3 Reg.ARRAY_FEED3

/-- The accumulator rows an instruction promotes into: row and array, in the order of the rows. -/
def MmArgs.tileRows (p : MmArgs) : List (Nat × Nat) := (List.range p.m).flatMap fun i => (maskArrays p.mask).map fun a => (i, a)

/-- What the promotions of an instruction into an accumulator row have left: the core, and what they counted. -/
structure RowsOut where
  core : Core
  rounded : Nat
  losses : Nat
  fault : Option AccFault
  deriving DecidableEq, Repr

/-- The promotions of every run into row i of array a, from the core `k` at issue: an element of another class is not written
(R99, R117–R119). -/
def mmRow (k : Core) (p : MmArgs) (base : Nat) (o : RowsOut) (x : Nat × Nat) : RowsOut :=
  (List.range p.n).foldl (fun o n =>
    let r := k.mmElem p base x.2 x.1 n
    let e := p.acc + n / 16
    let key := accKey x.2 e x.1 (n % 16)
    { core := { o.core with
        acc := Sparse.put Elem.zero o.core.acc key r.elem
        accMarks := if r.mismatch then o.core.accMarks else freshMarks o.core.accMarks key }
      rounded := o.rounded + r.rounded
      losses := o.losses + r.losses
      fault := if o.fault.isNone ∧ r.mismatch then some (.mismatch x.2 e (16 * x.1 + n % 16)) else o.fault }) o

/-- The reads of the promotions into an accumulator row: the first run's; later ones correct again what no run writes. A row with an
uncorrectable codeword is not promoted. -/
def mmRead (c : Nat) (p : MmArgs) (s : State) (x : Nat × Nat) : State × Option AccFault :=
  let k := s.core c
  let (s, ue) := s.accRead c x.2 p.acc p.entries x.1
  let again := (k.accMarked x.2 p.acc p.entries x.1).any fun w =>
    decide (p.n ≤ 16 * (w / 1280 - (12 * x.2 + p.acc)) + w / 5 % 16) && decide (k.accFinds w = 1)
  (if ue.isNone && again then s.accCorrected c ((p.k + p.run - 1) / p.run - 1) else s, ue.map .ue)

/-- The promotions of an instruction, row by row; the core as it stood at issue, the rows still to come, and the outcome so far. -/
def mmRows (c : Nat) (p : MmArgs) (base : Nat) (k : Core) : List (Nat × Nat) → State → RowsOut → State × RowsOut
  | [], s, o => (s, o)
  | x :: r, s, o =>
    let (s, f) := mmRead c p s x
    mmRows c p base k r s (match f with
      | some f => { o with fault := if o.fault.isNone then some f else o.fault }
      | none => mmRow k p base o x)

/-- MM (R95–R106, R108–R123). -/
def mmBody (c : Nat) (s : State) (b : Bundle) : Except State State :=
  let p := mmArgs (bM b)
  match mmCheck s c p with
  | some (f, code) => .error (s.arrayFault c f code p.mask)
  | none =>
    let base := (s.handle c p.ah).base
    let s := s.holdFor c ((s.core c).lookAheadHold p base) .feed
    let y := s.cyc c
    match (s.core c).feedParity p base with
    | some w => .error (s.failStop c 0x0600 c [8 * w / 8192, y] 3 5)
    | none =>
      let k := s.core c
      let (s, o) := mmRows c p base k p.tileRows s ⟨k, 0, 0, none⟩
      let entries := (maskArrays p.mask).flatMap fun a => (List.range p.entries).map fun e => 12 * a + p.acc + e
      let done := p.tLast y + 21
      let s := s.mapCore c fun k => { k with
        acc := o.core.acc, accMarks := o.core.accMarks
        curBank := (maskArrays p.mask).foldl (fun m a => Sparse.put 0 m a (1 - k.bankAt p a (p.k - 1))) k.curBank
        tm := { k.tm with
          mmNext := y + (p.k - 1) * p.step + p.digits
          accDone := entries.foldl (fun m e => Sparse.put 0 m e done) k.tm.accDone
          promos := (k.tm.promos.filter fun q => y ≤ q.last) ++ [⟨p.mask, false, y, p.k, p.run, p.step, p.digits, p.m⟩] } }
      let s := ((s.drainTo c done).bumpC Reg.ACC_ROUNDED c o.rounded).bumpC Reg.ACC_LOSS_EVENTS c o.losses
      (s.countFeed c p.mask (p.k * p.digits)).rowsDone c o.fault

def execMm (c : Nat) (b : Bundle) (s : State) := runSlot .m 1 c b (mmBody c) s

/-! KADD (R124–R126). -/

/-- Add an image element into an entry element of the same class (R125). -/
def addImage (e f : Elem) : Elem :=
  let nan := e.nan || f.nan
  let pinf := e.pinf || f.pinf
  let ninf := e.ninf || f.ninf
  if e.cls ≠ 2 then Elem.make (e.v.toInt + f.v.toInt) nan pinf ninf e.cls (e.loss || f.loss) e.wexp
  else if f.wexp = noRun then Elem.make e.v.toInt nan pinf ninf 2 (e.loss || f.loss) e.wexp
  else if e.wexp = noRun then Elem.make f.v.toInt nan pinf ninf 2 (e.loss || f.loss) f.wexp
  else
    let x := max e.wexp f.wexp
    let d1 := (x - e.wexp).toNat
    let v2 := rneShr e.v.toInt d1
    let lossA := decide (v2 * (2 ^ d1 : Nat) ≠ e.v.toInt)
    let d2 := (x - f.wexp).toNat
    let s2 := rneShr f.v.toInt d2
    let lossB := decide (s2 * (2 ^ d2 : Nat) ≠ f.v.toInt)
    Elem.make (v2 + s2) nan pinf ninf 2 (e.loss || f.loss || lossA || lossB) x

/-- What KADD leaves in one element: replaced whole, added, or a class mismatch that leaves it (R119, R125). -/
def kaddElem (ow : Bool) (e f : Elem) : ElemOut :=
  if ow then ⟨Elem.make f.v.toInt f.nan f.pinf f.ninf f.cls f.loss f.wexp, false, 0, 0⟩
  else if e.cls ≠ f.cls ∨ e.cls = 3 then ⟨e, true, 0, 0⟩
  else ⟨addImage e f, false, 0, 0⟩

/-- Promote image row i, read from bed, into row i of entry e of array a: an uncorrectable row keeps its elements, and so does an element of
another class (R117, R119, R125). -/
def kaddArray (c e i : Nat) (ow : Bool) (vals metas : List Byte) (x : State × Option AccFault) (a : Nat) : State × Option AccFault :=
  let (s, ue) := x.1.accRead c a e 1 i
  match ue with
  | some w => (s, x.2 <|> some (.ue w))
  | none =>
    let k := s.core c
    let o := (List.range 16).foldl (fun (o : RowsOut) j =>
      let f : Elem := ⟨BitVec.ofNat 128 (ofBytes ((vals.drop (16 * j)).take 16)), BitVec.ofNat 32 (ofBytes ((metas.drop (4 * j)).take 4))⟩
      let r := kaddElem ow (k.elem a e i j) f
      { o with
        core := { o.core with
          acc := Sparse.put Elem.zero o.core.acc (accKey a e i j) r.elem
          accMarks := if r.mismatch then o.core.accMarks else freshMarks o.core.accMarks (accKey a e i j) }
        fault := if o.fault.isNone ∧ r.mismatch then some (.mismatch a e (16 * i + j)) else o.fault }) ⟨k, 0, 0, x.2⟩
    (s.setCore c o.core, o.fault)

/-- Rows `i` on of a KADD: each row is read once for all masked arrays by two wide requests and promoted; the first fault of all rows. -/
def kaddRows (c mask e : Nat) (ow : Bool) (at_ : Nat) : Nat → Nat → State × Option AccFault → State × Option AccFault
  | 0, _, x => x
  | n + 1, i, x =>
    let (s, vals) := x.1.wideRead c (at_ + 256 * i) 256
    let (s, metas) := s.wideRead c (at_ + 4096 + 64 * i) 64
    kaddRows c mask e ow at_ n (i + 1) (match vals, metas with
      | some v, some m => (maskArrays mask).foldl (kaddArray c e i ow v m) (s, x.2)
      | _, _ => (s, x.2 <|> some .read))

/-- KADD (R125). IMAGE_RANGE is judged after the conditions of R106 and names the lowest array and element 0 (DESIGN CHOICE,
notes/assumptions/58.md). -/
def kaddBody (c : Nat) (s : State) (b : Bundle) : Except State State :=
  let w := bM b
  let mask := fld w 7 4
  let e := fld w 11 8
  let s := s.waitReg c (fld w 23 19)
  let off := fld (s.sval c (fld w 23 19)) 19 0
  let h := s.handle c (fld w 18 13)
  let y := s.cyc c
  let span : Promo := ⟨mask, true, y, 0, 1, 1, 1, 16⟩
  if s.maskBad c mask then .error (s.arrayFault c 1 0x0200 mask)
  else if 11 < e then .error (s.arrayFault c 3 0x0202 mask)
  else if (s.core c).tm.promos.any span.meets then .error (s.arrayFault c 4 0x0203 mask)
  else if off % 16 ≠ 0 ∨ !h.wide off 5120 then .error (s.accFault c 2 0x0207 (lowArray mask) e 0)
  else
    let s := s.mapTm c fun t => { t with
      accDone := (maskArrays mask).foldl (fun m a => Sparse.put 0 m (12 * a + e) (y + 61)) t.accDone
      promos := (t.promos.filter fun q => y ≤ q.last) ++ [span] }
    let (s, f) := kaddRows c mask e (bit w 12) (h.base + off) 16 0 (s.drainTo c (y + 61), none)
    s.rowsDone c f

def execKadd (c : Nat) (b : Bundle) (s : State) := runSlot .m 3 c b (kaddBody c) s

end Sys2Proof.Machine
end

