-- ==== Sys2Proof/Machine/Pointing.lean ====
section
/-!
DEFINITION. The pointing stage: EXPORT in all its forms, and the export that PULL is carried out as (R130–R146, R159).
-/

namespace Sys2Proof.Machine

/-- A decoded export (R130): fields of the M slot, of the extension, and of SX and SY. -/
structure ExportArgs where
  mask : Nat
  acc : Nat
  m : Nat
  n : Nat
  mode : Nat
  ofmt : Format
  rm : Rm
  sw : Bool
  dest : Nat
  dh : Nat
  treg : Nat
  lane0 : Nat
  fop : Nat
  fh : Nat
  ffmt : Format
  rh : Option Nat
  ch : Option Nat
  oh : Option Nat
  stats : Nat
  sh : Nat
  hist : Nat
  dOff : Nat
  fOff : Nat
  sOff : Nat
  rbase : Nat
  cbase : Nat
  deriving DecidableEq, Repr

/-- Decode EXPORT and its extension (R193); `sx` and `sy` are the scalar values. The row and channel sidecars take no part in raw mode
(R141). -/
def exportArgs (w : Nat) (ext : Option Nat) (sx sy : Nat) : ExportArgs :=
  let x := ext.getD 0
  { mask := fld w 7 4, acc := fld w 11 8, m := fld w 15 12 + 1, n := fld w 21 16 + 1, mode := fld w 23 22,
    ofmt := (Format.ofCode (fld w 27 24)).getD .fp32, rm := (Rm.ofCode (fld w 29 28)).getD .rne, sw := bit w 30,
    dest := fld w 32 31, dh := fld w 54 49, treg := fld w 51 49, lane0 := fld w 57 52,
    fop := fld w 34 33, fh := fld x 5 0, ffmt := (Format.ofCode (fld x 9 6)).getD .int4,
    rh := if bit x 16 && fld w 23 22 != 2 then some (fld x 15 10) else none,
    ch := if bit x 23 && fld w 23 22 != 2 then some (fld x 22 17) else none,
    oh := if bit x 30 then some (fld x 29 24) else none, stats := fld w 36 35, sh := fld x 36 31, hist := fld w 38 37,
    dOff := fld sx 19 0, fOff := fld sx 39 20, sOff := fld sx 59 40, rbase := fld sy 23 0, cbase := fld sy 47 24 }

/-- Number of arrays in the mask. -/
def ExportArgs.arrays (p : ExportArgs) : Nat := (maskArrays p.mask).length

/-- A long export reads a bed operand (R135). -/
def ExportArgs.long (p : ExportArgs) : Bool := decide (p.fop ≠ 0) || p.rh.isSome || p.ch.isSome

/-- Base cycle for issue in cycle c. -/
def ExportArgs.base (p : ExportArgs) (c : Nat) : Nat := if p.long then c + 40 else c

/-- Rows passed and entries read; a raw export takes one whole entry (R141). -/
def ExportArgs.rows (p : ExportArgs) : Nat := if p.mode = 2 then 16 else p.m
def ExportArgs.entries (p : ExportArgs) : Nat := if p.mode = 2 then 1 else (p.n + 15) / 16

/-- The largest slot and the cycle from which the tile is final (R135, R136). -/
def ExportArgs.lastSlot (p : ExportArgs) : Nat :=
  if p.mode = 1 then 2 * p.m - 1 else if p.stats = 1 then 2 * (p.m - 1) else p.rows - 1
def ExportArgs.final (p : ExportArgs) (c : Nat) : Nat :=
  p.base c + (if p.mode = 2 then 21 else if p.mode = 1 ∨ p.stats = 1 then 5 + 2 * p.m else 5 + p.m)

/-- Bytes of n elements of w bits, without padding. -/
def rowLen (n w : Nat) : Nat := (n * w + 7) / 8

/-- Byte offset of row i of rank a' in a tensor of N-element rows (R133). -/
def ExportArgs.rowAt (p : ExportArgs) (w i rank : Nat) : Nat := (i * p.arrays + rank) * padRow p.n w

/-- Bytes from the tensor's start to the last byte of its last row. -/
def ExportArgs.extent (p : ExportArgs) (w : Nat) : Nat := p.rowAt w (p.m - 1) (p.arrays - 1) + rowLen p.n w

/-! Scale sidecars (R73). -/

structure Sidecar where
  kind : Nat
  count : Nat
  deriving DecidableEq, Repr

def Sidecar.ofHeader (bs : List Byte) : Sidecar := let x := ofBytes bs; ⟨fld x 1 0, fld x 31 8⟩

/-- Entry size of a sidecar kind. -/
def Sidecar.size (d : Sidecar) : Nat := if d.kind = 0 then 4 else 1

/-- The scale of an entry: an FP32 value or 2^(e − 127), NaN for e = 255. -/
def Sidecar.value (d : Sidecar) (bs : List Byte) : Val :=
  let x := ofBytes bs
  if d.kind = 0 then fp32 x else if x = 255 then .nan false else .num false 1 ((x : Int) - 127)

/-! The value of one element (R132). -/

/-- The keystone value with its flags. -/
def Elem.value (e : Elem) : Val :=
  if e.nan || (e.pinf && e.ninf) then .nan false
  else if e.pinf then .inf false
  else if e.ninf then .inf true
  else let v := e.v.toInt; .num (decide (v < 0)) v.natAbs e.wexp

/-- An exactly zero value is +0. -/
def Val.plusZero : Val → Val
  | .num n m e => if m = 0 then .num false 0 0 else .num n m e
  | v => v

/-- Exact sum of two values under IEEE special rules. -/
def addV (a b : Val) : Val :=
  match a, b with
  | .nan _, _ => .nan false
  | _, .nan _ => .nan false
  | .inf n, .inf n' => if n = n' then .inf n else .nan false
  | .inf n, _ => .inf n
  | _, .inf n => .inf n
  | .num n m e, .num n' m' e' => let (x, ex) := dyAdd n m e n' m' e'; .num (decide (x < 0)) x.natAbs ex

/-- Scaled and fused value y (steps 2 and 3). -/
def pointValue (fop : Nat) (sr sc : Val) (e : Elem) (f : Val) : Val :=
  let x := ((mulV (mulV sr sc).1 e.value).1).plusZero
  (match fop with
   | 1 => addV x f
   | 2 => (mulV x f).1
   | _ => x).plusZero

/-- The value times 2^(−k). -/
def Val.scaleDown (v : Val) (k : Nat) : Val :=
  match v with
  | .num n m e => .num n m (e - k)
  | v => v

/-- One exported element: its encoding and what it counts as. -/
structure PointRes where
  bits : Nat
  nan : Bool
  inf : Bool
  zero : Bool
  sat : Bool
  vanish : Bool
  drew : Bool
  /-- Top exponent of y', for the histogram. -/
  top : Int
  deriving DecidableEq, Repr

/-- Round y' to OFMT (step 5, R82, R138). -/
def pointRound (f : Format) (rm : Rm) (sw : Bool) (draw : Nat) (y : Val) : PointRes :=
  match y with
  | .nan _ => ⟨f.nanBits.getD 0, true, false, false, false, false, false, 0⟩
  | .inf g =>
    if f.isInt then ⟨f.intInf g, false, false, false, true, false, false, 0⟩ else
    match f.infBits with
    | some b => ⟨f.signBit g + b, false, true, false, false, false, false, 0⟩
    | none => ⟨f.signBit g + f.maxBits, false, false, false, true, false, false, 0⟩
  | .num g m e =>
    if m = 0 then ⟨0, false, false, true, false, false, false, 0⟩ else
    let t := topOf m e
    if f.isInt then
      let r := f.roundInt rm draw sw g m 1 e
      ⟨r.bits, false, false, false, r.ovf && !sw, r.zero, r.drew, t⟩
    else
      let r := f.round rm draw g m 1 e
      ⟨r.bits, false, false, false, r.ovf, r.zero, r.drew, t⟩

/-- Does a finite non-zero value overflow at 2^(−k) under the mode (R139)? -/
def overflows (f : Format) (rm : Rm) (draw k : Nat) (y : Val) : Bool :=
  match y with
  | .num g m e => if m = 0 then false else (f.round rm draw g m 1 (e - k)).ovf
  | _ => false

/-- The replay exponent of a row of a gradient-class export (R139). -/
def replayK (f : Format) (rm : Rm) (row : List (Nat × Val)) : Nat :=
  let ovf := fun k => row.any fun x => overflows f rm x.1 k x.2
  if ovf 0 then
    let e := (maxTop (row.map Prod.snd)).getD 0
    let k := max 1 (e - f.topMax).toNat
    min (if ovf k then k + 1 else k) 127
  else 0

/-! Statistics (R142). -/

/-- The exact sum of dyadic values, as integer and exponent. -/
def exactSum (l : List (Int × Int)) : Int × Int :=
  l.foldl (fun a x => dyAdd (decide (a.1 < 0)) a.1.natAbs a.2 (decide (x.1 < 0)) x.1.natAbs x.2) (0, 0)

/-- Round an exact rational once to FP32 with RNE; a value beyond the range gives +Inf (R142). -/
def statRound (x : Int) (den : Nat) (e : Int) : Nat :=
  if x = 0 then 0 else
  let r := Format.fp32.round .rne 0 (decide (x < 0)) x.natAbs den e
  if r.ovf then inf32 false else r.bits

/-- The two statistics words of a row: `ys` the exact y, `outs` the exported encodings. An infinite y of STATS 2 or 3 counts as an Inf flag
(DESIGN CHOICE, notes/assumptions/59.md). -/
def rowStats (stats : Nat) (f : Format) (ys : List Val) (outs : List Nat) : Nat × Nat :=
  if stats = 1 then
    let v := outs.map fun b => (cvt .fp32 .rne 0 true false (f.decode b)).bits
    (tree (fun a b => (fpMax false a b).bits) 0 v, tree (fun a b => (fpAdd .rne 0 a b).bits) 0 v)
  else
    let n := ys.length
    let fin := ys.filterMap fun y => match y with
      | .num g m e => some ((if g then -(m : Int) else (m : Int)), e)
      | _ => none
    if fin.length ≠ n then (nan32, nan32) else
    let sq := exactSum (fin.map fun x => (x.1 * x.1, 2 * x.2))
    if stats = 2 then (statRound sq.1 1 sq.2, 0)
    else
      let sm := exactSum fin
      -- Σ(y − μ)²/N = (N Σy² − (Σy)²) / N²
      let d := dyAdd (decide (sq.1 < 0)) (sq.1.natAbs * n) sq.2 true (sm.1.natAbs * sm.1.natAbs) (2 * sm.2)
      (statRound sm.1 n sm.2, statRound d.1 (n * n) d.2)

/-! Couplings, captures and faults. -/

/-- Queue coupling: a narrow core, or QUEUE_MODE (R134). -/
def State.queueCoupled (s : State) (c : Nat) : Bool := decide (s.floorState c = 1) || decide (s.df Reg.CTRL_QUEUE_MODE = 1)

/-- A fault of the pointing stage, captured in POINT.FAULT (R145). -/
def State.pointFault (s : State) (c fault code mask : Nat) : State :=
  let y := s.cyc c
  let s := if s.cf Reg.POINT_FAULT c ≠ 0 then s else
    ((s.setC Reg.POINT_FAULT c fault).setC Reg.POINT_FAULT_ARRAY c (lowArray mask)).setC Reg.POINT_FAULT_CYCLE c y
  s.failStop c code c [lowArray mask, y] 2 2

/-- A fault of the dresser, captured in DRESS.FAULT (R164). -/
def State.dressFault (s : State) (c fault code : Nat) : State :=
  let y := s.cyc c
  let s := if s.cf Reg.DRESS_FAULT c ≠ 0 then s else (s.setC Reg.DRESS_FAULT c fault).setC Reg.DRESS_FAULT_CYCLE c y
  s.failStop c code c [y] 2 2

/-- Claimed hod-queue entries (R160). -/
def Core.hodCount (k : Core) : Nat := k.hod.length

/-- The Queue condition: one held cycle, then QUEUE_STALL (R48, R160). -/
def State.queueStall (s : State) (c : Nat) : State :=
  let s := s.holdFor c 1 .queue
  let y := s.cyc c
  let n := (s.core c).hodCount
  let s := if s.cf Reg.DRESS_FAULT c ≠ 0 then s else (s.setC Reg.DRESS_FAULT c 7).setC Reg.DRESS_FAULT_CYCLE c y
  s.failStop c 0x0406 c [y, n] 2 2

/-- The lowest free hod-queue entry (R160). -/
def Core.freeHod (k : Core) : Option Nat := (List.range 4).find? fun e => k.hod.all fun x => x.entry ≠ e

/-- The row writes and reservations of an export to a tile (R161): row, cycle written, reserved cycles. -/
def ExportArgs.rowCycles (p : ExportArgs) (c i : Nat) : List Nat :=
  if p.mode = 1 then [p.base c + 5 + i, p.base c + 5 + p.m + i]
  else if p.stats = 1 then [p.base c + 5 + 2 * i] else [p.base c + 5 + i]

/-- The issue checks in the order of R145, then those of the dresser and the queue in the order TREG_ABSENT, TREG_COLLIDE, QUEUE_STALL
(DESIGN CHOICE, notes/assumptions/59.md): `none` where the export goes on, else its fail-stop. -/
def exportCheck (s : State) (c : Nat) (p : ExportArgs) : Option State :=
  let k := s.core c
  let y := s.cyc c
  let hs := fun (h : Option Nat) => match h with | some h => (s.handle c h).wide 0 8 | none => true
  let lanes := p.arrays * p.n
  let bedOk :=
    (p.dest ≠ 1 || (let h := s.handle c p.dh
                    s.writable c h && h.wide p.dOff (if p.mode = 2 then 5120 * p.arrays else p.extent p.ofmt.width))) &&
    (p.fop = 0 || (s.handle c p.fh).wide p.fOff (p.extent p.ffmt.width)) && hs p.rh && hs p.ch && hs p.oh && (match p.oh with | some h => s.writable c (s.handle c h) | none => true) &&
    (p.stats = 0 || (let h := s.handle c p.sh
                     s.writable c h && h.wide p.sOff (8 * p.arrays * p.m)))
  if s.maskBad c p.mask then some (s.arrayFault c 1 0x0200 p.mask)
  else if p.mode ≠ 2 ∧ 48 < p.n then some (s.arrayFault c 2 0x0201 p.mask)
  else if 12 < p.acc + p.entries then some (s.arrayFault c 3 0x0202 p.mask)
  else if (maskArrays p.mask).any fun a => (List.range p.entries).any fun e =>
      y < Sparse.get 0 k.tm.accDone (12 * a + p.acc + e) then some (s.arrayFault c 6 0x0205 p.mask)
  else if (maskArrays p.mask).any fun a => p.base y + 1 ≤ Sparse.get 0 k.tm.expLast a then some (s.pointFault c 1 0x0300 p.mask)
  else if !bedOk || (p.dest = 2 && 64 < p.lane0 + lanes) || (p.dest = 0 && 64 < lanes) then some (s.pointFault c 2 0x0301 p.mask)
  else if p.dest = 2 ∧ s.queueCoupled c then some (s.pointFault c 3 0x0302 p.mask)
  else if p.dest = 2 ∧ 4 ≤ p.treg ∧ s.cf Reg.DRESS_BEYLER c = 1 then some (s.dressFault c 2 0x0401)
  else if p.dest = 2 ∧ ((List.range p.m).any fun i => (p.rowCycles y i).any fun x =>
      k.collides ⟨x, p.treg, i, .pointing, []⟩) then some (s.dressFault c 4 0x0403)
  else if p.dest = 0 ∧ k.freeHod.isNone then some (s.queueStall c)
  else none

/-- The scales of a sidecar read: entries first to first + n − 1. -/
structure Scales where
  d : Sidecar
  vals : List Val
  deriving DecidableEq, Repr

/-- Read the header of a sidecar. -/
def State.readHeader (s : State) (c h : Nat) : State × Option Sidecar :=
  match s.wideRead c (s.handle c h).base 8 with
  | (s, none) => (s, none)
  | (s, some bs) => (s, some (Sidecar.ofHeader bs))

/-- Read the entries of a sidecar whose header has been judged. -/
def State.readScales (s : State) (c h : Nat) (d : Sidecar) (first n : Nat) : State × Option (List Val) :=
  match s.wideReads c (n * d.size / 512 + 2) ((s.handle c h).base + 8 + first * d.size) (n * d.size) with
  | (s, none) => (s, none)
  | (s, some bs) => (s, some ((List.range n).map fun i => d.value ((bs.drop (i * d.size)).take d.size)))

/-- The sidecars an export reads: handle, first index, number of entries. -/
def ExportArgs.sidecars (p : ExportArgs) : List (Nat × Nat × Nat) :=
  (match p.rh with | some h => [(h, p.rbase, p.m)] | none => []) ++
  (match p.ch with | some h => [(h, p.cbase, p.arrays * p.n)] | none => []) ++
  (match p.oh with | some h => [(h, p.rbase, p.m)] | none => [])

/-- Headers of a list of sidecars. -/
def State.readHeaders (s : State) (c : Nat) : List (Nat × Nat × Nat) → State × Option (List Sidecar)
  | [] => (s, some [])
  | x :: r =>
    match s.readHeader c x.1 with
    | (s, none) => (s, none)
    | (s, some d) =>
      match s.readHeaders c r with
      | (s, none) => (s, none)
      | (s, some ds) => (s, some (d :: ds))

/-- The sidecar checks at the read's return, in order (R145): SIDECAR_KIND, DEST_RANGE, SIDECAR_RANGE. -/
def sidecarCheck (s : State) (c : Nat) (p : ExportArgs) (ds : List Sidecar) : Option State :=
  let l := p.sidecars.zip ds
  if l.any fun x => 2 ≤ x.2.kind then some (s.pointFault c 4 0x0303 p.mask)
  else if l.any fun x => !(s.handle c x.1.1).wide 8 ((x.1.2.1 + x.1.2.2) * x.2.size) then
    some (s.pointFault c 2 0x0301 p.mask)
  else if l.any fun x => x.2.count < x.1.2.1 + x.1.2.2 then some (s.pointFault c 5 0x0304 p.mask)
  else none

/-- The draw key of a rounding instruction issued in the current bundle (R80). -/
def State.drawKey (s : State) (c src : Nat) : DrawKey :=
  ⟨s.cf Reg.NUM_SEED c, s.df Reg.CTRL_COURSE_NUMBER, s.cyc c, s.cf Reg.NUM_TAG c, src⟩

/-- Count one element in the histogram set (R143). -/
def State.countHist (s : State) (c hist : Nat) (r : PointRes) : State :=
  if hist = 0 then s else
  let set := hist - 1
  if r.nan then s.bump Reg.POINT_NAN c set 1
  else if r.inf then s.bump Reg.POINT_INF c set 1
  else if r.zero then s.bump Reg.POINT_ZERO c set 1
  else if r.sat then s.bump Reg.POINT_SATURATED c set 1
  else if r.vanish then s.bump Reg.POINT_VANISHED c set 1
  else
    let bin := (min 63 (max 0 (r.top - signedOf 8 (s.cf Reg.POINT_BIN_BASE c)))).toNat
    if set = 0 then s.bump Reg.POINT_BIN0 c bin 1 else s.bump Reg.POINT_BIN1 c bin 1

/-- Count one exported element of array a (R138, R146). -/
def State.countPoint (s : State) (c a hist : Nat) (r : PointRes) : State :=
  let s := s.countHist c hist r
  let s := if r.sat then
    ((s.bumpC Reg.POINT_SAT_COUNT c 1).setC Reg.POINT_SAT c (Nat.lor (s.cf Reg.POINT_SAT c) (2 ^ a))).setC
      Reg.POINT_LAST_SAT c (Nat.lor (s.cf Reg.POINT_LAST_SAT c) (2 ^ a)) else s
  let s := if r.vanish then s.bumpC Reg.POINT_VANISH_COUNT c 1 else s
  let s := if r.nan then s.bumpC Reg.POINT_NAN_COUNT c 1 else s
  if r.drew then s.bumpC Reg.NUM_SR_COUNT c 1 else s

/-- Pack elements of w bits into bytes, pad bits zero (R69). -/
def packBits (w : Nat) (xs : List Nat) : List Byte :=
  toBytes (rowLen xs.length w) ((xs.zipIdx).foldl (fun n x => n + x.1 % 2 ^ w * 2 ^ (w * x.2)) 0)

/-- The draw of element (i, n) of an array (R80, R132). -/
def ExportArgs.draw (p : ExportArgs) (k : DrawKey) (i n : Nat) : Nat := if p.rm = .sr then k.draw (i * 64 + n) else 0

/-- The exact values y of row i of one array (R132, steps 1 to 3); a fused operand is read where R133 lays it out. -/
def rowValues (s : State) (c : Nat) (p : ExportArgs) (srs scs : List Val) (i rank a : Nat) : List Val :=
  let one : Val := .num false 1 0
  let fx := if p.fop = 0 then 0 else
    ofBytes (s.bytesAt (windowBase c + ((s.handle c p.fh).base + p.fOff + p.rowAt p.ffmt.width i rank)) (rowLen p.n p.ffmt.width))
  (List.range p.n).map fun n =>
    pointValue p.fop (srs.getD i one) (scs.getD (rank * p.n + n) one) ((s.core c).elem a (p.acc + n / 16) i (n % 16))
      (p.ffmt.decode (fx / 2 ^ (n * p.ffmt.width) % 2 ^ p.ffmt.width))

/-- The replay exponent k of row i, over the elements of every masked array (R139); 0 outside gradient class. -/
def lineK (s : State) (c : Nat) (p : ExportArgs) (srs scs : List Val) (i : Nat) : Nat :=
  if p.mode = 1 then
    replayK p.ofmt p.rm ((maskArrays p.mask).zipIdx.flatMap fun ar =>
      (rowValues s c p srs scs i ar.2 ar.1).zipIdx.map fun x => (p.draw (s.drawKey c ar.1) i x.2, x.1))
  else 0

/-- One row of one array: values, rounding at 2^(−kx), writes, statistics and counts (R132–R143). `s0` is the state that the reads saw, `entry` the
claimed hod-queue entry of a queue destination. -/
def exportRow (c : Nat) (p : ExportArgs) (entry : Nat) (srs scs : List Val) (y i kx : Nat) (s0 s : State) (ra : Nat × Nat) : State :=
  let (a, rank) := ra
  let ys := rowValues s0 c p srs scs i rank a
  let outs := ys.zipIdx.map fun x => pointRound p.ofmt p.rm p.sw (p.draw (s.drawKey c a) i x.2) (x.1.scaleDown kx)
  let flagged (n : Nat) : Bool := let e := (s.core c).elem a (p.acc + n / 16) i (n % 16); e.pinf || e.ninf
  let s := outs.zipIdx.foldl (fun s r => s.countPoint c a p.hist { r.1 with inf := r.1.inf || flagged r.2 }) s
  let bits := outs.map PointRes.bits
  let s : State := match p.dest with
    | 1 => s.bedWrite c ((s.handle c p.dh).base + p.dOff + p.rowAt p.ofmt.width i rank) (packBits p.ofmt.width bits)
    | d =>
      let t := if d = 2 then p.treg else 8 + entry
      let l0 := (if d = 2 then p.lane0 else 0) + rank * p.n
      let lanes := bits.zipIdx.map fun x => (l0 + x.2, BitVec.ofNat 32 x.1)
      let cyc := p.base y + 5 + (if p.mode = 1 then (if 0 < kx then p.m + i else i) else if p.stats = 1 then 2 * i else i)
      let other := p.base y + 5 + (if 0 < kx then i else p.m + i)
      s.mapCore c fun k => { k with rowWrites :=
        let l := insertWrite ⟨cyc, t, i, .pointing, lanes⟩ k.rowWrites
        if p.mode = 1 then insertWrite ⟨other, t, i, .pointing, []⟩ l else l }
  if p.stats = 0 then s else
    let (w0, w1) := rowStats p.stats p.ofmt ys bits
    s.bedWrite c ((s.handle c p.sh).base + p.sOff + (rank * p.m + i) * 8) (toBytes 4 w0 ++ toBytes 4 w1)

/-- Row i of every masked array, in ascending array number. -/
def exportLine (c : Nat) (p : ExportArgs) (entry : Nat) (srs scs : List Val) (y i kx : Nat) (s0 s : State) : State :=
  (maskArrays p.mask).zipIdx.foldl (exportRow c p entry srs scs y i kx s0) s

/-- The output sidecar takes 2^k in its entry RBASE + i, and a replayed row counts (R139, R140). -/
def closeLine (c : Nat) (p : ExportArgs) (i kx : Nat) (s0 s : State) : State :=
  let s := if 0 < kx then s.bumpC Reg.POINT_REPLAY_ROWS c 1 else s
  match p.oh with
  | none => s
  | some h =>
    let b := (s.handle c h).base
    let e8 := fld (ofBytes (s0.bytesAt (windowBase c + b) 8)) 1 0 = 1
    if e8 then s.bedWrite c (b + 8 + p.rbase + i) (toBytes 1 (127 + kx))
    else s.bedWrite c (b + 8 + 4 * (p.rbase + i)) (toBytes 4 ((127 + kx) * 2 ^ 23))

/-- The accumulator reads of row i of every masked array, made in one cycle (R135): with an uncorrectable codeword the export ends, and neither
this row nor a later one is written (R144). -/
def readLine (c : Nat) (p : ExportArgs) (i : Nat) (s : State) : Except State State :=
  let (s, f) := (maskArrays p.mask).foldl (fun (x : State × Option AccFault) a =>
    let (s, u) := x.1.accRead c a p.acc p.entries i
    (s, x.2 <|> u.map .ue)) (s, none)
  s.rowsDone c f

/-- Pass 1 of row i: it is read, and written unless a gradient-class row overflows (R139). -/
def firstPass (c : Nat) (p : ExportArgs) (entry : Nat) (srs scs : List Val) (y : Nat) (s0 : State) (i : Nat) (s : State) : Except State State :=
  (readLine c p i s).map fun s => if lineK s0 c p srs scs i = 0 then exportLine c p entry srs scs y i 0 s0 s else s

/-- Pass 2 of row i of a gradient-class export: an overflowing row is read again and written at its reduced scale (R139). -/
def secondPass (c : Nat) (p : ExportArgs) (entry : Nat) (srs scs : List Val) (y : Nat) (s0 : State) (i : Nat) (s : State) : Except State State :=
  let kx := lineK s0 c p srs scs i
  if kx = 0 then .ok (closeLine c p i 0 s0 s)
  else (readLine c p i s).map fun s => closeLine c p i kx s0 (exportLine c p entry srs scs y i kx s0 s)

/-- Raw export of row i of one array: 256 bytes of values and 64 of metadata (R141). -/
def rawRow (c : Nat) (p : ExportArgs) (i : Nat) (s : State) (ra : Nat × Nat) : State :=
  let at_ := (s.handle c p.dh).base + p.dOff + 5120 * ra.2
  let es := (List.range 16).map fun j => (s.core c).elem ra.1 p.acc i j
  let s := s.bedWrite c (at_ + 256 * i) (es.flatMap fun e => toBytes 16 e.v.toNat)
  s.bedWrite c (at_ + 4096 + 64 * i) (es.flatMap fun e => toBytes 4 e.md.toNat)

def rawLine (c : Nat) (p : ExportArgs) (i : Nat) (s : State) : Except State State :=
  (readLine c p i s).map fun s => (maskArrays p.mask).zipIdx.foldl (rawRow c p i) s

/-- Do a list of actions in order, stopping at the first that fail-stops. -/
def chain : List (State → Except State State) → State → Except State State
  | [], s => .ok s
  | f :: r, s => (f s).bind (chain r)

/-- The fused rows from row i on: they are all read before the first row is written (R135, R137). The number of rows delivered for every array;
an uncorrectable row ends the reads. -/
def readFused (c : Nat) (p : ExportArgs) : Nat → Nat → State → State × Nat
  | 0, i, s => (s, i)
  | n + 1, i, s =>
    let (s, ok) := (List.range p.arrays).foldl (fun (x : State × Bool) rank =>
      let (s, d) := x.1.wideReads c 2 ((s.handle c p.fh).base + p.fOff + p.rowAt p.ffmt.width i rank) (rowLen p.n p.ffmt.width)
      (s, x.2 && d.isSome)) (s, true)
    if ok then readFused c p n (i + 1) s else (s, i)

/-- The tile, of whose rows `n` have their fused operand (R135, R139, R141, R144). -/
def exportTileRows (c : Nat) (p : ExportArgs) (entry : Nat) (srs scs : List Val) (y n : Nat) (s : State) : Except State State :=
  if p.mode = 2 then chain ((List.range 16).map (rawLine c p)) s
  else
    (chain ((List.range n).map (firstPass c p entry srs scs y s)) s).bind fun t =>
      if n < p.m then .error t
      else if p.mode = 1 then chain ((List.range p.m).map (secondPass c p entry srs scs y s)) t
      else .ok t

/-- An export from its issue on; the same for EXPORT and PULL (R130–R145, R159). An export that fails a check at issue counts as issued by its bundle
only, not in EXPORTS (DESIGN CHOICE, notes/assumptions/59.md). -/
def exportBody (c : Nat) (p : ExportArgs) (s : State) : Except State State :=
  match exportCheck s c p with
  | some t => .error t
  | none =>
    let y := s.cyc c
    let entry := (s.core c).freeHod.getD 0
    let s := (s.bumpC Reg.POINT_EXPORTS c 1).setC Reg.POINT_LAST_SAT c
      ((maskArrays p.mask).foldl (fun m a => if bit m a then m - 2 ^ a else m) (s.cf Reg.POINT_LAST_SAT c))
    let s := s.mapCore c fun k => { k with
      hod := if p.dest = 0 then k.hod ++ [⟨entry, p.final y, none⟩] else k.hod
      tm := { k.tm with expLast := (maskArrays p.mask).foldl (fun m a => Sparse.put 0 m a (p.base y + 1 + p.lastSlot)) k.tm.expLast } }
    let s := s.drainTo c (p.final y)
    match s.readHeaders c p.sidecars with
    | (s, none) => .error s
    | (s, some ds) =>
      match sidecarCheck s c p ds with
      | some t => .error t
      | none =>
        let rd := p.rh.isSome
        let (s, srs) := match p.rh, ds with
          | some h, d :: _ => s.readScales c h d p.rbase p.m
          | _, _ => (s, some [])
        match srs with
        | none => .error s
        | some srs =>
          let (s, scs) := match p.ch, (if rd then ds.drop 1 else ds) with
            | some h, d :: _ => s.readScales c h d p.cbase (p.arrays * p.n)
            | _, _ => (s, some [])
          match scs with
          | none => .error s
          | some scs =>
            let (s, n) := if p.fop = 0 then (s, p.m) else readFused c p p.m 0 s
            exportTileRows c p entry srs scs y n s

/-- EXPORT. -/
def execExport (c : Nat) (b : Bundle) (s : State) :=
  runSlot .m 2 c b (fun s b =>
    let w := bM b
    let s := (s.waitReg c (fld w 43 39)).waitReg c (fld w 48 44)
    exportBody c (exportArgs w (bExt b) (s.sval c (fld w 43 39)) (s.sval c (fld w 48 44))) s) s

end Sys2Proof.Machine
end

