-- ==== Sys2Proof/Machine/Flags.lean ====
section
/-!
DEFINITION. Flag computations: the strict-mode flags of DRESS.FLAGS, the convert status and the stochastic count (R89, R154, R163, R178).
-/

namespace Sys2Proof.Machine

/-- What one lane result adds to the status registers. -/
structure Tally where
  fl : FpFlags := {}
  nan : Nat := 0
  sat : Nat := 0
  vanish : Nat := 0
  drew : Nat := 0
  deriving DecidableEq, Repr

def Tally.join (a b : Tally) : Tally :=
  ⟨a.fl.join b.fl, a.nan + b.nan, a.sat + b.sat, a.vanish + b.vanish, a.drew + b.drew⟩

def Tally.all (l : List Tally) : Tally := l.foldl Tally.join {}

def FpRes.tally (r : FpRes) : Tally := { fl := r.fl, drew := b2n r.drew }

def CvtRes.tally (r : CvtRes) : Tally :=
  { fl := r.fl, nan := b2n r.nan, sat := b2n r.sat, vanish := b2n r.vanish, drew := b2n r.drew }

/-- Set a sticky flag of DRESS.FLAGS. -/
def State.stick (s : State) (c : Nat) (r : Row) (on : Bool) : State := if on then s.setC r c 1 else s

/-- Set the IEEE flags in strict mode only (R163, R178). -/
def State.setFlags (s : State) (c : Nat) (f : FpFlags) : State :=
  if s.cf Reg.NUM_VSTRICT c = 1 then
    ((((s.stick c Reg.DRESS_IV f.iv).stick c Reg.DRESS_DZ f.dz).stick c Reg.DRESS_OF f.ovf).stick c Reg.DRESS_UF f.unf).stick
      c Reg.DRESS_NX f.nx
  else s

/-- Add a tally: flags, convert status (R154) and SR_COUNT (R89). -/
def State.tally (s : State) (c : Nat) (t : Tally) : State :=
  ((((s.setFlags c t.fl).bumpC Reg.DRESS_CVT_NAN c t.nan).bumpC Reg.DRESS_CVT_SAT c t.sat).bumpC
    Reg.DRESS_CVT_VANISH c t.vanish).bumpC Reg.NUM_SR_COUNT c t.drew

end Sys2Proof.Machine
end

