-- ==== Sys2Proof/Machine/Dresser.lean ====
section
/-!
DEFINITION. The V slot: one meaning per dresser operation, over shared operand reads, occupancy and row writes (R147–R164).
-/

namespace Sys2Proof.Machine

/-- How a 16-bit immediate widens (R150); PACK and UNPACK, which R150 does not list, take it zero-extended (DESIGN CHOICE,
notes/assumptions/60.md). -/
inductive ImmKind where
  | float | int | bits
  deriving DecidableEq, Repr

/-- The immediate as a lane pattern. -/
def immLane (b : Bundle) (kind : ImmKind) : Nat :=
  let (v, wide) := vImmediate b
  if wide then v else
  match kind with
  | .float => v * 65536
  | .int => wrapTo 32 (signedOf 16 v)
  | .bits => v

/-- VL and RL as the current bundle reads them (R186). -/
def State.vl (s : State) (c : Nat) : Nat := (s.core c).seq.view.vl
def State.rl (s : State) (c : Nat) : Nat := (s.core c).seq.view.rl

/-- The head of the hod queue: the earliest claim not yet released (R160). -/
def Core.hodHead (k : Core) : Option HodClaim := k.hod.find? fun x => x.release.isNone

/-- Tile and row of row r of cache row base q: the storage of t4–t7 (R162). -/
def cacheAt (q r : Nat) : Nat × Nat := (4 + (q + r) / 16, (q + r) % 16)

/-- A lane of a source in the read cycle of row r (R150, R152). -/
def Core.source (k : Core) (b : Bundle) (kind : ImmKind) (f cyc r l : Nat) : Nat :=
  let row := if srcBcast f then 0 else r
  let code := srcCode f
  if code < 8 then (k.laneAt cyc code row l).toNat
  else if code = 0xA then immLane b kind
  else if code = 0xB then let (t, w) := cacheAt (vQB (bV b)) row; (k.laneAt cyc t w l).toNat
  else match k.hodHead with
    | some x => (k.laneAt cyc (8 + x.entry) row l).toNat
    | none => 0

/-- Tile and row of destination row r. -/
def destAt (b : Bundle) (code r : Nat) : Nat × Nat := if code = 0xB then cacheAt (vQB (bV b)) r else (code, r)

/-- A tile-register code that does not exist in the current mode (R162, R164). -/
def absent (beyler : Bool) (code : Nat) : Bool := if beyler then decide (4 ≤ code) && decide (code < 8) else decide (code = 0xB)

/-- The issue checks every dresser operation shares, in order: VECTOR_BUSY, TREG_ABSENT, OC_RANGE, the operation's own, the Queue
condition, then write collisions. `own` is the operation's fault and event, if any; `writes` its row writes. -/
def vCheck (s : State) (c : Nat) (b : Bundle) (srcs dsts : List Nat) (own : Option (Nat × Nat)) (writes : List RowWrite) :
    Option State :=
  let k := s.core c
  let y := s.cyc c
  let beyler := decide (s.cf Reg.DRESS_BEYLER c = 1)
  let codes := srcs.map srcCode
  if y < k.tm.vNext then some (s.dressFault c 1 0x0400)
  else if (codes ++ dsts).any (absent beyler) then some (s.dressFault c 2 0x0401)
  else if (codes ++ dsts).contains 0xB ∧ 64 < vQB (bV b) + s.rl c then some (s.dressFault c 3 0x0402)
  else match own with
  | some (f, code) => some (s.dressFault c f code)
  | none =>
    if (codes.any fun x => x = 8 || x = 9) && (match k.hodHead with | some h => decide (y + 1 < h.final) | none => true) then
      some (s.queueStall c)
    else if writes.any fun w => k.rowWrites.any fun x => x.src = .dresser && x.cycle = w.cycle then some (s.dressFault c 1 0x0400)
    else if writes.any k.collides then some (s.dressFault c 4 0x0403)
    else none

/-- Occupy the dresser for q cycles, count, release a popped head entry, and plan the row writes (R152, R160). -/
def State.vCommit (s : State) (c q : Nat) (srcs : List Nat) (writes : List RowWrite) : State :=
  let y := s.cyc c
  let pop := (srcs.map srcCode).contains 9
  let s := (s.bumpC Reg.DRESS_VOPS c 1).bumpC Reg.DRESS_BUSY c q
  s.mapCore c fun k => { k with
    tm := { k.tm with vNext := y + q }
    rowWrites := writes.foldl (fun l w => insertWrite w l) k.rowWrites
    hod := if pop then
      (match k.hodHead with
       | some h => k.hod.map fun x => if x.entry = h.entry ∧ x.release.isNone then { x with release := some (y + q) } else x
       | none => k.hod)
      else k.hod }

/-- The cells of an operation: rows below RL, lanes below VL. -/
def grid (rl vl : Nat) : List (Nat × Nat) := (List.range rl).flatMap fun r => (List.range vl).map fun l => (r, l)

/-- Row writes of an operation whose row r lands in cycle `at r`. -/
def rowsOf (b : Bundle) (code rl vl : Nat) (at_ : Nat → Nat) (lane : Nat → Nat → Nat) : List RowWrite :=
  if vl = 0 then [] else
  (List.range rl).map fun r =>
    let (t, w) := destAt b code r
    ⟨at_ r, t, w, .dresser, (List.range vl).map fun l => (l, BitVec.ofNat 32 (lane r l))⟩

/-- An element-wise operation with latency `lat`: f gets the draw, a, b and c of each lane (R151, R152). -/
def elementwise (c lat : Nat) (kind : ImmKind) (f : Nat → Nat → Nat → Nat → CvtRes) (s : State) (b : Bundle) : Except State State :=
  let v := bV b
  let srcs := vSources v
  let k := s.core c
  let y := s.cyc c
  let rl := s.rl c
  let vl := s.vl c
  let sr := decide (vRM v = 2)
  let dk := s.drawKey c 4
  let res := fun r l =>
    f (if sr then dk.draw (64 * r + l) else 0) (k.source b kind (vSA v) (y + 1 + r) r l)
      (k.source b kind (vSB v) (y + 1 + r) r l) (k.source b kind (vSC v) (y + 1 + r) r l)
  let writes := rowsOf b (vDst v) rl vl (fun r => y + lat + r) fun r l => (res r l).bits
  match vCheck s c b srcs [vDst v] none writes with
  | some t => .error t
  | none =>
    let t := Tally.all ((grid rl vl).map fun x => (res x.1 x.2).tally)
    .ok ((s.vCommit c rl srcs writes).tally c t)

/-- The RM field of a V-R, V-C or V-X operation. -/
def vRm (b : Bundle) : Rm := (Rm.ofCode (vRM (bV b))).getD .rne

def FpRes.asCvt (r : FpRes) : CvtRes := { bits := r.bits, fl := r.fl, drew := r.drew }
def plainRes (x : Nat) : CvtRes := { bits := x % 2 ^ 32 }

def vFloat (op c : Nat) (b : Bundle) (f : Rm → Nat → Nat → Nat → Nat → FpRes) (s : State) :=
  runSlot .v op c b (fun s b => elementwise c 4 .float (fun d x y z => (f (vRm b) d x y z).asCvt) s b) s

def execFadd (c : Nat) (b : Bundle) (s : State) := vFloat 0x01 c b (fun rm d x y _ => fpAdd rm d x y) s
def execFsub (c : Nat) (b : Bundle) (s : State) := vFloat 0x02 c b (fun rm d x y _ => fpSub rm d x y) s
def execFmul (c : Nat) (b : Bundle) (s : State) := vFloat 0x03 c b (fun rm d x y _ => fpMul rm d x y) s
def execFma (c : Nat) (b : Bundle) (s : State) := vFloat 0x04 c b (fun rm d x y z => fpFma rm d false x y z) s
def execFms (c : Nat) (b : Bundle) (s : State) := vFloat 0x05 c b (fun rm d x y z => fpFma rm d true x y z) s
def execFmax (c : Nat) (b : Bundle) (s : State) := vFloat 0x06 c b (fun _ _ x y _ => fpMax false x y) s
def execFmin (c : Nat) (b : Bundle) (s : State) := vFloat 0x07 c b (fun _ _ x y _ => fpMax true x y) s

/-- FABS and FNEG: the sign cleared or inverted; a NaN gives the canonical NaN. -/
def fpSign (negate : Bool) (a : Nat) : FpRes :=
  match fp32 a with
  | .nan s => ⟨nan32, { iv := s }, false⟩
  | _ => ⟨if negate then (a + 2 ^ 31) % 2 ^ 32 else a % 2 ^ 31, {}, false⟩

def execFabs (c : Nat) (b : Bundle) (s : State) := vFloat 0x08 c b (fun _ _ x _ _ => fpSign false x) s
def execFneg (c : Nat) (b : Bundle) (s : State) := vFloat 0x09 c b (fun _ _ x _ _ => fpSign true x) s

/-- An exact integer result, then saturate or wrap (R82). -/
def intRes (sw : Bool) (x : Int) : Nat :=
  if sw then wrapTo 32 x
  else wrapTo 32 (max (-(2 ^ 31 : Nat)) (min ((2 ^ 31 : Nat) - 1) x))

def vInt (op lat c : Nat) (b : Bundle) (f : Bool → Int → Int → Nat) (s : State) :=
  runSlot .v op c b (fun s b =>
    elementwise c lat .int (fun _ x y _ => plainRes (f (vSW (bV b)) (signedOf 32 x) (signedOf 32 y))) s b) s

def execIadd (c : Nat) (b : Bundle) (s : State) := vInt 0x10 2 c b (fun sw x y => intRes sw (x + y)) s
def execIsub (c : Nat) (b : Bundle) (s : State) := vInt 0x11 2 c b (fun sw x y => intRes sw (x - y)) s
def execImul (c : Nat) (b : Bundle) (s : State) := vInt 0x12 4 c b (fun sw x y => intRes sw (x * y)) s
def execImax (c : Nat) (b : Bundle) (s : State) := vInt 0x13 2 c b (fun _ x y => wrapTo 32 (max x y)) s
def execImin (c : Nat) (b : Bundle) (s : State) := vInt 0x14 2 c b (fun _ x y => wrapTo 32 (min x y)) s

def vLane (op lat c : Nat) (b : Bundle) (kind : ImmKind) (f : Lane → Lane → Lane → Lane) (s : State) :=
  runSlot .v op c b (fun s b =>
    elementwise c lat kind (fun _ x y z => plainRes (f (BitVec.ofNat 32 x) (BitVec.ofNat 32 y) (BitVec.ofNat 32 z)).toNat) s b) s

def execVShl (c : Nat) (b : Bundle) (s : State) := vLane 0x15 2 c b .int (fun x y _ => x <<< (y.toNat % 32)) s
def execVShr (c : Nat) (b : Bundle) (s : State) := vLane 0x16 2 c b .int (fun x y _ => x >>> (y.toNat % 32)) s
def execVSar (c : Nat) (b : Bundle) (s : State) := vLane 0x17 2 c b .int (fun x y _ => x.sshiftRight (y.toNat % 32)) s
def execVAnd (c : Nat) (b : Bundle) (s : State) := vLane 0x18 2 c b .bits (fun x y _ => x &&& y) s
def execVOr (c : Nat) (b : Bundle) (s : State) := vLane 0x19 2 c b .bits (fun x y _ => x ||| y) s
def execVXor (c : Nat) (b : Bundle) (s : State) := vLane 0x1A 2 c b .bits (fun x y _ => x ^^^ y) s
def execAndn (c : Nat) (b : Bundle) (s : State) := vLane 0x1B 2 c b .bits (fun x y _ => x &&& ~~~y) s
def execMov (c : Nat) (b : Bundle) (s : State) := vLane 0x1C 2 c b .bits (fun x _ _ => x) s

/-- FCMP (R75, R151). -/
def execFcmp (c : Nat) (b : Bundle) (s : State) :=
  runSlot .v 0x20 c b (fun s b => elementwise c 2 .float (fun _ x y _ => (fpCmp (vSUB (bV b)) x y).asCvt) s b) s

/-- ICMP: signed. -/
def execIcmp (c : Nat) (b : Bundle) (s : State) :=
  runSlot .v 0x21 c b (fun s b =>
    elementwise c 2 .int (fun _ x y _ =>
      plainRes (if ccHolds (vSUB (bV b)) (signedOf 32 x - signedOf 32 y) then 0xFFFFFFFF else 0)) s b) s

/-- SEL: a where m ≠ 0, else b. -/
def execSel (c : Nat) (b : Bundle) (s : State) := vLane 0x22 2 c b .bits (fun x y m => if m ≠ 0#32 then x else y) s

/-- An operation that computes a row from whole source rows: `f` gets a and b of the row as functions of the lane; it answers lanes. -/
def rowwise (c lat : Nat) (f : Nat → (Nat → Nat) → (Nat → Nat) → List (Nat × Nat)) (s : State) (b : Bundle) : Except State State :=
  let v := bV b
  let srcs := vSources v
  let k := s.core c
  let y := s.cyc c
  let rl := s.rl c
  let vl := s.vl c
  let writes : List RowWrite := if vl = 0 then [] else (List.range rl).map fun r =>
    let (t, w) := destAt b (vDst v) r
    ⟨y + lat + r, t, w, .dresser,
      (f vl (fun l => k.source b .bits (vSA v) (y + 1 + r) r l) (fun l => k.source b .bits (vSB v) (y + 1 + r) r l)).map
        fun x => (x.1, BitVec.ofNat 32 x.2)⟩
  match vCheck s c b srcs [vDst v] none writes with
  | some t => .error t
  | none => .ok (s.vCommit c rl srcs writes)

/-- PERM: a[r][v] with v the index lane; 0 outside 0–63. -/
def permRow (vl : Nat) (a idx : Nat → Nat) : List (Nat × Nat) :=
  (List.range vl).map fun l =>
    let v := signedOf 32 (idx l)
    (l, if v < 0 ∨ 63 < v then 0 else a v.toNat)

def execPerm (c : Nat) (b : Bundle) (s : State) := runSlot .v 0x23 c b (rowwise c 3 permRow) s

/-- The eight shuffle patterns (R151). -/
def shufRow (pat p vl : Nat) (a b : Nat → Nat) : List (Nat × Nat) :=
  (List.range vl).map fun l =>
    (l, match pat with
      | 0 => a (vl - 1 - l)
      | 1 => a (Nat.xor l 1)
      | 2 => if l % 2 = 0 then a (l / 2) else b (l / 2)
      | 3 => if l % 2 = 0 then a (32 + l / 2) else b (32 + l / 2)
      | 4 => if l < 32 then a (2 * l) else b (2 * l - 64)
      | 5 => if l < 32 then a (2 * l + 1) else b (2 * l - 63)
      | 6 => a ((l + p) % 64)
      | _ => a p)

def execShuf (c : Nat) (b : Bundle) (s : State) :=
  runSlot .v 0x24 c b (fun s b => rowwise c 3 (shufRow (vSUB (bV b)) (vImm16 (bV b) % 64)) s b) s

/-- The element width PACK and UNPACK name (R156, R195). -/
def packWidth (sub : Nat) : Nat := match sub with | 0 => 4 | 1 => 6 | 2 => 8 | _ => 16

/-- PACK: the low w bits of lanes 0 to VL − 1 as a byte stream, whole lanes written. -/
def packRow (w vl : Nat) (a _ : Nat → Nat) : List (Nat × Nat) :=
  let x := (List.range vl).foldl (fun n l => n + a l % 2 ^ w * 2 ^ (w * l)) 0
  (List.range ((vl * w + 31) / 32)).map fun l => (l, x / 2 ^ (32 * l) % 2 ^ 32)

/-- UNPACK: element l of the source row's byte stream, zero-extended. -/
def unpackRow (w vl : Nat) (a _ : Nat → Nat) : List (Nat × Nat) :=
  (List.range vl).map fun l =>
    let i := l * w / 32
    (l, (a i + a (i + 1) * 2 ^ 32) / 2 ^ (l * w % 32) % 2 ^ w)

def execPack (c : Nat) (b : Bundle) (s : State) :=
  runSlot .v 0x28 c b (fun s b => rowwise c 3 (packRow (packWidth (vSUB (bV b)))) s b) s
def execUnpack (c : Nat) (b : Bundle) (s : State) :=
  runSlot .v 0x29 c b (fun s b => rowwise c 3 (unpackRow (packWidth (vSUB (bV b)))) s b) s

/-! Conversions (R83–R85, R154, R155). -/

def vFmt (n : Nat) : Format := (Format.ofCode n).getD .fp32

/-- CVT. -/
def execCvt (c : Nat) (b : Bundle) (s : State) :=
  runSlot .v 0x30 c b (fun s b =>
    let v := bV b
    elementwise c 4 .bits (fun d x _ _ =>
      cvt (vFmt (fld v 23 20)) (vRm b) d (bit v 29) (vSW v) ((vFmt (fld v 19 16)).decode x)) s b) s

/-- The block size of CVT.S and AMAXS. -/
def blockSize (n : Nat) : Nat := match n with | 0 => 16 | 1 => 32 | _ => 64

/-- A lane value times 2^(127 − e); e = 255 gives NaN, which a signalling NaN operand still makes invalid (R154, R163). -/
def unscale (v : Val) (e : Nat) : Val :=
  if e = 255 then .nan v.isSnan else
  match v with
  | .num g m x => .num g m (x + 127 - e)
  | w => w

/-- CVT.S: the block scale of register ts applied exactly before the one rounding. -/
def execCvtS (c : Nat) (b : Bundle) (s : State) :=
  runSlot .v 0x31 c b (fun s b =>
    let v := bV b
    let srcs := vSources v
    let k := s.core c
    let y := s.cyc c
    let rl := s.rl c
    let vl := s.vl c
    let ts := fld v 38 36
    let bs := blockSize (fld v 40 39)
    let lb := fld v 46 41
    let dk := s.drawKey c 4
    let res := fun r l =>
      let e := (k.laneAt (y + 1 + r) ts r (lb + l / bs)).toNat % 256
      let x := k.source b .bits (vSA v) (y + 1 + r) r l
      cvt (vFmt (fld v 23 20)) (vRm b) (if vRM v = 2 then dk.draw (64 * r + l) else 0) (bit v 29) (vSW v)
        (unscale ((vFmt (fld v 19 16)).decode x) e)
    let writes := rowsOf b (vDst v) rl vl (fun r => y + 4 + r) fun r l => (res r l).bits
    let own := if 0 < vl ∧ 63 < lb + (vl - 1) / bs then some (5, 0x0404) else none
    match vCheck s c b (srcs ++ [ts]) [vDst v] own writes with
    | some t => .error t
    | none => .ok ((s.vCommit c rl srcs writes).tally c (Tally.all ((grid rl vl).map fun x => (res x.1 x.2).tally)))) s

/-- rtz_bf16 of a finite FP32 value, as an FP32 pattern (R85). -/
def rtzBf16 (x : Nat) : Nat := x / 65536 * 65536

/-- The pieces hi, mid and lo of an FP32 value as BF16 encodings (R85). -/
def split3 (x : Nat) : List Nat :=
  match fp32 x with
  | .nan _ => [0x7FC0, 0, 0]
  | .inf g => [if g then 0xFF80 else 0x7F80, 0, 0]
  | _ =>
    let hi := rtzBf16 x
    let r1 := (fpSub .rtz 0 x hi).bits
    let mid := rtzBf16 r1
    let r2 := (fpSub .rtz 0 r1 mid).bits
    [hi / 65536, mid / 65536, rtzBf16 r2 / 65536]

/-- SPLIT2 and SPLIT3: n pieces into n consecutive tile registers, all rows r in cycle c + 4 + r (R155). -/
def splitBody (n c : Nat) (s : State) (b : Bundle) : Except State State :=
  let v := bV b
  let srcs := vSources v
  let k := s.core c
  let y := s.cyc c
  let rl := s.rl c
  let vl := s.vl c
  let d := vDst v
  let beyler := decide (s.cf Reg.DRESS_BEYLER c = 1)
  let writes := (List.range n).flatMap fun p =>
    rowsOf b (d + p) rl vl (fun r => y + 4 + r) fun r l => (split3 (k.source b .float (vSA v) (y + 1 + r) r l)).getD p 0
  if k.tm.vNext ≤ y ∧ (d = 0xB ∨ (if beyler then 4 else 8) < d + n) then .error (s.dressFault c 2 0x0401) else
  match vCheck s c b srcs [] none writes with
  | some t => .error t
  | none =>
    let sn := (grid rl vl).any fun x => (fp32 (k.source b .float (vSA v) (y + 1 + x.1) x.1 x.2)).isSnan
    .ok ((s.vCommit c rl srcs writes).setFlags c { iv := sn })

def execSplit2 (c : Nat) (b : Bundle) (s : State) := runSlot .v 0x32 c b (splitBody 2 c) s
def execSplit3 (c : Nat) (b : Bundle) (s : State) := runSlot .v 0x33 c b (splitBody 3 c) s

/-! Reductions (R157). -/

/-- A reduction value: its bits and the flags of the roundings made. -/
structure RedVal where
  bits : Nat
  fl : FpFlags := {}
  deriving DecidableEq, Repr

def redAdd (rm : Rm) (a b : RedVal) : RedVal :=
  let r := fpAdd rm 0 a.bits b.bits
  ⟨r.bits, (a.fl.join b.fl).join r.fl⟩

def redMax (isMin : Bool) (a b : RedVal) : RedVal :=
  let r := fpMax isMin a.bits b.bits
  ⟨r.bits, (a.fl.join b.fl).join r.fl⟩

/-- The canonical NaN for a NaN operand (R68). -/
def canon (x : Nat) : Nat := if (fp32 x).isNan then nan32 else x

/-- The results of a reduction over elements x (first read) and z (second read of RMV): op 0 RSUM, 1 RMAX, 2 RMIN, 3 RSSQ, 4 RMV. -/
def reduce (op : Nat) (rm : Rm) (x z : List Nat) : List RedVal :=
  let n := x.length
  let lift := fun (l : List Nat) => l.map fun b => (⟨b, {}⟩ : RedVal)
  let sumTree := fun (l : List RedVal) => tree (redAdd rm) ⟨0, {}⟩ l
  let fixed := fun (r : RedVal) => { r with bits := canon r.bits }
  match op with
  | 0 => [fixed (sumTree (lift x))]
  | 1 => [fixed (tree (redMax false) ⟨0, {}⟩ (lift x))]
  | 2 => [fixed (tree (redMax true) ⟨0, {}⟩ (lift x))]
  | 3 => [fixed (sumTree (x.map fun b => let r := fpMul rm 0 b b; ⟨r.bits, r.fl⟩))]
  | _ =>
    let t := sumTree (lift x)
    let m := fpDivN rm t.bits n
    let mu : RedVal := ⟨m.bits, t.fl.join m.fl⟩
    let q := z.map fun b =>
      let d := fpSub rm 0 b mu.bits
      let p := fpMul rm 0 d.bits d.bits
      (⟨p.bits, d.fl.join p.fl⟩ : RedVal)
    let v := sumTree q
    let w := fpDivN rm v.bits n
    [mu, ⟨w.bits, (mu.fl.join v.fl).join w.fl⟩]

/-- A reduction on axis L or R (R152, R157). The second row that RMV writes on axis R must lie in the cache too (R162). -/
def reduceBody (op c : Nat) (s : State) (b : Bundle) : Except State State :=
  let v := bV b
  let srcs := vSources v
  let k := s.core c
  let y := s.cyc c
  let rl := s.rl c
  let vl := s.vl c
  let axisR := bit v 16
  let lane := fld v 22 17
  let rm := vRm b
  let two := decide (op = 4)
  let q := if two && !axisR then 2 * rl else rl
  let outs : List (Nat × List RedVal) :=
    if vl = 0 then [] else
    if axisR then (List.range vl).map fun l =>
      let xs := (List.range rl).map fun r => k.source b .float (vSA v) (y + 1 + r) r l
      (l, reduce op rm xs xs)
    else (List.range rl).map fun r =>
      let c1 := if two then y + 1 + 2 * r else y + 1 + r
      let xs := (List.range vl).map fun l => k.source b .float (vSA v) c1 r l
      let zs := (List.range vl).map fun l => k.source b .float (vSA v) (c1 + 1) r l
      (r, reduce op rm xs (if two then zs else xs))
  let writes : List RowWrite :=
    if vl = 0 then [] else
    if axisR then (List.range (if two then 2 else 1)).map fun i =>
      let (t, w) := destAt b (vDst v) i
      ⟨y + rl + 8, t, w, .dresser, outs.map fun o => (o.1, BitVec.ofNat 32 ((o.2.getD i ⟨0, {}⟩).bits))⟩
    else outs.map fun o =>
      let (t, w) := destAt b (vDst v) o.1
      ⟨if two then y + 24 + 2 * o.1 else y + 12 + o.1, t, w, .dresser,
        o.2.zipIdx.map fun x => (lane + x.2, BitVec.ofNat 32 x.1.bits)⟩
  let own := if !axisR && two && decide (62 < lane) then some (5, 0x0404)
    else if axisR && two && decide (vDst v = 0xB) && decide (62 < vQB v) then some (3, 0x0402) else none
  match vCheck s c b srcs [vDst v] own writes with
  | some t => .error t
  | none =>
    .ok ((s.vCommit c q srcs writes).setFlags c (outs.foldl (fun f o => o.2.foldl (fun f r => f.join r.fl) f) {}))

def execRsum (c : Nat) (b : Bundle) (s : State) := runSlot .v 0x38 c b (reduceBody 0 c) s
def execRmax (c : Nat) (b : Bundle) (s : State) := runSlot .v 0x39 c b (reduceBody 1 c) s
def execRmin (c : Nat) (b : Bundle) (s : State) := runSlot .v 0x3A c b (reduceBody 2 c) s
def execRssq (c : Nat) (b : Bundle) (s : State) := runSlot .v 0x3B c b (reduceBody 3 c) s
def execRmv (c : Nat) (b : Bundle) (s : State) := runSlot .v 0x3C c b (reduceBody 4 c) s

/-- Does a positive magnitude overflow the target format (R78)? -/
def magOverflows (f : Format) (rm : Rm) (m : Nat) (e : Int) : Bool :=
  if f.isInt then (f.roundInt rm 0 false false m 1 e).ovf else (f.round rm 0 false m 1 e).ovf

/-- The scale exponent of a block, or none where it holds no finite non-zero element (R158). -/
def amaxExp (f : Format) (rm : Rm) (xs : List Nat) : Option Int :=
  let fin := xs.filterMap fun b => match fp32 b with
    | .num _ m e => if m = 0 then none else some (m, e)
    | _ => none
  let big := fin.foldl (fun o x => match o with
    | none => some x
    | some y => if cmpV (.num false y.1 y.2) (.num false x.1 x.2) < 0 then some x else some y) none
  big.map fun a =>
    let se := topOf a.1 a.2 - f.topMax
    let se := if magOverflows f rm a.1 (a.2 - se) then se + 1 else se
    max (-127) (min se 127)

/-- The scale value AMAXS writes: 2^se as FP32, or se + 127 in eight bits. -/
def amaxOut (sk : Bool) (se : Int) : Nat :=
  if sk then (se + 127).toNat else (Format.fp32.round .rne 0 false 1 1 se).bits

/-- AMAXS (R158). -/
def execAmaxs (c : Nat) (b : Bundle) (s : State) :=
  runSlot .v 0x3D c b (fun s b =>
    let v := bV b
    let srcs := vSources v
    let k := s.core c
    let y := s.cyc c
    let rl := s.rl c
    let vl := s.vl c
    let axisR := bit v 16
    let lane := fld v 22 17
    let f := vFmt (fld v 39 36)
    let bs := blockSize (fld v 41 40)
    let sk := bit v 42
    let blocks := (vl + bs - 1) / bs
    let get := fun r l => k.source b .float (vSA v) (y + 1 + r) r l
    let outs : List (Nat × List (Option Int)) :=
      if vl = 0 then [] else
      if axisR then [(0, (List.range vl).map fun l => amaxExp f (vRm b) ((List.range rl).map fun r => get r l))]
      else (List.range rl).map fun r => (r, (List.range blocks).map fun i =>
        amaxExp f (vRm b) ((List.range (min bs (vl - i * bs))).map fun j => get r (i * bs + j)))
    let writes : List RowWrite := outs.map fun o =>
      let (t, w) := destAt b (vDst v) o.1
      ⟨if axisR then y + rl + 8 else y + 12 + o.1, t, w, .dresser,
        o.2.zipIdx.map fun x => ((if axisR then 0 else lane) + x.2, BitVec.ofNat 32 (amaxOut sk (x.1.getD 0)))⟩
    let own := if !axisR && decide (0 < vl) && decide (63 < lane + blocks - 1) then some (5, 0x0404) else none
    match vCheck s c b srcs [vDst v] own writes with
    | some t => .error t
    | none =>
      let zeros := outs.foldl (fun n o => n + (o.2.filter Option.isNone).length) 0
      .ok (((s.vCommit c rl srcs writes).bumpC Reg.DRESS_AMAX_ZERO c zeros).stick c Reg.DRESS_AZ (decide (0 < zeros)))) s

/-! Memory (R153). -/

/-- Offset and stride of VLD and VST, and the MEM_RANGE condition. -/
def vMem (s : State) (c : Nat) (b : Bundle) (write : Bool) : Nat × Nat × Bool :=
  let v := bV b
  let x := s.sval c (fld v 26 22)
  let off := fld x 23 0
  let stride := fld x 47 24
  let h := s.handle c (fld v 21 16)
  let inside := (List.range (s.rl c)).all fun r => h.wide (off + r * stride) (4 * s.vl c)
  (off, stride, !(decide (off % 4 = 0) && decide (stride % 4 = 0) && inside && (!write || s.writable c h)))

/-- Rows of a VLD, read one wide request each. -/
def vldRows (c base stride n : Nat) : List Nat → State → State × Option (List (List Byte))
  | [], s => (s, some [])
  | r :: rs, s =>
    match s.wideRead c (base + r * stride) n with
    | (s, none) => (s, none)
    | (s, some d) =>
      match vldRows c base stride n rs s with
      | (s, none) => (s, none)
      | (s, some ds) => (s, some (d :: ds))

/-- VLD: row r from bed to destination row r, in cycle c + 41 + r. -/
def execVld (c : Nat) (b : Bundle) (s : State) :=
  runSlot .v 0x40 c b (fun s b =>
    let v := bV b
    let s := s.waitReg c (fld v 26 22)
    let y := s.cyc c
    let rl := s.rl c
    let vl := s.vl c
    let (off, stride, bad) := vMem s c b false
    let plan := rowsOf b (vDst v) rl vl (fun r => y + 41 + r) fun _ _ => 0
    match vCheck s c b [] [vDst v] (if bad then some (5, 0x0404) else none) plan with
    | some t => .error t
    | none =>
      let base := (s.handle c (fld v 21 16)).base + off
      match (if vl = 0 then (s, some []) else vldRows c base stride (4 * vl) (List.range rl) s) with
      | (s, none) => .error s
      | (s, some rows) =>
        let writes := rowsOf b (vDst v) rl vl (fun r => y + 41 + r) fun r l =>
          ofBytes (((rows.getD r []).drop (4 * l)).take 4)
        .ok (s.vCommit c rl [] writes)) s

/-- VST: row r of the source to bed, in effect in cycle c + 2 + r. -/
def execVst (c : Nat) (b : Bundle) (s : State) :=
  runSlot .v 0x41 c b (fun s b =>
    let v := bV b
    let s := s.waitReg c (fld v 26 22)
    let k := s.core c
    let y := s.cyc c
    let rl := s.rl c
    let vl := s.vl c
    let (off, stride, bad) := vMem s c b true
    match vCheck s c b [vSA v] [] (if bad then some (5, 0x0404) else none) [] with
    | some t => .error t
    | none =>
      let base := (s.handle c (fld v 21 16)).base + off
      let s := if vl = 0 then s else (List.range rl).foldl (fun s r =>
        s.bedWrite c (base + r * stride)
          ((List.range vl).flatMap fun l => toBytes 4 (k.source b .bits (vSA v) (y + 1 + r) r l))) s
      .ok ((s.vCommit c rl [vSA v] []).drainTo c (y + 1 + rl))) s

/-! Loop shape (R149). -/

/-- Set VL and RL; V instructions of later cycles see them. -/
def State.setShape (s : State) (c vl rl : Nat) : State := (s.setC Reg.DRESS_VL c vl).setC Reg.DRESS_RL c rl

/-- SETVL, the immediate form. -/
def execSetvl (c : Nat) (b : Bundle) (s : State) :=
  runSlot .v 0x48 c b (fun s b =>
    let v := bV b
    let vl := fld v 13 7
    let rl := fld v 18 14
    match vCheck s c b [] [] (if 64 < vl ∨ rl = 0 ∨ 16 < rl then some (6, 0x0405) else none) [] with
    | some t => .error t
    | none => .ok ((s.vCommit c 1 [] []).setShape c vl rl)) s

/-- SETVL.R, the register form, clamped. A SETVL of either form issued before the dresser is free is VECTOR_BUSY as R152 has it for every V-slot
instruction but PULL; R149's occupied dresser is read as one whose rows are still being written (DESIGN CHOICE, notes/assumptions/60.md). -/
def execSetvlR (c : Nat) (b : Bundle) (s : State) :=
  runSlot .v 0x49 c b (fun s b =>
    let v := bV b
    let s := (s.waitReg c (fld v 11 7)).waitReg c (fld v 16 12)
    match vCheck s c b [] [] none [] with
    | some t => .error t
    | none => .ok ((s.vCommit c 1 [] []).setShape c (min (s.sval c (fld v 11 7)) 64) (min (max (s.sval c (fld v 16 12)) 1) 16))) s

/-- The export that a PULL names (R159). -/
def pullArgs (v : Nat) : ExportArgs :=
  { mask := 2 ^ fld v 8 7, acc := fld v 12 9, m := fld v 16 13 + 1, n := fld v 22 17 + 1, mode := 0,
    ofmt := if bit v 35 then .int32 else .fp32, rm := (Rm.ofCode (fld v 33 32)).getD .rne, sw := bit v 34,
    dest := 2, dh := 0, treg := fld v 25 23, lane0 := fld v 31 26, fop := 0, fh := 0, ffmt := .int4,
    rh := none, ch := none, oh := none, stats := 0, sh := 0, hist := 0, dOff := 0, fOff := 0, sOff := 0, rbase := 0, cbase := 0 }

/-- PULL: the export of R159. -/
def execPull (c : Nat) (b : Bundle) (s : State) :=
  runSlot .v 0x50 c b (fun s b => exportBody c (pullArgs (bV b)) (s.bumpC Reg.DRESS_VOPS c 1)) s

end Sys2Proof.Machine
end

