-- ==== Sys2Proof/Machine/Template.lean ====
section
/-!
DEFINITION. The template unit: the native image, the reduction and evaluation of every function, and TEVAL, TLOAD and TSWAP with the moments that close them (R166–R181).
-/

namespace Sys2Proof.Machine

/-! The native image (R169, R172). Function values are integers in units of 2^−128, rounded down. -/

/-- Round the quotient of an integer and a positive divisor to nearest even. -/
def divRne (x : Int) (d : Nat) : Int :=
  let q := x / (d : Int)
  let r := 2 * (x % (d : Int))
  if (d : Int) < r ∨ (r = (d : Int) ∧ q % 2 = 1) then q + 1 else q

/-- Terms x^(2k+1) / (2k+1) of the inverse hyperbolic tangent at x = n / d, summed over `k` terms. -/
def atanhSum (n d : Nat) : Nat → Nat → Nat → Nat
  | 0, _, _ => 0
  | k + 1, pow, j => pow / (2 * j + 1) + atanhSum n d k (pow * n * n / (d * d)) (j + 1)

/-- ln(n / d) for n ≥ d, in units of 2^−192. -/
def lnUnits (n d : Nat) : Nat := 2 * atanhSum (n - d) (n + d) 90 ((n - d) * 2 ^ 192 / (n + d)) 0

/-- ln 2 in units of 2^−192. -/
def ln2Units : Nat := lnUnits 2 1

/-- Terms of the exponential series of x (units of 2^−192). -/
def expSum (x : Nat) : Nat → Nat → Nat → Nat
  | 0, _, _ => 0
  | k + 1, term, j => term + expSum x k (term * x / (2 ^ 192 * (j + 1))) (j + 1)

/-- 2^(n / d) on [0, 1], in units of 2^−128. -/
def exp2At (n d : Nat) : Nat :=
  if n = d then 2 ^ 129 else (expSum (ln2Units * n / d) 60 (2 ^ 192) 0 + 2 ^ 63) / 2 ^ 64

/-- ln(m) / (m − 1) at m = n / d, in units of 2^−128; 1 at m = 1. -/
def logRatioAt (n d : Nat) : Nat :=
  if n = d then 2 ^ 128
  else if d < n then lnUnits n d * d / (n - d) / 2 ^ 64
  else lnUnits d n * d / (d - n) / 2 ^ 64

/-- 1 / √(n / d), in units of 2^−128. -/
def rsqrtAt (n d : Nat) : Nat := isqrt (d * 2 ^ 256 / n)

/-- The span of a segment: the index in its range, the last index of the range, and f at a point given in 512ths of the range's
unit (R169, R171). -/
def segSpan (seg : Nat) : Nat × Nat × (Nat → Nat) :=
  if seg < 256 then (seg, 255, fun x => exp2At x 512)
  else if seg < 384 then (seg - 256, 127, fun x => logRatioAt (512 + x) 512)
  else if seg < 512 then (seg - 384, 127, fun x => logRatioAt (768 + x) 1024)
  else if seg < 768 then (seg - 512, 255, fun x => 2 ^ 128 * 512 / (512 + x))
  else if seg < 1024 then (seg - 768, 255, fun x => rsqrtAt (512 + x) 512)
  else (seg - 1024, 255, fun x => rsqrtAt (512 + x) 256)

/-- c0 of the segment that starts at point x. -/
def c0At (f : Nat → Nat) (x : Nat) : Int := divRne (f x) (2 ^ 98)

/-- A native segment entry, 97 bits (R171, R172). -/
def nativeSegment (seg : Nat) : Nat :=
  let (i, _, f) := segSpan seg
  let c0 := c0At f (2 * i)
  let c0' := c0At f (2 * i + 2)
  let c2 := divRne ((f (2 * i + 2) : Int) - 2 * (f (2 * i + 1) : Int) + (f (2 * i) : Int)) (2 ^ 97)
  let c1 := c0' - c0 - c2
  wrapTo 32 c0 + wrapTo 32 c1 * 2 ^ 32 + wrapTo 32 c2 * 2 ^ 64 + 2 ^ 96

/-- A segment of the Beyler image as the configuration gives it: the 256 segments of its functions are linear (R177). -/
def beylerWord (seg : Nat) : Nat := let v := (Config.beylerSegment seg).toNat; if seg < 256 then v % 2 ^ 96 else v

/-- FP32 result, in ulp of the binade below 1, that linear segment word v gives RSQ at the last input before the next segment: C0 + C1 · t in units
of 2^−48 with t = 2^18 − 1, rounded to nearest even (R168, R177). -/
def lastUlp (v : Nat) : Int :=
  let x := signedOf 32 (fld v 31 0) * 2 ^ 18 + signedOf 32 (fld v 63 32) * (2 ^ 18 - 1)
  let q := x / 2 ^ 24
  let r := x % 2 ^ 24
  if r < 2 ^ 23 ∨ (r = 2 ^ 23 ∧ q % 2 = 0) then q else q + 1

/-- The Beyler image: segments 197, 211 and 227 begin one ulp above the end of the segment before, the backward steps of RSQ (R177); what C0 holds
below that ulp is the configuration's. -/
def beylerSegment (seg : Nat) : Nat :=
  let v := beylerWord seg
  if seg = 197 ∨ seg = 211 ∨ seg = 227 then
    putFld v 31 0 (wrapTo 32 (64 * (lastUlp (beylerWord (seg - 1)) + 1) + ((v % 63 : Nat) : Int) - 31))
  else v

/-- A segment of the image that is loaded as a whole: native or Beyler (R172, R177). -/
def imageSegment (beyler : Bool) (seg : Nat) : Nat := if beyler then beylerSegment seg else nativeSegment seg

/-- Segment `seg` of a bank (R171). -/
def Core.segment (k : Core) (bank seg : Nat) : Nat :=
  match k.segs.find? fun x => decide (x.1 = 1280 * bank + seg) with
  | some x => x.2
  | none => imageSegment k.beylerImage seg

/-- Store a segment of a bank; bits [127:97] are not kept. -/
def Core.setSegment (k : Core) (bank seg v : Nat) : Core :=
  { k with segs := Sparse.put (imageSegment k.beylerImage seg) k.segs (1280 * bank + seg) (v % 2 ^ 97) }

/-! Evaluation (R167, R168, R170). -/

/-- The functions of TEVAL (R166). -/
inductive TFun where
  | exp | log | rcp | rsq | sqrt
  deriving DecidableEq, Repr

def TFun.ofCode : Nat → TFun
  | 0 => .exp | 1 => .log | 2 => .rcp | 3 => .rsq | _ => .sqrt

/-- The polynomial of a segment entry at offset t (R167). -/
def segPoly (entry t w : Nat) : Int :=
  let c0 := signedOf 32 (fld entry 31 0)
  let c1 := signedOf 32 (fld entry 63 32)
  let c2 := signedOf 32 (fld entry 95 64)
  c0 * 2 ^ (2 * w) + c1 * t * 2 ^ w + (if bit entry 96 then c2 * t * t else 0)

/-- The mantissa M and the exponent e of a finite non-zero FP32 pattern, subnormals normalised. -/
def normal32 (x : Nat) : Nat × Int :=
  let ex := fld x 30 23
  let m := fld x 22 0
  if ex = 0 then
    let l := Nat.log2 m
    ((m <<< (23 - l)) % 2 ^ 23, (l : Int) - 149)
  else (m, (ex : Int) - 127)

/-- ln 2 and log2 e in units of 2^−62 (R168). -/
def tLn2 : Nat := 0x2C5C85FDF473DE6B
def tL2e : Nat := 0x5C551D94AE0BF85E

/-- Segment, offset and offset width of the mantissa functions (R168, R177); `p` is the exponent parity. -/
def lookupOf (beyler : Bool) (f : TFun) (mant p : Nat) : Nat × Nat × Nat :=
  match f, beyler with
  | .rcp, false => (512 + fld mant 22 15, fld mant 14 0, 15)
  | .log, false => (256 + fld mant 22 15, fld mant 14 0, 15)
  | _, false => (768 + 256 * p + fld mant 22 15, fld mant 14 0, 15)
  | .rcp, true => (128 + fld mant 22 17, fld mant 16 0, 17)
  | .log, true => (64 + fld mant 22 17, fld mant 16 0, 17)
  | _, true => (192 + 32 * p + fld mant 22 18, fld mant 17 0, 18)

/-- The exact value x · 2^40 of an EXP input toward zero, after the clamp to ±128 (R168). -/
def expFixed (x : Nat) : Int :=
  match fp32 x with
  | .num n m e =>
    let big := decide (128 * 2 ^ 40 ≤ if 0 ≤ e + 40 then m <<< (e + 40).toNat else m >>> (-(e + 40)).toNat)
    let v : Nat := if big then 128 * 2 ^ 40 else if 0 ≤ e + 40 then m <<< (e + 40).toNat else m >>> (-(e + 40)).toNat
    if n then -(v : Int) else v
  | _ => 0

/-- The exact result of R168 before rounding for a finite non-zero input: an integer and the exponent of its unit. -/
def templateExact (beyler : Bool) (seg : Nat → Nat) (f : TFun) (x : Nat) : Int × Int :=
  let (m, e) := normal32 x
  let p := (e % 2).toNat
  let neg := bit x 31
  match f with
  | .exp =>
    let y := expFixed x * tL2e / 2 ^ 62
    let n := y / 2 ^ 40
    let fr := (y % 2 ^ 40).toNat
    if beyler then (segPoly (seg (fld fr 39 34)) (fld fr 33 17) 17, n - 64)
    else (segPoly (seg (fld fr 39 32)) (fld fr 31 9) 23, n - 76)
  | .log =>
    let (i, t, w) := lookupOf beyler .log m p
    let upper := bit m 22
    let e' := if upper then e + 1 else e
    let d : Int := if upper then (m : Int) - 2 ^ 23 else 2 * m
    (e' * ((tLn2 * 2 ^ (2 * w - 8) : Nat) : Int) + d * segPoly (seg i) t w, -(54 + 2 * w : Nat))
  | .rcp =>
    let (i, t, w) := lookupOf beyler .rcp m p
    let a := segPoly (seg i) t w
    (if neg then -a else a, -e - (30 + 2 * w : Nat))
  | .rsq =>
    let (i, t, w) := lookupOf beyler .rsq m p
    (segPoly (seg i) t w, -((e - p) / 2) - (30 + 2 * w : Nat))
  | .sqrt =>
    let (i, t, w) := lookupOf beyler .sqrt m p
    (((2 ^ 23 + m : Nat) : Int) * segPoly (seg i) t w, (e + p) / 2 - (53 + 2 * w : Nat))

/-- The results of the special-value table (R170), where the input is special. -/
def templateSpecial (f : TFun) (x : Nat) : Option FpRes :=
  let invalid : FpRes := ⟨nan32, { iv := true }, false⟩
  match fp32 x with
  | .nan s => some ⟨nan32, { iv := s }, false⟩
  | .inf false => some (match f with | .exp | .log | .sqrt => ⟨inf32 false, {}, false⟩ | _ => ⟨0, {}, false⟩)
  | .inf true => some (match f with | .exp => ⟨0, {}, false⟩ | .rcp => ⟨zero32 true, {}, false⟩ | _ => invalid)
  | .num n m _ =>
    if m = 0 then
      some (match f with
        | .exp => ⟨0x3F800000, {}, false⟩
        | .log => ⟨inf32 true, { dz := true }, false⟩
        | .rcp | .rsq => ⟨inf32 n, { dz := true }, false⟩
        | .sqrt => ⟨zero32 n, {}, false⟩)
    else if n then (match f with | .log | .rsq | .sqrt => some invalid | _ => none)
    else none

/-- The inputs on which EXP, LOG and RSQ are exact (R178). -/
def templateIsExact (f : TFun) (x : Nat) : Bool :=
  let (m, e) := normal32 x
  match f with
  | .log => decide (x = 0x3F800000)
  | .rsq => decide (m = 0) && decide (e % 2 = 0)
  | _ => false

/-- A table result, rounded once; the strict flags judge it against the exact function value (R170, R178). -/
def templateTable (beyler : Bool) (seg : Nat → Nat) (f : TFun) (rm : Rm) (x : Nat) : FpRes :=
  let (v, e) := templateExact beyler seg f x
  let r := if v = 0 then (⟨0, {}, false⟩ : FpRes) else fpRound rm 0 (decide (v < 0)) v.natAbs 1 e
  let exact := templateIsExact f x
  { r with fl := { r.fl with nx := !exact, unf := !exact && (r.fl.unf || decide (r.bits % 2 ^ 31 < 2 ^ 23)) } }

/-- RCP and SQRT of strict mode: correctly rounded (R178). -/
def templateStrict (f : TFun) (rm : Rm) (x : Nat) : FpRes :=
  match fp32 x with
  | .num n m e =>
    if f = .rcp then fpRound rm 0 n 1 m (-e)
    else let (q, e') := sqrtParts m e; fpRound rm 0 false q 1 e'
  | _ => ⟨nan32, {}, false⟩

/-- One element of TEVAL (R168, R170, R178). -/
def templateEval (beyler strict : Bool) (seg : Nat → Nat) (f : TFun) (rm : Rm) (x : Nat) : FpRes :=
  match templateSpecial f x with
  | some r => r
  | none =>
    if strict && (f = .rcp || f = .sqrt) then templateStrict f rm x
    else templateTable beyler seg f rm x

/-! The instructions. -/

/-- A fault of the template unit, captured in TPL.FAULT (R180). -/
def State.templateFault (s : State) (c fault code : Nat) : State :=
  let y := s.cyc c
  let s := if s.cf Reg.TPL_FAULT c ≠ 0 then s else (s.setC Reg.TPL_FAULT c fault).setC Reg.TPL_FAULT_CYCLE c y
  s.failStop c code c [y] 2 2

/-- A TSWAP is pending (R175). -/
def State.swapPending (s : State) (c : Nat) : Bool := (s.core c).tm.swapAt.isSome

/-- The row writes of a TEVAL: element group q covers one row and up to 16 lanes (R179). -/
def templateWrites (dst rl vl base step : Nat) (val : Nat → Nat → Nat → Nat) : List RowWrite :=
  let g := (vl + 15) / 16
  (List.range (rl * g)).map fun q =>
    let r := q / g
    let l := 16 * (q % g)
    ⟨base + step * q, dst, r, .template,
      (List.range (min 16 (vl - l))).map fun i => (l + i, BitVec.ofNat 32 (val q r (l + i)))⟩

/-- TEVAL (R166–R170, R178, R179). -/
def tevalBody (c : Nat) (s : State) (b : Bundle) : Except State State :=
  let w := bT b
  let f := TFun.ofCode (fld w 5 3)
  let src := fld w 8 6
  let dst := fld w 11 9
  let rm := (Rm.ofCode (fld w 13 12)).getD .rne
  let k := s.core c
  let y := s.cyc c
  let rl := s.rl c
  let vl := s.vl c
  let beyler := decide (s.cf Reg.DRESS_BEYLER c = 1)
  let strict := decide (s.cf Reg.NUM_VSTRICT c = 1)
  let slow := strict && (f = .rcp || f = .sqrt)
  let groups := rl * ((vl + 15) / 16)
  let q := max 1 (if slow then 8 * groups else groups)
  let bank := s.cf Reg.TPL_ACTIVE c
  let step := if slow then 8 else 1
  let res := fun g r l => templateEval beyler strict (k.segment bank) f rm (k.laneAt (y + 1 + step * g) src r l).toNat
  let writes := templateWrites dst rl vl (y + if slow then 16 else 9) step fun g r l => (res g r l).bits
  if y < k.tm.tNext ∨ s.swapPending c then .error (s.templateFault c 1 0x0500)
  else if beyler && (decide (4 ≤ src) || decide (4 ≤ dst)) then .error (s.templateFault c 2 0x0501)
  else if s.cf Reg.TPL_LOADING c = 1 then .error (s.templateFault c 5 0x0504)
  else if writes.any k.collides then .error (s.templateFault c 3 0x0502)
  else
    let t := Tally.all ((grid rl vl).map fun x => (res (x.1 * ((vl + 15) / 16) + x.2 / 16) x.1 x.2).tally)
    let s := s.mapCore c fun k => { k with
      tm := { k.tm with tNext := y + q, lastLookup := if slow || groups = 0 then k.tm.lastLookup else y + 1 + groups }
      rowWrites := writes.foldl (fun l w => insertWrite w l) k.rowWrites }
    .ok ((s.setFlags c t.fl).bumpC Reg.TPL_EVALS c (rl * vl))

def execTeval (c : Nat) (b : Bundle) (s : State) := runSlot .t 1 c b (tevalBody c) s

/-- TLOAD and TSWAP in Beyler mode: refused and recorded, and the task goes on (R177). -/
def State.tableBusy (s : State) (c : Nat) : State :=
  ((s.setC Reg.TPL_TABLE_BUSY c 1).bumpC Reg.TPL_REFUSED c 1).note 0x0505 c [s.cyc c]

/-- First segment and count of a RANGE (R166, R171, R174). -/
def rangeOf : Nat → Nat × Nat
  | 0 => (0, 256) | 1 => (256, 256) | 2 => (512, 256) | 3 => (768, 512) | _ => (0, 1280)

/-- Store the segments of a byte list from segment `seg` of a bank. -/
def Core.loadSegments (k : Core) (bank seg : Nat) (bs : List Byte) : Nat → Core
  | 0 => k
  | n + 1 => Core.loadSegments (k.setSegment bank seg (ofBytes (bs.take 16))) bank (seg + 1) (bs.drop 16) n

/-- TLOAD (R174). -/
def tloadBody (c : Nat) (s : State) (b : Bundle) : Except State State :=
  let w := bT b
  let (first, n) := rangeOf (fld w 5 3)
  let hd := fld w 11 6
  let sr := fld w 16 12
  let s := s.waitReg c sr
  let y := s.cyc c
  if s.cf Reg.DRESS_BEYLER c = 1 then .ok (s.tableBusy c)
  else if y < (s.core c).tm.tloadNext ∨ s.swapPending c then .error (s.templateFault c 1 0x0500)
  else
    let off := fld (s.sval c sr) 23 0
    let h := s.handle c hd
    if off % 16 ≠ 0 ∨ !h.wide off (16 * n) then .error (s.templateFault c 4 0x0503)
    else match s.readRun c 64 (n / 4) (h.base + off) (16 * n) with
    | (s, none) => .error s
    | (s, some bs) =>
      let bank := 1 - s.cf Reg.TPL_ACTIVE c
      .ok (s.mapCore c fun k =>
        let k := k.loadSegments bank first bs n
        { k with tm := { k.tm with
            tloadNext := y + n / 4, lastShadow := y + 40 + n / 4, tloads := k.tm.tloads ++ [y + 40 + n / 4] } })

def execTload (c : Nat) (b : Bundle) (s : State) := runSlot .t 2 c b (tloadBody c) s

/-- TSWAP (R175). -/
def tswapBody (c : Nat) (s : State) (_ : Bundle) : Except State State :=
  let y := s.cyc c
  if s.cf Reg.DRESS_BEYLER c = 1 then .ok (s.tableBusy c)
  else if s.swapPending c then .error (s.templateFault c 1 0x0500)
  else .ok (s.mapTm c fun t => { t with swapAt := some (max (y + 1) (max (t.lastLookup + 1) (t.lastShadow + 1))) })

def execTswap (c : Nat) (b : Bundle) (s : State) := runSlot .t 3 c b (tswapBody c) s

/-! What happens to the banks on their own. -/

/-- The last shadow write of the earliest pending TLOAD lands (R174). -/
def execTloadComplete (c : Nat) (s : State) : Host.Outcome State Fault Refusal :=
  s.clocked fun s => s.tloadComplete c

/-- The pending swap of core c takes effect (R175). -/
def execTswapEffect (c : Nat) (s : State) : Host.Outcome State Fault Refusal :=
  s.clocked fun s => s.swapEffect c

/-- DRESS.CONFIG.BEYLER takes a value: a change starts an image copy (R162, R177). -/
def State.setBeyler (s : State) (c v : Nat) : State :=
  if s.cf Reg.DRESS_BEYLER c = v then s
  else
    let s := (s.setC Reg.DRESS_BEYLER c v).setC Reg.TPL_LOADING c 1
    if v = 0 then s.setC Reg.TPL_BEYLER c 0 else s

/-- The image copy of core c ends: both banks hold the image that BEYLER selects (R172, R177). -/
def State.imageDone (s : State) (c : Nat) : State :=
  if s.cf Reg.TPL_LOADING c = 1 then
    let v := s.cf Reg.DRESS_BEYLER c
    let s := s.mapCore c fun k => { k with segs := [], beylerImage := decide (v = 1) }
    let s := (s.setC Reg.TPL_LOADING c 0).setC Reg.TPL_BEYLER c v
    if v = 0 then s.setC Reg.TPL_ACTIVE c 0 else s
  else s

def execImageCopyDone (c : Nat) (s : State) : Host.Outcome State Fault Refusal :=
  s.clocked fun s => s.imageDone c

end Sys2Proof.Machine
end

