-- ==== Sys2Proof/Machine/Fill.lean ====
section
/-!
DEFINITION. Fills of the feed buffers and the bundle buffer, run-ahead fills and demand fetches (R45, R57–R59, R191, R198, R199).
-/

namespace Sys2Proof.Machine

/-- A decoded fill of a feed buffer: buffer code, handle, offset register, destination byte and length. -/
structure FillArgs where
  buf : Nat
  size : Nat
  h : Nat
  so : Nat
  dst : Nat
  len : Nat
  ok : Bool
  deriving DecidableEq, Repr

/-- The feed-buffer fill an X-slot word names (R198). -/
def fillArgs (s : State) (c x : Nat) : Option FillArgs :=
  match fld x 4 0 with
  | 1 => some ⟨0, 8192, fld x 10 5, fld x 15 11, 16 * fld x 24 16, 16 * (fld x 33 25 + 1), true⟩
  | 2 => some ⟨wBuf (fld x 6 5) (fld x 7 7), 4096, fld x 13 8, fld x 18 14, 16 * fld x 26 19, 16 * (fld x 34 27 + 1),
      s.arrayGood c (fld x 6 5)⟩
  | _ => none

/-- The bed offset a fill reads from for source offset `off`, or none where R199 and R212 forbid it. -/
def FillArgs.source (p : FillArgs) (h : Handle) (off : Nat) : Option Nat :=
  if p.ok && decide (off % 16 = 0) && decide (p.dst + p.len ≤ p.size) && h.wide off p.len then some (h.base + off) else none

/-- Put fill data into a feed buffer, with fresh parity. -/
def Core.fillBytes (k : Core) (buf dst : Nat) (bs : List Byte) : Core :=
  let key := buf * 8192 + dst
  { k with
    fbuf := Sparse.putRun 0#8 k.fbuf key bs
    parityBad := k.parityBad.filter fun w => decide (8 * w + 8 ≤ key) || decide (key + bs.length ≤ 8 * w) }

/-- The waits of the chunks of a fill from bed offset `src` whose reads follow the issue cycle, with the bank of each (R199, R203, R205). -/
def chunkWaits (buf dst len src e : Nat) : List FillWait :=
  (List.range ((len + 511) / 512)).map fun j =>
    ⟨buf, dst + 512 * j, min (dst + len) (dst + 512 * j + 512), e + 8 + j, fld (src + 512 * j) 12 9⟩

/-- What run-ahead has read from bed offset `src` is what a scheduled read would return now, with nothing to correct: a fill that commits
changes no value (R59; DEDUCED, notes/assumptions/57.md). -/
def State.aheadFresh (s : State) (c src : Nat) (bs : List Byte) : Bool :=
  let a := windowBase c + src
  decide (s.eccOf a bs.length = 0) && decide (s.bytesAt a bs.length = bs)

/-- FILLA and FILLW: commit a shadow fill of the same place, or read the bed (R59, R199). -/
def fillBody (c : Nat) (s : State) (b : Bundle) : Except State State :=
  match fillArgs s c (bX b) with
  | none => .ok s
  | some p =>
    let s := s.waitReg c p.so
    let off := fld (s.sval c p.so) 23 0
    match p.source (s.handle c p.h) off with
    | none => .error (s.issueFault c 4 0x0108 5)
    | some src =>
      let k := s.core c
      match k.shadow.find? fun f => f.index = k.seq.index && f.bundle = b && f.depth = 0 && f.src = src && s.aheadFresh c src f.data with
      | some f =>
        .ok ((s.mapCore c fun k => { (k.fillBytes p.buf p.dst f.data) with shadow := k.shadow.erase f }).bumpC Reg.SEQ_COMMITS c 1)
      | none =>
        match s.wideReads c (p.len / 512 + 1) src p.len with
        | (s, none) => .error s
        | (s, some bs) =>
          .ok (s.mapCore c fun k =>
            let k := k.fillBytes p.buf p.dst bs
            { k with tm := { k.tm with fills := k.tm.fills ++ chunkWaits p.buf p.dst p.len src k.issued } })

def execFilla (c : Nat) (b : Bundle) (s : State) := runSlot .x 1 c b (fillBody c) s
def execFillw (c : Nat) (b : Bundle) (s : State) := runSlot .x 2 c b (fillBody c) s

/-- Bed offset of bundle p of the current course (R182). -/
def State.bundleAt (s : State) (c p : Nat) : Nat := 32 * s.cf Reg.SEQ_ENTRY c + 32 + 32 * p

/-- Bundles of a byte list into their slots, from index p on (R191). -/
def Core.loadBundles (k : Core) (p : Nat) (bs : List Byte) : Nat → Core
  | 0 => k
  | n + 1 =>
    let slot := p % 128
    let key := 9 * 8192 + 32 * slot
    Core.loadBundles
      { k with
        bbuf := Sparse.put emptySlot k.bbuf slot (p, BitVec.ofNat 256 (ofBytes (bs.take 32)))
        parityBad := k.parityBad.filter fun w => decide (8 * w + 8 ≤ key) || decide (key + 32 ≤ 8 * w) }
      (p + 1) (bs.drop 32) n

/-- FILLB (R191, R199). -/
def fillbBody (c : Nat) (s : State) (b : Bundle) : Except State State :=
  let p := fld (bX b) 18 5
  let n := fld (bX b) 25 19 + 1
  let src := s.bundleAt c p
  if 12287 < p + n - 1 ∨ bedSize < src + 32 * n then .error (s.issueFault c 4 0x0108 5)
  else match s.wideReads c (n / 16 + 1) src (32 * n) with
  | (s, none) => .error s
  | (s, some bs) =>
    .ok (s.mapCore c fun k =>
      let k := k.loadBundles p bs n
      { k with tm := { k.tm with fills := k.tm.fills ++ chunkWaits 9 (32 * p) (32 * n) src k.issued } })

def execFillb (c : Nat) (b : Bundle) (s : State) := runSlot .x 3 c b (fillbBody c) s

/-! Run-ahead (R57–R59). -/

/-- Feed buffer of a buffer code: 0 the activation buffer, 1 + a the weight buffer of array a. -/
def feedOf (buf : Nat) : Nat := (buf + 1) / 2

/-- Bytes that shadow fills hold in the shadow bank of a feed buffer, which is as large as the buffer: 8,192 bytes (R57). -/
def shadowUse (s : State) (c buf : Nat) : Nat :=
  ((s.core c).shadow.map fun f =>
    match fillArgs s c (bX f.bundle) with
    | some p => if feedOf p.buf = feedOf buf then p.len else 0
    | none => 0).foldl (· + ·) 0

/-- A place on run-ahead's path: bundle index, predicted branches passed, and the loop counters where they are known. -/
structure AheadPos where
  index : Nat
  depth : Nat
  lcs : Sparse (Option Nat)
  deriving DecidableEq, Repr

/-- Does bundle b write bed: ST, an export with a bed destination or output, VST, or a MOVE to a bed handle? -/
def bedWriter (s : State) (c : Nat) (b : Bundle) : Bool :=
  let m := bM b
  decide (fld (bS b) 5 0 = 0x15) || (decide (fld m 3 0 = 2) && (decide (fld m 32 31 = 1) || decide (fld m 23 22 = 1) || decide (fld m 36 35 ≠ 0))) ||
  decide (vOp (bV b) = 0x41) ||
  (!borrowsX b && decide (fld (bX b) 4 0 = 4) && decide ((s.handle c (fld (bX b) 16 11)).kind = 1))

/-- Bundles at which run-ahead stops, beside branches (R58): waits, bed writes, writes of a handle or window descriptor, COURSE_END. -/
def aheadStops (s : State) (c : Nat) (b : Bundle) : Bool :=
  let y := fld (bY b) 3 0
  bedWriter s c b || decide (fld (bS b) 5 0 ∈ [0x17, 0x2B]) || (!borrowsY b && decide (y ∈ [5, 6, 8, 9, 10]))

/-- Where run-ahead goes from a bundle: it stops at a forward or indirect branch, and at a counted loop whose counter a register sets on the way;
a backward branch is predicted taken (R58; notes/assumptions/57.md). -/
def aheadNext (b : Bundle) (x : AheadPos) : Option AheadPos :=
  let off := signedOf 16 (sImm16 b)
  let back (d : Nat) (l : Sparse (Option Nat)) : Option AheadPos :=
    if off < 0 ∧ 0 ≤ (x.index : Int) + off then some ⟨((x.index : Int) + off).toNat, d, l⟩ else none
  let on (l : Sparse (Option Nat)) : Option AheadPos := some ⟨x.index + 1, x.depth, l⟩
  let put (v : Option Nat) : Sparse (Option Nat) := Sparse.put (some 0) x.lcs (sLc b) v
  match fld (bS b) 5 0 with
  | 0x20 | 0x21 | 0x22 | 0x23 => back (x.depth + 1) x.lcs
  | 0x24 => back x.depth x.lcs
  | 0x25 => none
  | 0x26 => on (put none)
  | 0x27 => on (put (some (sImm16 b)))
  | 0x28 =>
    match Sparse.get (some 0) x.lcs (sLc b) with
    | none => none
    | some n => if 1 < n then back x.depth (put (some (n - 1))) else on (put (some 0))
  | _ => on x.lcs

/-- Run-ahead's path of at most `fuel` bundles from x, over bundles that the buffer holds, up to the first at which it stops. -/
def aheadPath (s : State) (c : Nat) : Nat → AheadPos → List (AheadPos × Bundle)
  | 0, _ => []
  | n + 1, x =>
    let e := Sparse.get emptySlot (s.core c).bbuf (x.index % 128)
    if e.1 ≠ x.index ∨ aheadStops s c e.2 then []
    else (x, e.2) :: match aheadNext e.2 x with
      | some y => aheadPath s c n y
      | none => []

/-- The next bundle of core c, with its loop counters. -/
def State.aheadStart (s : State) (c : Nat) : AheadPos :=
  ⟨(s.core c).seq.nextIndex, 0, (List.range 4).foldl (fun l i => Sparse.put (some 0) l i (some (s.lc c i).toNat)) []⟩

/-- A queued scheduled access of core c wants a bank that the read touches (R57). -/
def State.bankWanted (s : State) (c off n : Nat) : Bool :=
  s.net.accesses.any fun x => decide (x.owner.engine = some c) &&
    x.pieces.any fun q => !q.done && (match bedOf q.addr with
      | some (d, o) => decide (d = c) && ((List.range ((off + n - 1) / 512 - off / 512 + 1)).any fun j => decide ((off / 512 + j) % 16 = fld o 12 9))
      | none => false)

/-- Run-ahead performs the feed-buffer fill of bundle `b` at `index`, `depth` predicted branches past the issue point and at most 64 bundles on
its path, into the shadow bank, and changes nothing that software can read (R57–R59). A fill it may not perform is left to its scheduled
cycle. -/
def execRunaheadFill (c index : Nat) (b : Bundle) (depth : Nat) (s : State) : Host.Outcome State Fault Refusal :=
  .next <|
    if !(s.issuing c) || (s.core c).seq.endEntry.isSome || borrowsX b ||
        !((aheadPath s c 64 (s.aheadStart c)).any fun x => decide (x.1.index = index) && decide (x.1.depth = depth) && decide (x.2 = b)) then s
    else match fillArgs s c (bX b) with
    | none => s
    | some p =>
      let hw := s.handleWords c p.h
      match p.source (Handle.ofWords hw.1 hw.2) (fld (s.sregNext c p.so) 23 0) with
      | none => s
      | some src =>
        let a := windowBase c + src
        if 8192 < shadowUse s c p.buf + p.len ∨ s.eccOf a p.len ≠ 0 ∨ s.bankWanted c src p.len then s
        else s.mapCore c fun k => { k with shadow := k.shadow ++ [⟨index, b, depth, src, s.bytesAt a p.len⟩] }

/-- The sequencer reaches a bundle that its slot does not hold and no fill brings: it fetches the bundle and holds as Late fetch (R48, R191). -/
def execDemandFetch (c : Nat) (s : State) : Host.Outcome State Fault Refusal :=
  let q := (s.core c).seq
  let slot := Sparse.get emptySlot (s.core c).bbuf (q.nextIndex % 128)
  .next <|
    if s.issuing c && q.endEntry.isNone && decide (slot.1 ≠ q.nextIndex) then
      let s := (s.bumpC Reg.ISSUE_DEMAND c 1).holdCore c .fetch
      s.request (.fetch c q.nextIndex) (windowBase c + s.bundleAt c q.nextIndex) 32 none
    else s

end Sys2Proof.Machine
end

