-- ==== Sys2Proof/Machine/Course.lean ====
section
/-!
DEFINITION. Course starts: header read, initial fetch, admission and toothing (R43, R44, R191, R330, R331); the course tick and slipped ticks (R38, R42, R50–R57); the retirement of a draining COURSE_END (R46).
-/

namespace Sys2Proof.Machine

/-- A pending-until-tick value in force of copy i of a repeated field. -/
def State.inForceAt (s : State) (r : Row) (i : Nat) : Nat := Sparse.get r.reset s.force (r.key 0 i)

/-- Six bits reversed. -/
def reverse6 (g : Nat) : Nat :=
  b2n (bit g 0) * 32 + b2n (bit g 1) * 16 + b2n (bit g 2) * 8 + b2n (bit g 3) * 4 + b2n (bit g 4) * 2 + b2n (bit g 5)

/-- TOOTH of a core (R330). -/
def State.toothing (s : State) (c : Nat) : Nat :=
  let g := groupOf c
  match s.inForce Reg.POWER_TOOTH_PATTERN with
  | 1 => g
  | 2 => reverse6 g
  | 3 => 16 * (g % 4) + g / 4
  | 7 => s.inForceAt Reg.POWER_TOOTH_TABLE g
  | _ => 0

/-- The toothing offset of a course start (R331). -/
def State.startTooth (s : State) (c : Nat) : Nat := if s.inForce Reg.POWER_TOOTH_TICK = 1 then s.toothing c else 0

/-- Does a hint slot cover course n with at least level `l`? -/
def hintArms (n l : Nat) : Option HintSlot → Bool
  | some h => decide (h.first ≤ n) && decide (n ≤ h.last) && decide (l ≤ h.level)
  | none => false

/-- The toothing hold of a core that wakes from an AWAIT (R331). -/
def State.wakeTooth (s : State) (c : Nat) : Nat :=
  let n := s.df Reg.CTRL_COURSE_NUMBER
  let l := s.inForce Reg.POWER_TOOTH_ARM_LEVEL
  match s.inForce Reg.POWER_TOOTH_ARCH with
  | 1 => s.toothing c
  | 2 => if hintArms n l (s.core c).hint0 || hintArms n l (s.core c).hint1 then s.toothing c else 0
  | _ => 0

/-! Starting a course. -/

/-- A read of an initial fetch: corrections are counted and hold nothing; an uncorrectable word delivers nothing (R43, R191, R219). -/
def State.fetchRead (s : State) (c off n : Nat) : State × Option (List Byte) :=
  let a := windowBase c + off
  match s.ueWords a n with
  | w :: r => (s.bedUes c (w :: r), none)
  | [] =>
    let s := if s.eccOf a n = 1 then (s.bumpC Reg.BED_CORR_WIDE c 1).bumpD Reg.YARD_BED_CORR 1 else s
    (s, some (s.bytesAt a n))

/-- The length L in the course header of core c, read at the tick (R43). -/
def State.readHeaderOf (s : State) (c : Nat) : State × Option Nat :=
  match s.fetchRead c (32 * s.cf Reg.SEQ_ENTRY c) 32 with
  | (s, some bs) => (s, some (fld (ofBytes bs) 23 0))
  | (s, none) => (s, none)

/-- Does a course of length `len` pass the admission check (R44)? The bound is compared as an integer: one of −1 admits no course but an idle one
(DESIGN CHOICE, notes/assumptions/56.md). -/
def State.admits (s : State) (c zt len : Nat) : Bool :=
  len = 0 || decide ((zt + 16 + s.startTooth c + len - 1 : Int) ≤ (s.deadline : Int) - s.inForce Reg.CTRL_SLACK_RESERVE)

/-- Bundles of the initial fetch (R191). -/
def State.initialCount (s : State) (c len : Nat) : Nat :=
  min (min 128 len) ((bedSize - s.bundleAt c 0) / 32)

/-- A participant whose course has passed the checks of its start: its length and the bundles fetched. -/
structure Admitted where
  core : Nat
  len : Nat
  bundles : List Byte
  deriving DecidableEq, Repr

/-- Core c reads its header, checks its course and fetches its first bundles, 16 to a read, each corrected read counted; a failure stops it and is
recorded (R43, R44, R191, R368). -/
def State.admitted (s : State) (zt c : Nat) : State × Option Admitted :=
  match s.readHeaderOf c with
  | (s, none) => (s, none)
  | (s, some len) =>
    if !s.admits c zt len then (s.failStop c 0x0101 c [len] 2 2, none)
    else if len = 0 then (s, some ⟨c, 0, []⟩)
    else match readBy (fun s o n => s.fetchRead c o n) 512 9 s (s.bundleAt c 0) (32 * s.initialCount c len) with
    | (s, none) => (s, none)
    | (s, some bs) => (s, some ⟨c, len, bs⟩)

/-- The participants that may start, after the checks of all. -/
def State.admitAll (s : State) (zt : Nat) : List Nat → State × List Admitted
  | [] => (s, [])
  | c :: r =>
    let (s, x) := s.admitted zt c
    let (s, l) := s.admitAll zt r
    (s, x.toList ++ l)

/-- Start an admitted course: the activation of bank 0 of every weight buffer, and course cycle 0 (R43, R98); an idle course has finished at tick
cycle 16 (R43). -/
def State.startCourse (s : State) (zt : Nat) (x : Admitted) : State :=
  if x.len = 0 then s.courseDone x.core 0 (zt + 16)
  else
    let s := s.mapCore x.core fun k =>
      let k := k.loadBundles 0 x.bundles (x.bundles.length / 32)
      { k with
        seq := { Sequencer.init with
          len := x.len, tick := s.tickCount, start := zt + 16 + s.startTooth x.core, inCourse := true, index := 16384, view := k.seq.view }
        tm := Timing.init
        curBank := []
        shadow := [] }
    (s.setC Reg.SEQ_RUN x.core 1).setC Reg.SEQ_DONE x.core 0

/-- The first course of a task or a later one begins on every participant: state 2 and the course number (R42). None begins when a participant
fails its checks, since the stop arrives before cycle 0 (R43, R44, R191, R368). -/
def State.beginCourse (s : State) (zt : Nat) : State :=
  let (s, l) := s.admitAll zt s.task.parts
  if s.taskState = 7 then s
  else
    let s := if s.taskState = 1 then s.setOp 0 2 0 else s
    let s := if s.task.first then s else s.bumpD Reg.CTRL_COURSE_NUMBER 1
    let s := { (s.setD Reg.CTRL_SLIPPING 0) with task := { s.task with first := false, waiting := false } }
    l.foldl (fun s x => s.startCourse zt x) s

/-! The course tick. -/

/-- Settings accepted without a task take effect together at the tick (R38, R331). -/
def State.applyPending (s : State) : State :=
  let old := s.lin
  let s := [Reg.CTRL_PERIOD, Reg.CTRL_SLIP_ENABLE, Reg.CTRL_SLACK_RESERVE, Reg.CTRL_SLIP_LEAD, Reg.POWER_TOOTH_PATTERN,
    Reg.POWER_TOOTH_TICK, Reg.POWER_TOOTH_ARCH, Reg.POWER_TOOTH_ARM_LEVEL].foldl (fun s r => s.setForce r (s.df r)) s
  let s := (List.range 64).foldl (fun s i =>
    { s with force := Sparse.put 0 s.force (Reg.POWER_TOOTH_TABLE.key 0 i) (s.rd Reg.POWER_TOOTH_TABLE 0 i) }) s
  s.shiftStamps old

/-- A participant at a tick: run-ahead's shadows are discarded and DONE clears (R59, R64). -/
def State.tickCore (s : State) (c : Nat) : State :=
  (s.mapCore c fun k => { k with shadow := [] }).setC Reg.SEQ_DONE c 0

/-- A context operation begins: one image per participant (R354, R359). -/
def State.beginContext (s : State) (save acc bed off : Bool) (base stride : Nat) : State :=
  let s := (s.newOp 5).setOp 5 1 0
  let s := s.setOp 5 2 0
  let s := s.setD Reg.CMD_CTX_OP (s.rd Reg.CMD_OPS_ID 0 5)
  let s := s.wr Reg.CMD_PROGRESS 0 5 0
  let cores := s.task.parts.map fun c => (⟨c, [], 0, false, false, false⟩ : CtxCore)
  { s with ops := { s.ops with context := some ⟨save, acc, bed, off, base, stride, cores⟩ } }

/-- A CANCEL whose tick has come: participants within a course stop, idle ones stay idle, and the task is cancelled (R357). -/
def State.cancelTask (s : State) : State :=
  let s := (s.stopCores s.unretired).setD Reg.CMD_CAUSE 1
  let s := s.setOp 0 6 1
  { s with task := { s.task with suspend := none, cancel := none } }

/-- May the task be suspended at this tick (R254, R354)? -/
def State.suspendReady (s : State) (q : Suspend) : Bool :=
  decide (q.atTick ≤ s.tickCount) && decide (q.accepted + 64 ≤ s.lin) && s.unretired.isEmpty && s.ops.resume.isNone &&
  (!q.save || s.task.parts.all fun c => (s.core c).moves.isEmpty) &&
  ((List.range 8).all fun a => s.rd Reg.ARCH_OPEN 0 a = 0)

/-- The suspend takes effect: state 4, and the save begins if one was asked for and the task had started (R354, R358). -/
def State.suspendTask (s : State) (q : Suspend) : State :=
  let s := (s.setOp 0 4 0).setD Reg.CMD_SUSPEND_TICK s.tickCount
  let s := { s with task := { s.task with suspend := none, waiting := false } }
  if q.save && !s.task.first then s.beginContext true q.acc q.bed q.off q.base q.stride else s

/-- A slipped tick: no course starts (R52, R53). -/
def State.slipTick (s : State) : State :=
  let t := s.tickCount
  let s := (((s.bumpD Reg.CTRL_SLIP_COUNT 1).setD Reg.CTRL_SLIPPING 1).setD Reg.CTRL_LAST_SLIP_TICK t).setD
    Reg.CTRL_LAST_SLIP_REMOTE (b2n (s.slip.due.contains (t, true)))
  { s with slip := { s.slip with due := s.slip.due.filter fun x => decide (x.1 ≠ t) } }

/-- The start condition of a START or RESUME is met at this tick (R26). -/
def State.startMet (s : State) : Bool :=
  s.task.arch.isNone && s.ops.context.isNone && s.ops.resume.isNone && decide (s.task.accepted + 64 ≤ s.lin)

/-- What the task does at a tick that is not slipped, once neither a cancel nor a suspend took it (R26, R43). -/
def State.tickTask (s : State) : State :=
  if s.task.waiting && !s.startMet then s
  else if 1 ≤ s.taskState ∧ s.taskState ≤ 3 then s.beginCourse 0
  else s

/-- The course tick: an overrun that no command has found is found first (R38, R40, R42–R44, R51–R57, R354, R357). -/
def State.courseTick (s : State) : State :=
  let s := s.overrun
  let s := s.landAll.setD Reg.CTRL_TIMESTAMP ((s.tickCount + 1) % 2 ^ 40 * 2 ^ 24)
  let s := s.applyPending
  if !s.taskRuns then { s with slip := { s.slip with due := [], overAt := none } } else
  let s := s.task.parts.foldl State.tickCore s
  if (match s.task.cancel with | some a => decide (a + 64 ≤ s.lin) | none => false) then s.cancelTask
  else if s.slips s.tickCount then s.slipTick
  else match s.task.suspend with
    | some q => if s.suspendReady q then { s.suspendTask q with slip := ⟨s.slip.seen, [], none⟩ } else s.tickTask
    | none => s.tickTask

/-- A draining COURSE_END retires once the last condition has closed; the held cycles count as Drain (R46, R48). -/
def execCourseEndRetire (c : Nat) (s : State) : Host.Outcome State Fault Refusal :=
  let q := (s.core c).seq
  .next <|
    match q.endEntry with
    | some e =>
      if s.clocksRun && s.heldFor c .drain && s.drained c then
        if s.stopReaches c (s.coreLin c + (q.drainAt - q.cycle)) then s.haltCore c
        else (s.countHold c (q.drainAt - q.cycle) .drain).retire c e
      else s
    | none => s

/-- A condition of R46 that an event closes at core c has closed now: COURSE_END waits at least so long. -/
def State.drainNow (s : State) (c : Nat) : State := s.drainTo c (s.cyc c + (s.lin - s.coreLin c))

end Sys2Proof.Machine
end

