-- ==== Sys2Proof/Machine/Power.lean ====
section
/-!
DEFINITION. The power controller: the loop, the limiter windows, the envelope, calibration, droop, heat and coolant stops, alerts, and repointing (R314–R338).
-/

namespace Sys2Proof.Machine

/-! Register words of the controller. -/

def State.level (s : State) (g : Nat) : Nat := s.rd Reg.POWER_LEVEL 0 g

/-- The bits of a register word's events carry the word's address (R420). -/
def State.refuseWord (s : State) (code addr : Nat) : State := s.note code noUnit [addr]

/-- Count a refused write in the header of a page (R416, R420). -/
def State.countRefused (s : State) (core : Bool) (u page : Nat) : State := s.bump (Reg.refused core page) u 0 1

/-! The envelope (R320, R321). -/

/-- A write of ENVELOPE_TARGET: held for the next loop run, or refused whole. -/
def State.envelopeWrite (s : State) (path : Path) (v : Nat) : State :=
  let ramp := fld v 23 12
  if path = .other ∨ ramp = 0 ∨ 800 < ramp then
    (s.countRefused false 0 9).refuseWord 0x0A01 (Reg.POWER_SETPOINT.addr 0 0)
  else
    let s := (((s.setD Reg.POWER_SETPOINT (fld v 11 0)).setD Reg.POWER_RAMP_UP ramp).setD Reg.POWER_TRACK (fld v 24 24)).setD
      Reg.POWER_SEQ (fld v 47 32)
    let s := if fld v 31 25 ≠ 0 ∨ fld v 63 48 ≠ 0 then s.countRefused false 0 9 else s
    { s with power := { s.power with held := true } }

/-- A held write takes effect at a loop run. -/
def State.applyEnvelope (s : State) : State :=
  if !s.power.held then s
  else
    let sp := s.df Reg.POWER_SETPOINT
    let ramp := s.df Reg.POWER_RAMP_UP
    let old := s.power.setpoint
    let s := s.setD Reg.POWER_APPLIED_SEQ (s.df Reg.POWER_SEQ)
    let s := s.setD Reg.POWER_CLAMPED (b2n (decide (sp < 96) || decide (800 < sp)))
    let s := s.note 0x0A00 noUnit [old, sp, s.power.ramp, ramp]
    let low := decide (max 96 (min 800 sp) < max 96 (min 800 old))
    { s with power := { s.power with
      held := false, setpoint := sp, ramp := ramp, track := decide (s.df Reg.POWER_TRACK = 1)
      lowered := if low then some 0 else s.power.lowered } }

/-! Coolant stop and thermal trip (R332, R333, R358). -/

/-- The compute clocks stop: source 0 coolant, 1 thermal trip. A task in state 1 or 2 fails; one in state 3 or 4 keeps its state. -/
def State.stopClocks (s : State) (source : Nat) (data : List Nat) : State :=
  if s.df Reg.POWER_STOPPED = 1 then s
  else
    let hits := decide (s.taskState = 1) || decide (s.taskState = 2)
    let s := s.noteSev (if source = 0 then 0x0A0B else 0x0A0A) noUnit data 2 hits
    let s := (s.setD Reg.POWER_STOPPED 1).setD Reg.POWER_STOP_SOURCE source
    let s := s.bump Reg.POWER_EVENTS 0 6 1
    let s : State := { s with power := { s.power with stretching := false } }
    let s := s.setAlert (if source = 0 then Reg.POWER_ALERT_COOLANT_STOP else Reg.POWER_ALERT_THERMAL_TRIP)
    if hits then s.failTask 6 else s

/-- COOLANT_OK goes low (R333). The freeze watch samples the pin through a freeze (R406). -/
def execCoolantOkFall (s : State) : Host.Outcome State Fault Refusal :=
  .next (if s.df Reg.POWER_COOLANT_OK = 1 then
    State.setD { s with power := { s.power with lowPulse := true } } Reg.POWER_COOLANT_OK 0 else s)

/-- COOLANT_OK has been low for 1 µs: a coolant stop, latched during a freeze (R333, R406). -/
def execCoolantStop (s : State) : Host.Outcome State Fault Refusal :=
  .next (if s.df Reg.POWER_COOLANT_OK = 1 then s
    else
      let s : State := { s with power := { s.power with lowPulse := false } }
      if s.frozen then { s with dbg := { s.dbg with latched := true } } else s.stopClocks 0 [])

/-- COOLANT_OK rises: a short pulse counts as a glitch; after a stop the return is recorded and the clocks stay stopped, unless a
compute-part reset has run meanwhile (R333, R334). -/
def execCoolantRestored (s : State) : Host.Outcome State Fault Refusal :=
  .next (if s.df Reg.POWER_COOLANT_OK = 1 then s
    else
      let short := s.power.lowPulse
      let s := State.setD { s with power := { s.power with lowPulse := false } } Reg.POWER_COOLANT_OK 1
      if short then s.bumpD Reg.POWER_GLITCHES 1
      else if s.df Reg.POWER_STOPPED = 1 ∧ s.df Reg.POWER_STOP_SOURCE = 0 then
        let s := s.note 0x0A0C noUnit []
        if s.power.release then State.setD { s with power := { s.power with release := false } } Reg.POWER_STOPPED 0 else s
      else s)

/-! The loop (R317, R318, R323, R329, R332, R335, R336). -/

/-- What a loop run has computed for the die. -/
structure DieTerm where
  t : Nat
  p : Nat
  a : Nat
  reason : Nat
  q : Nat
  all : Bool
  past : Bool
  deriving DecidableEq, Repr

/-- The die level, ALL, t_now and the reason by the program of R318; reasons are coded as in R335. -/
def State.dieTerm (s : State) (x : LoopSample) : DieTerm :=
  let ramp := s.power.ramp
  let sp := max 96000 (min 800000 (s.power.setpoint * 1000))
  let t0 := s.df Reg.POWER_TARGET_NOW
  let t := if sp < t0 then sp
    else
      let u := min sp (t0 + ramp)
      if s.power.track then min u (s.power.prev + ramp) else u
  let est := x.groups.foldl (· + ·) 0 + x.rest
  let p0 := est * s.df Reg.POWER_CAL / 4096
  let fault := decide (s.df Reg.POWER_CAL_FAULT = 1)
  let lost := decide (s.df Reg.POWER_TEL_LOST = 1)
  let p := if fault then s.df Reg.POWER_MEAS_MW * 115 / 100 else if lost then p0 * 115 / 100 else p0
  let pCore := p * x.core / est
  let i := pCore * 2 / vidSetting (s.df Reg.POWER_VID_REQ)
  let ilim := s.df Reg.POWER_CURRENT_LIMIT
  let cut := decide (ilim < i) && decide (p * ilim / i < t)
  let a := if cut then p * ilim / i else t
  let reason := if fault || lost then 4 else if cut then 3 else 0
  let q := s.df Reg.POWER_Q_DIE
  let all := decide (s.df Reg.POWER_ALL = 1)
  if a < p then ⟨t, p, a, reason, max 1 (q * a / p), all || (decide (q = 1) && s.power.overPrev), true⟩
  else if all then ⟨t, p, a, reason, q, !decide (p < a * 90 / 100), false⟩
  else ⟨t, p, a, reason, if p < a * 95 / 100 then min 64 (q + 2) else q, false, false⟩

/-- Hottest sensor of group g. -/
def tmaxOf (x : LoopSample) (g : Nat) : Nat := max (x.temps.getD (2 * g) 0) (x.temps.getD (2 * g + 1) 0)

/-- Cores of group g (R316). -/
def coresOf (g : Nat) : List Nat :=
  (List.range 16).map fun i => (4 * (g / 8) + i / 4) * 32 + 4 * (g % 8) + i % 4

/-- h[g]: the largest LEVEL among the group's hint slots that cover the current course or the next one (R329). -/
def State.hintOf (s : State) (g : Nat) : Nat :=
  let n := s.df Reg.CTRL_COURSE_NUMBER
  let lv (h : Option HintSlot) : Nat := match h with
    | some h => if h.first ≤ n + 1 ∧ n ≤ h.last then h.level else 0
    | none => 0
  if s.taskRuns then ((coresOf g).map fun c => max (lv (s.core c).hint0) (lv (s.core c).hint1)).foldl max 0 else 0

/-- Calibrated estimate of group g. -/
def State.groupEst (s : State) (x : LoopSample) (g : Nat) : Nat := x.groups.getD g 0 * s.df Reg.POWER_CAL / 4096

/-- q_pre[g] for a group that no hint covers, given the excess of the predicted power and the estimates of all such groups (R329). -/
def preLimit (q excess e : Nat) : Nat := if excess < e then max 1 (q * (e - excess) / e) else 1

/-- q_pre of every group. -/
def State.prelimits (s : State) (x : LoopSample) (d : DieTerm) (h : List Nat) : List Nat :=
  let hinted := (List.range 64).filter fun g => 0 < h.getD g 0
  let rest := (List.range 64).filter fun g => h.getD g 0 = 0
  if s.df Reg.POWER_PRELIMIT = 0 ∨ hinted.isEmpty then List.replicate 64 64
  else
    let more := (hinted.map fun g => h.getD g 0 * (s.df Reg.POWER_FULL_W * 125) / 64 - s.groupEst x g).foldl (· + ·) 0
    let pred := d.p + more
    if pred ≤ d.a then List.replicate 64 64
    else
      let e := (rest.map (s.groupEst x)).foldl (· + ·) 0
      (List.range 64).map fun g => if h.getD g 0 = 0 then preLimit (s.level g) (pred - d.a) e else 64

/-- The terms of group g, its level, ALL flag and reason. -/
def State.groupTerm (s : State) (x : LoopSample) (d : DieTerm) (pre h : List Nat) (g : Nat) : State :=
  let th := s.df Reg.POWER_THROTTLE_C
  let tm := tmaxOf x g
  let q := s.level g
  let qt0 := s.rd Reg.POWER_Q_THERM 0 g
  let qt := if th ≤ tm then max 1 (qt0 - 8) else if tm + 2 ≤ th then min 64 (qt0 + 1) else qt0
  let qd := if 850 < Sparse.get 0 s.power.stretched g * 20 then max 1 (q - 4) else min 64 (s.rd Reg.POWER_Q_DROOP 0 g + 1)
  let qp := pre.getD g 64
  let l := min (min d.q qt) (min qp qd)
  let all := d.all || (decide (qt = 1) && decide (th + 5 ≤ tm))
  let reason := if l = 64 ∧ all = false then 0
    else if qt = l then 2 else if d.q = l then d.reason + 1 else if qd = l then 3 else 6
  let s := ((s.wr Reg.POWER_Q_THERM 0 g qt).wr Reg.POWER_Q_DROOP 0 g qd).wr Reg.POWER_Q_PRE 0 g qp
  let s := ((s.wr Reg.POWER_LEVEL 0 g l).wr Reg.POWER_GROUP_ALL 0 g (b2n all)).wr Reg.POWER_TMAX 0 g tm
  (s.wr Reg.POWER_HINT_LEVEL 0 g (h.getD g 0)).wr Reg.POWER_REASON 0 g reason

/-- Reasons held by a group in this run, but droop and coolant, which are counted on their own (R335). -/
def State.countReasons (s : State) : State :=
  let held := [0, 1, 3, 4, 5].filter fun r => (List.range 64).any fun g => decide (s.rd Reg.POWER_REASON 0 g = r + 1)
  let s := held.foldl (fun s r =>
    let s := s.bump Reg.POWER_DURATION 0 r 850
    if s.power.reasons.contains r then s else s.bump Reg.POWER_EVENTS 0 r 1) s
  let s := if s.df Reg.POWER_STOPPED = 1 then s.bump Reg.POWER_DURATION 0 6 850 else s
  { s with power := { s.power with reasons := held } }

/-- The bound of R323: 1 ms after a lowering write, and for 20 runs in steady state. -/
def State.checkBound (s : State) (d : DieTerm) : State :=
  let past := decide (d.t + 16000 < d.p)
  let missed (s : State) (m : Bool) : State :=
    if m && decide (s.df Reg.POWER_MISS = 0) then ((s.setD Reg.POWER_MISS 1).note 0x0A02 noUnit []).setAlert Reg.POWER_ALERT_ENVELOPE_MISS
    else if past then s else s.setD Reg.POWER_MISS 0
  match s.power.lowered with
  | some n =>
    if n + 1 < 1000 then missed { s with power := { s.power with lowered := some (n + 1), missRuns := 0 } } false
    else missed { s with power := { s.power with lowered := none, missRuns := b2n past } } past
  | none =>
    let m := if past then s.power.missRuns + 1 else 0
    missed { s with power := { s.power with missRuns := m } } (decide (20 ≤ m))

/-- A group is throttled while its thermal term lies below 64 (R332). -/
def State.anyThrottled (s : State) : Bool := (List.range 64).any fun g => decide (s.rd Reg.POWER_Q_THERM 0 g < 64)

/-- The start of throttling, and its end after 1 ms (R332). -/
def State.throttleRecords (s : State) : State :=
  if s.anyThrottled then
    let s := if s.power.throttled then s else s.note 0x0A09 noUnit []
    { s with power := { s.power with throttled := true, coolRuns := 0 } }
  else if !s.power.throttled then s
  else if s.power.coolRuns + 1 < 1000 then { s with power := { s.power with coolRuns := s.power.coolRuns + 1 } }
  else State.note { s with power := { s.power with throttled := false, coolRuns := 0 } } 0x0A09 noUnit []

/-- The thermal trip: a sensor at 120 °C or more in two consecutive runs (R332). -/
def State.thermalTrip (s : State) (x : LoopSample) : State :=
  let hot := (List.range 128).filter fun n => decide (120 ≤ x.temps.getD n 0)
  let two := hot.find? fun n => s.power.hot.contains n
  let s : State := { s with power := { s.power with hot := hot } }
  match two with
  | some n => s.stopClocks 1 [n, x.temps.getD n 0]
  | none => s

/-- Cause bits whose condition holds set again (R336). -/
def State.raiseAlerts (s : State) : State :=
  let stopped := decide (s.df Reg.POWER_STOPPED = 1)
  let trip := decide (s.df Reg.POWER_STOP_SOURCE = 1)
  let conds : List (Row × Bool) :=
    [(Reg.POWER_ALERT_CAL_FAULT, decide (s.df Reg.POWER_CAL_FAULT = 1)), (Reg.POWER_ALERT_TEL_LOST, decide (s.df Reg.POWER_TEL_LOST = 1)),
     (Reg.POWER_ALERT_THERMAL, s.anyThrottled), (Reg.POWER_ALERT_THERMAL_TRIP, stopped && trip),
     (Reg.POWER_ALERT_COOLANT_STOP, stopped && !trip), (Reg.POWER_ALERT_ENVELOPE_MISS, decide (s.df Reg.POWER_MISS = 1)),
     (Reg.POWER_ALERT_AGEING_LIMIT, s.power.ageLimit)]
  conds.foldl (fun s c => if c.2 then s.setAlert c.1 else s) s

/-- The hottest sensor and its number, the lowest on a tie. -/
def hottest (l : List Nat) : Nat × Nat :=
  (List.range 128).foldl (fun m n => if m.1 < l.getD n 0 then (l.getD n 0, n) else m) (0, 0)

/-- One run of the loop. -/
def State.powerLoop (s : State) (x : LoopSample) : State :=
  let s := s.applyEnvelope
  let d := s.dieTerm x
  let est := x.groups.foldl (· + ·) 0 + x.rest
  let cal := est * s.df Reg.POWER_CAL / 4096
  let h := (List.range 64).map s.hintOf
  let pre := s.prelimits x d h
  let s := ((s.setD Reg.POWER_TARGET_NOW d.t).setD Reg.POWER_Q_DIE d.q).setD Reg.POWER_ALL (b2n d.all)
  let s := s.setD Reg.POWER_EST_MW (min cal (2 ^ 20 - 1))
  let s := (s.setD Reg.POWER_TJ_MAX (min (hottest x.temps).1 255)).setD Reg.POWER_TJ_SENSOR (hottest x.temps).2
  let s := (List.range 64).foldl (fun s g => s.groupTerm x d pre h g) s
  let s : State := { s with power := { s.power with
    prev := d.p, overPrev := d.past, ests := (cal :: s.power.ests).take 50, groups := x.groups, stretched := [] } }
  ((s.countReasons.checkBound d).throttleRecords.thermalTrip x).raiseAlerts

/-- A run of the controller; the plinth that holds it is up once bring-up has begun (R317, R428). -/
def execPowerLoop (x : LoopSample) (s : State) : Host.Outcome State Fault Refusal :=
  s.live fun s => if s.df Reg.BOOT_PHASE = 0 then s else s.powerLoop x

/-! Limiter windows (R319). -/

/-- Levels of a group that a window takes up: level + 128 · ALL. -/
def State.windowLevel (s : State) (g : Nat) : Nat := Sparse.get 64 s.power.window g

/-- Cycles of a full window that a core of group g may be held for. -/
def State.withheld (s : State) (g : Nat) : Nat := 64 - min 64 (s.windowLevel g % 128)

/-- Is cycle u of a window permitted at level q? -/
def permitted (q u : Nat) : Bool := decide ((u + 1) * q / 64 - u * q / 64 = 1)

/-- Cycles withheld from window cycle u on before `rem` permitted ones have passed, in at most n cycles of the window. -/
def stallsFor (q : Nat) : Nat → Nat → Nat → Nat
  | 0, _, _ => 0
  | n + 1, u, rem =>
    if rem = 0 ∨ 64 ≤ u then 0
    else if permitted q u then stallsFor q n (u + 1) (rem - 1) else 1 + stallsFor q n (u + 1) rem

/-- Does the ALL flag of core c's group withhold cycles of this window whatever the core does? -/
def State.allHeld (s : State) (c : Nat) : Bool := decide (128 ≤ s.windowLevel (groupOf c))

/-- Hold the cores of a window: with ALL set, a core holds in every cycle not permitted; otherwise in those of them in which an array would
receive a digit, as many as `holds` names. Such a cycle also freezes the engines of a core that drains (R47); a core that a condition holds
takes the cycles left at its end. -/
def State.windowHold (s : State) (holds : List (Nat × Nat)) (c : Nat) : State :=
  let q := (s.core c).seq
  let g := groupOf c
  let named := min (s.withheld g) ((holds.find? fun x => decide (x.1 = c)).map (·.2) |>.getD 0)
  if !q.inCourse ∨ !s.coreAlive c then s
  else if s.run c = 1 then s.countHold c (if s.allHeld c then s.withheld g else named) .power
  else if s.heldFor c .drain then
    let left := q.drainAt - (q.cycle + (s.lin - s.coreLin c))
    s.mapSeq c fun q => { q with
      drainAt := q.drainAt + if s.allHeld c then stallsFor (s.windowLevel g % 128) 64 (s.tickCycle % 64) left else named }
  else s

/-- A condition hold of core c has ended within a window with ALL set: the core holds in the cycles of it that are still withheld (R49, R319). -/
def State.windowRest (s : State) (c : Nat) : State :=
  let u := s.tickCycle % 64
  let q := s.windowLevel (groupOf c) % 128
  if s.run c = 1 ∧ s.allHeld c then
    s.countHold c (((List.range (64 - u)).filter fun i => !permitted q (u + i)).length) .power
  else s

/-- A window starts: the levels of the last loop run take effect and its power holds are taken. -/
def execPowerWindow (holds : List (Nat × Nat)) (s : State) : Host.Outcome State Fault Refusal :=
  s.clocked fun s =>
    let w := (List.range 64).foldl (fun m g => Sparse.put 64 m g (s.level g + 128 * s.rd Reg.POWER_GROUP_ALL 0 g)) []
    let s : State := { s with power := { s.power with window := w } }
    (List.range 1024).foldl (fun s c => s.windowHold holds c) s

/-! Calibration (R324–R326). -/

/-- MEAS of a message: the current in mA times the rail's requested setting in 0.5 mV units, in mW (R324, R445). -/
def State.measOf (s : State) (rail current : Nat) : Nat :=
  current * (if rail = 0 then vidSetting (s.df Reg.POWER_VID_REQ) else s.side.sram) / 2000

/-- Mean of the calibrated estimates of the last 50 runs. -/
def State.meanEst (s : State) : Nat := s.power.ests.foldl (· + ·) 0 / s.power.ests.length

/-- The gain after a message (R324). -/
def gainStep (cal est meas : Nat) : Nat :=
  if est = 0 then 3072 + (Config.gainAtZero cal meas).val
  else max 3072 (min 5120 (cal * (7 * est + meas) / (8 * est)))

def absDiff (a b : Nat) : Nat := (a - b) + (b - a)

/-- A telemetry message of a rail. -/
def State.telemetry (s : State) (rail current : Nat) : State :=
  let est := s.meanEst
  let meas := s.measOf rail current
  let wasLost := decide (s.df Reg.POWER_TEL_LOST = 1)
  let wasFault := decide (s.df Reg.POWER_CAL_FAULT = 1)
  let s := (s.bumpD Reg.POWER_TELEMETRY 1).setD Reg.POWER_MEAS_MW (min meas (2 ^ 20 - 1))
  let s := if wasLost then (s.setD Reg.POWER_TEL_LOST 0).note 0x0A06 noUnit [] else s
  let off := decide (meas < 4 * absDiff est meas)
  let n := if off then min 10 (s.df Reg.POWER_DISAGREE + 1) else 0
  let s := s.setD Reg.POWER_DISAGREE n
  if wasFault then
    let k := if 10 * absDiff est meas ≤ meas then s.df Reg.POWER_AGREE + 1 else 0
    if 200 ≤ k then (((s.setD Reg.POWER_CAL_FAULT 0).setD Reg.POWER_AGREE 0).setD Reg.POWER_DISAGREE 0).note 0x0A04 noUnit []
    else s.setD Reg.POWER_AGREE k
  else if 10 ≤ n then
    let s := (s.setD Reg.POWER_CAL_FAULT 1).setD Reg.POWER_AGREE 0
    (s.note 0x0A03 noUnit [est, meas, s.df Reg.POWER_CAL]).setAlert Reg.POWER_ALERT_CAL_FAULT
  else if wasLost then s
  else s.setD Reg.POWER_CAL (gainStep (s.df Reg.POWER_CAL) est meas)

/-- No telemetry for 200 µs (R326). -/
def execTelemetryLost (s : State) : Host.Outcome State Fault Refusal :=
  s.live fun s =>
    if s.df Reg.POWER_TEL_LOST = 1 then s
    else ((s.setD Reg.POWER_TEL_LOST 1).note 0x0A05 noUnit []).setAlert Reg.POWER_ALERT_TEL_LOST

/-! Droop (R327, R334). -/

/-- Group of droop detector d (R316). -/
def droopGroup (d : Nat) : Nat := 8 * (2 * (d / 16) / 4) + 2 * (d % 16) / 4

/-- A detector trips: a stretch begins unless one runs or the clocks are stopped. -/
def execDroopTrip (d : Nat) (s : State) : Host.Outcome State Fault Refusal :=
  s.live fun s =>
    if 256 ≤ d ∨ s.power.tripped.contains d then s
    else
      let s : State := { s with power := { s.power with tripped := s.power.tripped ++ [d] } }
      if s.power.stretching ∨ s.df Reg.POWER_STOPPED = 1 then s
      else State.bump { s with power := { s.power with stretching := true } } Reg.POWER_EVENTS 0 2 1

/-- A detector clears after `n` cycles counted toward its group; with the last one the stretch ends after `total` stretched cycles, the
4 behind the clear among them. -/
def execDroopClear (d n total : Nat) (s : State) : Host.Outcome State Fault Refusal :=
  s.live fun s =>
    if !s.power.tripped.contains d then s
    else
      let g := droopGroup d
      let s : State := { s with power := { s.power with
        tripped := s.power.tripped.erase d
        stretched := Sparse.put 0 s.power.stretched g (Sparse.get 0 s.power.stretched g + n) } }
      if s.power.tripped.isEmpty ∧ s.power.stretching then
        State.bump { s with power := { s.power with stretching := false } } Reg.POWER_DURATION 0 2 total
      else s

/-- Stretching has lasted more than 8,500 cycles. -/
def execDroopLong (s : State) : Host.Outcome State Fault Refusal :=
  s.live fun s => if s.power.stretching then s.note 0x0A07 noUnit [] else s

/-! Summaries, alerts and repointing (R335–R337). -/

/-- One THROTTLE_SUMMARY record per reason that counted in the second, with that second's events and duration. -/
def execThrottleSummary (s : State) : Host.Outcome State Fault Refusal :=
  s.live fun s =>
    let now := (List.range 7).map fun r => (s.rd Reg.POWER_EVENTS 0 r, s.rd Reg.POWER_DURATION 0 r)
    let last (r : Nat) : Nat × Nat := s.power.summary.getD r (0, 0)
    let t := (List.range 7).foldl (fun t r =>
      let e := (now.getD r (0, 0)).1 - (last r).1
      let d := (now.getD r (0, 0)).2 - (last r).2
      if e = 0 ∧ d = 0 then t else t.note 0x0A0D noUnit [r, e, d]) s
    { t with power := { t.power with summary := now } }

/-- VID_REQ changes: the register and a RAIL_REQ (R337, R444). -/
def State.setVid (s : State) (v : Nat) : State :=
  if s.df Reg.POWER_VID_REQ = v then s else (s.setD Reg.POWER_VID_REQ v).railReq 0 (vidSetting v)

/-- Repointing ends with the worst monitor and its delay increase in 0.01 %. -/
def State.repoint (s : State) (mon delay : Nat) : State :=
  let m := (delay + 24) / 25
  let old := s.df Reg.POWER_MARGIN
  let top := s.df Reg.POWER_MARGIN_MAX
  let new := max old (min m top)
  let want := s.df Reg.POWER_VID_BASE + new
  let limit := decide (top < m) || decide (100 < want)
  let s := ((s.setD Reg.POWER_WORST_MON mon).setD Reg.POWER_WORST_DELAY delay).setD Reg.POWER_MARGIN new
  let s : State := { s with power := { s.power with ageLimit := limit } }
  let s := if limit then (s.note 0x0A0E noUnit []).setAlert Reg.POWER_ALERT_AGEING_LIMIT else s
  let s := s.setVid (min want 100)
  let h := s.df Reg.LEDGER_HOURS
  ((s.setD Reg.POWER_LAST_HOURS h).setD Reg.POWER_AGE_BUSY 0).note 0x0A0F noUnit [old, new, mon, h]

def execRepointingDone (mon delay : Nat) (s : State) : Host.Outcome State Fault Refusal :=
  s.live fun s => if s.df Reg.POWER_AGE_BUSY = 1 then s.repoint (mon % 512) (delay % 2 ^ 15) else s

end Sys2Proof.Machine
end

