-- ==== Sys2Proof/Machine/Repair.lean ====
section
/-!
DEFINITION. Row repair and the scrubber (R219–R230), failures that a memory test finds (R343), and the publication of the floor plan (R30–R33).
-/

namespace Sys2Proof.Machine

/-! The words of a row. -/

/-- Address of byte 0 of a row: memory 0 bed of core `u`, bank · 64 + line; memory 1 yard row of slice `u`. A spare, which no address of the
map reaches, stands in an unmapped range. -/
def rowBase (mem u row : Nat) : Nat :=
  if mem = 0 then windowBase u + row % 64 * 8192 + row / 64 * 512
  else if row < 4096 then u * 2 ^ 21 + row * 512
  else yardSize + u * 2 ^ 18 + (row - 4096) * 512

/-- Does the row number name a row, line 48 of a bed bank and rows 4,096 on of a slice the spares (R220, R221)? -/
def rowExists (mem row : Nat) : Bool := if mem = 0 then decide (row % 64 ≤ 48) && decide (row < 1024) else decide (row < 4608)

def rowWords (mem u row : Nat) : List Nat :=
  if rowExists mem row then (List.range 64).map fun i => rowBase mem u row + 8 * i else []

/-- The row that a physical row serves: the redirected one for a spare in use, else itself (R221). -/
def State.liveRow (s : State) (mem u row : Nat) : Nat :=
  if mem = 0 then
    let b := s.spareByte u (row / 64)
    if row % 64 = 48 ∧ bit b 6 then row / 64 * 64 + b % 64 else row
  else if 4096 ≤ row ∧ s.rd Reg.YREP_VALID u (row - 4096) = 1 then s.rd Reg.YREP_ROW u (row - 4096)
  else row

/-- The copy of a row to its spare: every word has fresh check bits; what an uncorrectable word then holds is open. -/
def State.copyRow (s : State) (mem u row : Nat) : State :=
  (rowWords mem u row).foldl (fun s w =>
    let n := secded w (s.markAt w)
    let s := if n = 2 then s.pokeBytes w (toBytes 8 (Config.badWord w).toNat) else s
    s.clearMarks w 8) s

/-- REPAIR_DONE of a row: memory, row, spare and origin (R222, R226; notes/assumptions/31.md). -/
def State.repairDone (s : State) (mem u row e origin : Nat) : State :=
  (s.bumpD Reg.YARD_REPAIRED 1).note 0x0604 u [mem, row, e, origin]

/-- Map a bed line to the spare of its bank, or find the bank unrepairable (R221, R225); `cause` is that of the lost site. -/
def State.mapBed (s : State) (c row cause : Nat) : State :=
  let bank := row / 64
  if s.bankSpent c bank then s.exhaustBank c cause
  else ((s.copyRow 0 c row).setSpareByte c bank (64 + row % 64)).repairDone 0 c row 0 (if cause = 2 then 1 else 2)

/-- Entry e of a slice no longer redirects. -/
def State.dropEntry (s : State) (u e : Nat) : State :=
  if s.rd Reg.YREP_VALID u e = 1 then (s.wr Reg.YREP_VALID u e 0).wr Reg.YREP_USED u 0 (s.rd Reg.YREP_USED u 0 - 1) else s

/-- Map a yard row to a spare row, where there is one; a slice whose last good spare is gone is exhausted (R221, R225). -/
def State.mapYard (s : State) (u row origin : Nat) : State :=
  match s.freeSpare u with
  | none => s.checkSlice u
  | some e =>
    let old := (List.range 512).find? fun k => decide (s.rd Reg.YREP_VALID u k = 1) && decide (s.rd Reg.YREP_ROW u k = row)
    let s := match old with | some k => s.dropEntry u k | none => s
    let s := s.copyRow 1 u row
    let s := ((s.wr Reg.YREP_ROW u e row).wr Reg.YREP_ORIGIN u e origin).wr Reg.YREP_VALID u e 1
    ((s.wr Reg.YREP_USED u 0 (s.rd Reg.YREP_USED u 0 + 1)).repairDone 1 u row e origin).checkSlice u

/-- A spare line is bad; a bank that used it is unrepairable (R222, R225). -/
def State.badSpareLine (s : State) (c bank cause : Nat) : State :=
  let b := s.spareByte c bank
  let s := s.setSpareByte c bank (b % 64 + 128)
  if bit b 6 then s.exhaustBank c cause else s

/-- A spare row is bad; the row that used it takes another one (R222). -/
def State.badSpareRow (s : State) (u e origin : Nat) : State :=
  let used := decide (s.rd Reg.YREP_VALID u e = 1)
  let row := s.rd Reg.YREP_ROW u e
  let s := s.dropEntry u e
  let s := if s.rd Reg.YREP_SPARE_BAD u e = 1 then s
    else (s.wr Reg.YREP_SPARE_BAD u e 1).wr Reg.YREP_BAD u 0 (s.rd Reg.YREP_BAD u 0 + 1)
  if used then s.mapYard u row origin else s.checkSlice u

/-- Map a queued row out: a spare that fails unused is marked bad. -/
def State.mendRow (s : State) (row : Nat × Nat × Nat) : State :=
  if row.1 = 0 then
    if row.2.2 % 64 = 48 then s.badSpareLine row.2.1 (row.2.2 / 64) 4 else s.mapBed row.2.1 row.2.2 4
  else if 4096 ≤ row.2.2 then s.badSpareRow row.2.1 (row.2.2 - 4096) 2 else s.mapYard row.2.1 row.2.2 2

/-- The foreman maps every queued row out (R222). -/
def State.mendAll (s : State) : State := State.showRepairs { s.repairs.foldl State.mendRow s with repairs := [] }

/-- Entry e of slice u redirects a row. -/
def State.useEntry (s : State) (u row e origin : Nat) : State :=
  let s := if s.rd Reg.YREP_VALID u e = 1 then s else s.wr Reg.YREP_USED u 0 (s.rd Reg.YREP_USED u 0 + 1)
  ((s.wr Reg.YREP_ROW u e row).wr Reg.YREP_ORIGIN u e origin).wr Reg.YREP_VALID u e 1

/-! Repair windows (R223, R224, R353). -/

/-- A window of the repair operation ends: its row leaves the queue; a pending suspend or cancel takes effect, and an empty queue ends
the operation. -/
def State.windowEnd (s : State) (row : Nat × Nat × Nat) : State :=
  let s := State.showRepairs { s with repairs := s.repairs.erase row }
  let s := s.bump Reg.CMD_PROGRESS 0 4 1
  if s.ops.cancelling.contains 4 then
    State.setOp { s with ops := { s.ops with cancelling := s.ops.cancelling.erase 4, suspending := s.ops.suspending.erase 4 } } 4 6 0
  else if s.repairs.isEmpty then State.setOp { s with ops := { s.ops with suspending := s.ops.suspending.erase 4 } } 4 5 0
  else if s.ops.suspending.contains 4 then State.setOp { s with ops := { s.ops with suspending := s.ops.suspending.erase 4 } } 4 4 0
  else s

/-- Repair windows may open: the operation runs or stops after the current window. -/
def State.repairing (s : State) : Bool := decide (s.opState 4 = 2) || decide (s.opState 4 = 3)

/-- The core runs no task, or has retired its COURSE_END with 10 cycles left before the tick (R223). -/
def State.bedFree (s : State) (c : Nat) : Bool :=
  !(s.taskRuns && s.task.parts.contains c) ||
  (!(s.core c).seq.inCourse && decide (s.tickCycle + 10 ≤ s.inForce Reg.CTRL_PERIOD))

def execBedRepairWindow (c : Nat) (s : State) : Host.Outcome State Fault Refusal :=
  s.clocked fun s =>
    match s.repairs.find? fun x => decide (x.1 = 0) && decide (x.2.1 = c) with
    | none => s
    | some x => if s.repairing && s.bedFree c then (s.mendRow x).windowEnd x else s

def execYardRepairWindow (slice : Nat) (s : State) : Host.Outcome State Fault Refusal :=
  s.clocked fun s =>
    match s.repairs.find? fun x => decide (x.1 = 1) && decide (x.2.1 = slice) with
    | none => s
    | some x => if s.repairing then (s.mendRow x).windowEnd x else s

/-! The scrubber (R219, R220). -/

/-- Bit errors that nature has left in words of a row since its last scrub (R217). -/
def State.disturb (s : State) (flips : List (Nat × Nat)) : State :=
  flips.foldl (fun s x => { s with marks := Sparse.put 0 s.marks (8 * (x.1 / 8)) (s.markAt (8 * (x.1 / 8)) + x.2) }) s

/-- Key of the corrections of a pass. -/
def scrubKey (mem u : Nat) : Nat := 1024 * mem + u

/-- The scrubber corrects a word: the corrected word is written back; a word in `hard` needs correction again. -/
def State.scrubFix (s : State) (mem u row w : Nat) (hard : List Nat) : State :=
  let s := s.bumpD (if mem = 0 then Reg.YARD_BED_CORR else Reg.YARD_YARD_CORR) 1
  let k := scrubKey mem u
  let s : State := { s with scrubs := Sparse.put 0 s.scrubs k (Sparse.get 0 s.scrubs k + 1) }
  if hard.contains w then (s.note 0x0602 u [mem, row]).failRow (mem, u, row)
  else s.clearMarks w 8

/-- The scrubber finds an uncorrectable word: a task it belongs to fail-stops; otherwise the word is zeroed. -/
def State.scrubUe (s : State) (mem u w : Nat) : State :=
  let stops := s.taskRuns && (decide (mem = 1) || s.task.parts.contains u)
  let s := if mem = 0 then s.bedUe u w else s.yardUe w
  if stops then s else s.store w (List.replicate 8 0#8)

def State.scrubWord (s : State) (mem u row : Nat) (hard : List Nat) (w : Nat) : State :=
  match secded w (s.markAt w) with
  | 0 => s
  | 1 => s.scrubFix mem u row w hard
  | _ => s.scrubUe mem u w

/-- A pass over the bed of a core or over a slice ends with its last row, a spare one. -/
def lastRow (mem : Nat) : Nat := if mem = 0 then 15 * 64 + 48 else 4607

/-- The end of a pass: a summary when it corrected anything, and PASSES of the yard. -/
def State.endPass (s : State) (mem u : Nat) : State :=
  let k := scrubKey mem u
  let n := Sparse.get 0 s.scrubs k
  let s := if n = 0 then s else State.note { s with scrubs := Sparse.put 0 s.scrubs k 0 } 0x0603 u [n]
  if mem = 1 then s.bumpD Reg.YARD_PASSES 1 else s

/-- One scrub read: `flips` are the errors nature has left (word address, wrong bits), `hard` the words with a hard fault. -/
def execScrubRead (mem u row : Nat) (flips : List (Nat × Nat)) (hard : List Nat) (s : State) : Host.Outcome State Fault Refusal :=
  s.clocked fun s =>
    let here := if mem = 0 then decide (u < 1024) && s.domainOn (groupOf u)
      else decide (mem = 1) && decide (u < 64) && s.domainOn (72 + quadrantOf u)
    if s.df Reg.YARD_SCRUB_EN = 0 ∨ here = false then s
    else
      let live := s.liveRow mem u row
      let ws := rowWords mem u live
      let s := s.disturb (flips.filter fun x => ws.contains (8 * (x.1 / 8)))
      let s := ws.foldl (fun s w => s.scrubWord mem u live hard w) s
      if row = lastRow mem then s.endPass mem u else s

/-! Failures that a memory test finds (R222, R343). -/

def State.testFault (s : State) : TestFault → State
  | .line c bank row => s.mapBed c (bank * 64 + row) 2
  | .spareLine c bank => s.badSpareLine c bank 2
  | .row u row => s.mapYard u row 1
  | .spareRow u e => s.badSpareRow u e 1
  | .part c => s.loseSite c 2
  | .array c a =>
    let x := s.site c
    if bit x.arrays a ∧ a < 4 then s.setSite c { x with arrays := x.arrays - 2 ^ a, cause := if x.parts then 2 else x.cause } else s

/-- Faults whose unit exists. -/
def TestFault.exists : TestFault → Bool
  | .line c bank row => decide (c < 1024) && decide (bank < 16) && decide (row < 48)
  | .spareLine c bank => decide (c < 1024) && decide (bank < 16)
  | .row u row => decide (u < 64) && decide (row < 4096)
  | .spareRow u e => decide (u < 64) && decide (e < 512)
  | .array c a => decide (c < 1024) && decide (a < 4)
  | .part c => decide (c < 1024)

def State.testFaults (s : State) (l : List TestFault) : State := (l.filter TestFault.exists).foldl State.testFault s

/-! Publication (R30–R33). -/

/-- The two lowest bits set of a four-bit mask. -/
def lowTwo (m : Nat) : Nat :=
  (((List.range 4).filter (bit m)).take 2).foldl (fun x a => x + 2 ^ a) 0

def good (m : Nat) : Nat := ((List.range 4).filter (bit m)).length

/-- STATE and ARRAYS of a site (R31). -/
def Site.plan (x : Site) : Nat × Nat :=
  if !x.parts || decide (good x.arrays < 2) then (0, 0)
  else if good x.arrays = 4 then (2, 0xF)
  else (1, lowTwo x.arrays)

/-- Classification of a site: STATE, ARRAYS and CAUSE (R31, R430). -/
def State.classify (s : State) (c : Nat) : Nat × Nat × Nat :=
  let x := s.site c
  if !s.domainOn (groupOf c) then (0, 0, 5) else (x.plan.1, x.plan.2, if x.plan.1 = 2 then 0 else x.cause)

/-- Spare lines in use in a bed. -/
def State.bedSpares (s : State) (c : Nat) : Nat := ((List.range 16).filter fun b => bit (s.spareByte c b) 6).length

/-- The entry of core c as one word. -/
def State.floorWord (s : State) (c : Nat) : Nat :=
  let r (f : Row) : Nat := s.rd f (c / 512) (c % 512)
  r Reg.FLOOR_STATE + r Reg.FLOOR_ARRAYS * 4 + r Reg.FLOOR_SPARE_ROW * 64 + r Reg.FLOOR_SPARE_COL * 1024 +
    r Reg.FLOOR_BED_SPARES * 2 ^ 14 + r Reg.FLOOR_CAUSE * 2 ^ 19 + r Reg.FLOOR_CHANGED * 2 ^ 22

/-- The listed arrays with bit `b` of their repair half-word set: SPARE_ROW for bit 4 and SPARE_COL for bit 12 of the fused repair (R101, R107). -/
def State.fusedSpare (s : State) (c ar b : Nat) : Nat :=
  ((List.range 4).map fun a => b2n (bit ar a && bit (s.cf Reg.ARRAY_REPAIR c) (16 * a + b)) * 2 ^ a).foldl (· + ·) 0

/-- Publish one site; an entry that differs from what the table held is recorded (R32, R33). After a whole-die reset the table held zeros, so
the first publication records every site that is not dead with no cause (DESIGN CHOICE, notes/assumptions/54.md). -/
def State.publishSite (s : State) (c : Nat) : State :=
  let (st, ar, cause) := s.classify c
  let old := s.floorWord c
  let w (s : State) (f : Row) (v : Nat) : State := s.wr f (c / 512) (c % 512) v
  let s := w (w (w s Reg.FLOOR_STATE st) Reg.FLOOR_ARRAYS ar) Reg.FLOOR_SPARE_ROW (s.fusedSpare c ar 4)
  let s := w (w (w s Reg.FLOOR_SPARE_COL (s.fusedSpare c ar 12)) Reg.FLOOR_BED_SPARES (s.bedSpares c)) Reg.FLOOR_CAUSE cause
  let s := w s Reg.FLOOR_CHANGED (b2n (decide ((st, ar) ≠ (s.fusedSite c).plan)))
  if s.floorWord c = old then s else s.note 0x0005 c []

/-- Sites published in a state. -/
def State.countState (s : State) (st : Nat) : Nat := ((List.range 1024).filter fun c => s.floorState c = st).length

/-- Publish the floor plan: GEN is odd while the table is written (R30, R32). -/
def State.publish (s : State) (source : Nat) : State :=
  let s := s.setD Reg.FLOOR_GEN (s.df Reg.FLOOR_GEN + 1)
  let s := (List.range 1024).foldl State.publishSite s
  let s := ((s.setD Reg.FLOOR_FULL_COUNT (s.countState 2)).setD Reg.FLOOR_NARROW_COUNT (s.countState 1)).setD
    Reg.FLOOR_DEAD_COUNT (s.countState 0)
  (s.setD Reg.FLOOR_SOURCE source).setD Reg.FLOOR_GEN (s.df Reg.FLOOR_GEN + 1)

end Sys2Proof.Machine
end

