-- ==== Sys2Proof/Machine/Reset.lean ====
section
/-!
DEFINITION. What the three reset scopes clear and keep (R348, R349, R417, R418, R425, R427).
-/

namespace Sys2Proof.Machine

/-! Keys of the register store. -/

/-- Address of a key. -/
def keyAddr (k : Nat) : Nat := k / 64

/-- The core in whose window a key lies. -/
def keyCore (k : Nat) : Option Nat :=
  if 0x10000000000 ≤ keyAddr k ∧ keyAddr k < 0x10040000000 then some ((keyAddr k - 0x10000000000) / 0x100000) else none

/-- The die page in which a key lies. -/
def keyPage (k : Nat) : Option Nat :=
  if 0x20000000000 ≤ keyAddr k then some ((keyAddr k - 0x20000000000) / 0x1000) else none

/-- Is the key one of a field's keys? -/
def Row.has (r : Row) (k : Nat) : Bool :=
  let o := keyAddr k % 0x1000
  let pg : Nat := if r.core then fld (keyAddr k) 19 12 - 0xE0 else (keyPage k).getD 0
  decide (k % 64 = r.lsb) && (if r.core then (keyCore k).isSome else (keyPage k).isSome) &&
  decide (r.page ≤ pg) && decide (pg < r.page + r.pages) && decide (r.off ≤ o) &&
  (if r.count = 1 then decide (o = r.off) else decide ((o - r.off) % r.stride = 0) && decide ((o - r.off) / r.stride < r.count))

/-- Fields of a core window that a reset of the core reloads (R427). -/
def coreKept : List Row := [Reg.ARRAY_REPAIR, Reg.BED_SPARE_LO, Reg.BED_SPARE_HI]

/-- Die fields of a whole-die reset that fuses, straps and pins hold; repairs of the field set go. -/
def dieKept : List Row :=
  Reg.fuseRows.filter fun r => decide (r ∉ [Reg.NUM_TAG, Reg.BED_SPARE_LO, Reg.BED_SPARE_HI, Reg.YREP_USED, Reg.YREP_BAD, Reg.YREP_ROW,
    Reg.YREP_VALID, Reg.YREP_SPARE_BAD, Reg.YREP_ORIGIN])

/-! Manufacturing repairs (R226). -/

/-- Entries of the yard row-repair table that manufacturing test made: slice, row and entry. -/
def State.madeRows (s : State) : List (Nat × Nat × Nat) :=
  s.regs.filterMap fun x =>
    let u := (keyPage x.1).getD 0 - Reg.YREP_VALID.page
    let e := (keyAddr x.1 % 0x1000 - Reg.YREP_VALID.off) / Reg.YREP_VALID.stride
    if Reg.YREP_VALID.has x.1 && decide (x.2 = 1) && decide (s.rd Reg.YREP_ORIGIN u e = 0) then some (u, s.rd Reg.YREP_ROW u e, e) else none

/-- What antifuse holds beside the fuse registers of `old`: the fused plan and the manufacturing repairs. -/
def State.withMade (s old : State) : State :=
  let s : State := { s with boot := { s.boot with fused := old.boot.fused, fusedSpares := old.boot.fusedSpares } }
  let s := old.madeRows.foldl (fun s x => s.useEntry x.1 x.2.1 x.2.2 0) s
  old.boot.fusedSpares.foldl (fun s x => s.setSpareByte (x.1 / 16) (x.1 % 16) x.2) s

/-! Whole die. -/

/-- A key that a whole-die reset keeps: the ledger's page, and fuses, straps and pins (R373, R418). -/
def wholeKeeps (k : Nat) : Bool := decide (keyPage k = some 12) || dieKept.any fun r => r.has k

/-- A whole-die reset with its cause as POWER_ON names it: events detected so far are recorded, and everything but antifuse, the ledger,
the TAP and the levels of the pins is as after reset (R348, R373, R403). -/
def State.wholeReset (s : State) (cause : Nat) : State :=
  let s := s.acceptEvents s.detected.length
  State.withMade (old := s) { State.reset with
    pending := s.pending
    frozen := s.frozen
    regs := s.regs.filter fun x => wholeKeeps x.1
    ledger := s.ledger
    power := { PowerCtl.init with repointHours := s.power.repointHours }
    dbg := { Debug.init with tap := s.dbg.tap, shift := s.dbg.shift, notFrozen := s.dbg.notFrozen, source := s.dbg.source }
    boot := { Boot.init with
      pwrgood := s.boot.pwrgood, resetN := s.boot.resetN, compResetN := s.boot.compResetN, risen := s.boot.risen
      plinth := s.boot.plinth, cause := some (s.boot.cause.getD cause) } }

/-! Cores. -/

/-- The bed in which an address lies belongs to one of the cores. -/
def inBeds (cs : List Nat) (a : Nat) : Bool :=
  match bedOf a with
  | some (c, _) => cs.contains c
  | none => false

/-- An address that stands for a spare line of one of the cores' beds, and one that stands for a spare row of the yard. -/
def inBedSpares (cs : List Nat) (a : Nat) : Bool :=
  let o := (a - 0x10000000000) % 0x100000
  decide (0x10000000000 ≤ a) && decide (a < 0x10040000000) && decide (bedSize ≤ o) && decide (o < bedSize + 8192) &&
  cs.contains ((a - 0x10000000000) / 0x100000)

def inYardSpares (a : Nat) : Bool := decide (yardSize ≤ a) && decide (a < yardSize + 2 ^ 24)

/-- Cores return to their reset state: pages but fuse and repair-set fields, bed, and everything the core holds (R348, R427). -/
def State.resetCores (s : State) (cs : List Nat) : State :=
  let mine (c : Nat) : Bool := cs.contains c
  let gone (k : Nat) : Bool := match keyCore k with
    | some c => mine c && !coreKept.any fun r => r.has k
    | none => false
  { s with
    regs := s.regs.filter fun x => !gone x.1
    cores := s.cores.filter fun x => !mine x.1
    mem := s.mem.filter fun x => !inBeds cs x.1
    marks := s.marks.filter fun x => !inBeds cs x.1 && !inBedSpares cs x.1
    scrubs := s.scrubs.filter fun x => !mine x.1
    task := { s.task with halts := s.task.halts.filter fun h => !mine h.1 }
    sync := { s.sync with
      registering := s.sync.registering.filter fun q => !mine q.core
      slots := s.sync.slots.filter fun q => !mine q.req.home && !mine q.req.core
      awaits := s.sync.awaits.filter fun q => !mine q.core
      results := s.sync.results.filter fun q => !mine q.core }
    net := { s.net with
      meshUsed := s.net.meshUsed.filter fun x => !mine (x.1 / 4)
      accesses := s.net.accesses.filter fun x => !inBeds cs x.base
      signals := s.net.signals.filter fun x => !mine x.1 }
    boot := { s.boot with stores := s.boot.stores.filter fun x => !mine x.1 }
    dbg := { s.dbg with trace := s.dbg.trace.filter fun x => !mine x.1 } }

/-! Compute part. -/

/-- Fields that a compute-part reset keeps in the pages marked "per field" (R425). -/
def partKept : List Row :=
  [Reg.CTRL_TIMESTAMP, Reg.YARD_YARD_CORR, Reg.YARD_YARD_UE, Reg.YARD_BED_CORR, Reg.YARD_BED_UE, Reg.YARD_REPAIRED, Reg.YARD_PASSES,
   Reg.YARD_SCRUB_EN, Reg.ARCH_CLOSURES, Reg.ARCH_PLANE_STALL, Reg.ARCH_FORCED]

/-- A key that a compute-part reset keeps. -/
def partKeeps (k : Nat) : Bool :=
  match keyCore k with
  | some _ => coreKept.any fun r => r.has k
  | none =>
    if keyPage k = some 4 ∨ keyPage k = some 5 ∨ keyPage k = some 6 then partKept.any fun r => r.has k
    else !(Reg.DEBUG_EN.has k || Reg.DEBUG_READY.has k)

/-- Long operations in state 1 to 4 end cancelled, cause RESET (R311, R349). -/
def State.endOps (s : State) : State :=
  let s := (List.range 6).foldl (fun s k =>
    if s.opLive k then
      let s := if k = 0 then s.setD Reg.CMD_CAUSE 9 else if k = 3 then (s.setD Reg.REBOND_STATE 6).setD Reg.REBOND_CAUSE 8 else s
      s.setOp k 6 (if k = 0 then 9 else if k = 3 then 8 else 0)
    else s) s
  { s with
    task := Task.init
    ops := { Ops.init with nextId := s.ops.nextId, result := s.ops.result } }

/-- Packets that survive a reset of the mesh: those the foreman sends (R291). -/
def keptPackets (l : List Packet) : List Packet := l.filter fun p => decide (pSkind p = 2)

/-- The clocks after a compute-part reset: running, unless COOLANT_OK is low (R333, R334). -/
def State.restartClocks (s : State) : State :=
  if s.df Reg.POWER_STOPPED = 0 then s
  else if s.df Reg.POWER_COOLANT_OK = 1 then s.setD Reg.POWER_STOPPED 0
  else { s with power := { s.power with release := true } }

/-- A compute-part reset: what it clears, and phase 3 begins (R348, R349, R425). -/
def State.partReset (s : State) : State :=
  let s := s.mendAll.endOps.resetCores (List.range 1024)
  let old := s.lin
  let s : State := { s with
    regs := s.regs.filter fun x => partKeeps x.1
    force := s.force.filter fun x => decide (keyPage x.1 ≠ some 4)
    mem := [], marks := [], cores := [], scrubs := [], repairs := [], sync := Sync.init, slip := Slip.init
    net := { s.net with mesh := keptPackets s.net.mesh, accesses := [], signals := [], meshUsed := [] }
    dbg := { s.dbg with trace := [] }
    boot := { s.boot with part := true, ready := false, stores := [] } }
  let s := ((s.shiftStamps old).switchDomains (List.range 64) true).restartClocks
  s.setD Reg.BOOT_PHASE 3

end Sys2Proof.Machine
end

