-- ==== Sys2Proof/Machine/Boot.lean ====
section
/-!
DEFINITION. Bring-up: power and reset pins, the phases, deliveries and the manifest, the memory test, the firmware load, and power domains (R339–R348, R373, R381, R394, R395, R399, R428–R430, R437, R439).
-/

namespace Sys2Proof.Machine

/-! Lockdown (R399). -/

/-- Lockdown takes effect and is recorded once. -/
def State.lockdown (s : State) : State :=
  if s.df Reg.MARK_LOCKED = 1 then s else (s.setD Reg.MARK_LOCKED 1).note 0x0C03 noUnit []

/-! Staging (R340). -/

def State.staged (s : State) (off n : Nat) : List Byte := (List.range n).map fun i => Sparse.get 0#8 s.boot.staging (off + i)

/-- A number in staging, stored under R9. -/
def State.stagedNum (s : State) (off n : Nat) : Nat := ofBytes (s.staged off n)

/-- Deliveries are taken in phase 2, from a hub only once PACKAGE_ID is written; a write at any other time is recorded. -/
def State.stageWrite (s : State) (path : Path) (off : Nat) (data : List Byte) : State :=
  if path = .other then s
  else if s.df Reg.BOOT_PHASE ≠ 2 then s.note 0x0B02 noUnit []
  else if path = .hub ∧ !s.ring.placed then s
  else { s with boot := { s.boot with staging := Sparse.putRun 0#8 s.boot.staging off (data.take (0x400000 - off)) } }

def execStageWrite (path : Path) (off : Nat) (data : List Byte) (s : State) : Host.Outcome State Fault Refusal :=
  s.live fun s => s.stageWrite path off data

/-! The manifest (R393–R396). -/

/-- Two byte ranges share a byte. -/
def meets (a n b m : Nat) : Bool := decide (a < b + m) && decide (b < a + n)

/-- Check 1: the format. -/
def State.manifestFormat (s : State) : Bool :=
  let num := s.stagedNum
  let slot := num 7 1
  let n := num 0xB 1
  let len := num 0xC 4
  let fw := num 0x10 4
  let core := num 0x14 4
  decide (num 0 4 = 0x4E4D5A51) && decide (num 4 2 = 1) && decide (num 6 1 = 0xA1) &&
  decide (slot ≤ 3) && decide (num 8 1 ≤ 63) && decide (num 9 1 < 16) && !bit (num 9 1) slot && decide (num 0xA 1 < 4) &&
  decide (1 ≤ n) && decide (n ≤ 8) && decide (16 ≤ len) && decide (len ≤ 0x100000) && decide (len % 16 = 0) &&
  decide (fw % 4096 = 0) && decide (0x1000 ≤ fw) && decide (core % 4096 = 0) &&
  decide (num 0x18 40 = 0) && decide (num (0x60 + 32 * n) (256 - 32 * n) = 0) &&
  !meets fw len core (4096 * n) && !meets 0 0x460 fw len && !meets 0 0x460 core (4096 * n) &&
  decide (fw + len ≤ 0x200000) && decide (core + 4096 * n ≤ 0x200000)

/-- The digest of a root key slot. -/
def State.rootDigest (s : State) (k : Nat) : List Byte := (List.range 4).flatMap fun w => toBytes 8 (s.rd Reg.MARK_ROOT_DIGEST 0 (4 * k + w))

/-- The number of the first check that fails, or none. -/
def State.manifestCheck (s : State) : Option Nat :=
  let num := s.stagedNum
  let slot := num 7 1
  if !s.manifestFormat then some 1
  else if s.rootDigest slot = List.replicate 32 0#8 ∨ bit (s.df Reg.MARK_REVOKED) slot then some 2
  else if sha256 (s.staged 0x160 384) ≠ s.rootDigest slot ∨
      !rsaVerify (s.staged 0x160 384) (s.staged 0x2E0 384) (s.staged 0 0x2E0) then some 3
  else if num 8 1 < s.df Reg.MARK_SVN then some 4
  else if sha256 (s.staged (num 0x10 4) (num 0xC 4)) ≠ s.staged 0x40 32 ∨
      (List.range (num 0xB 1)).any fun k => decide (sha256 (s.staged (num 0x14 4 + 4096 * k) 4096) ≠ s.staged (0x60 + 32 * k) 32) then some 5
  else none

/-- Bring-up status of a failed check (R345). -/
def checkStatus : Nat → Nat
  | 1 => 1 | 3 => 2 | 5 => 4 | _ => 3

/-- REVOCATION of a fuse, kind 0, or of a security version, kind 1 (R395; notes/assumptions/34.md). -/
def State.revocation (s : State) (kind v : Nat) : State := s.note 0x0C02 noUnit [kind, v]

/-- The burns of R395. -/
def State.burnTrust (s : State) (revoke svn : Nat) (ratchet : Bool) : State :=
  let s := (List.range 4).foldl (fun s k =>
    if bit revoke k && !bit (s.df Reg.MARK_REVOKED) k then (s.setD Reg.MARK_REVOKED (s.df Reg.MARK_REVOKED + 2 ^ k)).revocation 0 k else s) s
  if !ratchet then s
  else
    let old := s.df Reg.MARK_SVN
    (List.range (svn - old)).foldl (fun s i => (s.setD Reg.MARK_SVN (old + i + 1)).revocation 1 (old + i + 1)) s

/-- Octets into the words of a repeated register, first octet lowest (R389). -/
def State.setOctets (s : State) (r : Row) (n : Nat) (bs : List Byte) : State :=
  (List.range n).foldl (fun s w => s.wr r 0 w (ofBytes ((bs.drop (8 * w)).take 8))) s

/-- A manifest that passes every check (R394–R396). -/
def State.manifestTaken (s : State) : State :=
  let num := s.stagedNum
  let slot := num 7 1
  let n := num 0xB 1
  let image := s.staged (num 0x14 4) (4096 * n)
  let s := s.burnTrust (num 9 1) (num 8 1) (bit (num 0xA 1) 0)
  let s := ((s.setD Reg.MARK_VERIFIED 1).setD Reg.MARK_ACTIVE_SLOT slot).setD Reg.MARK_DEBUG_ALLOW (b2n (bit (num 0xA 1) 1))
  let s := (s.setOctets Reg.MARK_M_FW 4 (s.staged 0x40 32)).setOctets Reg.MARK_M_CORE 4 (sha256 image)
  let s := s.setD Reg.BOOT_SEGMENTS n
  let s : State := { s with boot := { s.boot with image := image, digests := s.staged 0x60 (32 * n) } }
  s.note 0x0C00 noUnit [slot, num 8 1]

/-- BOOT.CTRL.DELIVERED is written with 1 (R340, R345, R394). -/
def State.delivered (s : State) : State :=
  if s.df Reg.BOOT_PHASE ≠ 2 ∨ s.df Reg.MARK_VERIFIED = 1 then s
  else match s.manifestCheck with
    | some k => (s.note 0x0C01 noUnit [k]).bootStatus (checkStatus k)
    | none => s.manifestTaken


/-! Memories (R216). -/

/-- The foreman initialises the memories of cores, and the yard: every word consistent, its data undefined. -/
def State.initMemories (s : State) (cs : List Nat) (yard : Bool) : State :=
  let mine (a : Nat) : Bool := inBeds cs a || (yard && decide (a < yardSize))
  let spare (a : Nat) : Bool := inBedSpares cs a || (yard && inYardSpares a)
  { s with
    mem := s.mem.filter fun x => !mine x.1
    marks := s.marks.filter fun x => !mine x.1 && !spare x.1
    cores := s.cores.filterMap fun x =>
      if !cs.contains x.1 then some x
      else
        let k := { x.2 with acc := [], accMarks := [] }
        if k = Core.init then none else some (x.1, k) }

/-! The memory test (R341–R343, R353). -/

/-- A VDD_SRAM setting is requested (R342, R444). -/
def State.sramTo (s : State) (v : Nat) : State :=
  if s.side.sram = v then s else State.railReq { s with side := { s.side with sram := v } } 1 v

/-- Settings of a step: voltages of step 1, backgrounds of step 2. -/
def MemTest.settings (m : MemTest) : Nat := if m.quick ∨ m.step = 3 then 1 else 3

/-- VDD_SRAM of a point of the test, in 0.5 mV units. -/
def MemTest.rail (m : MemTest) : Nat :=
  if m.quick then 1650
  else match m.step with
    | 1 => 1500 + 150 * m.setting
    | 2 => 1500
    | _ => 1650

/-- PROGRESS of a memory test (notes/assumptions/35.md). -/
def MemTest.progress (m : MemTest) : Nat := m.step + 256 * m.pass

/-- The test stands at a point: its rail setting is requested and its progress shown. -/
def State.testAt (s : State) (m : MemTest) : State :=
  ((State.sramTo { s with ops := { s.ops with memtest := some m } } m.rail)).wr Reg.CMD_PROGRESS 0 1 m.progress

/-- A memory test begins (R342, R352). -/
def State.startTest (s : State) (quick : Bool) : State := (((s.newOp 1).setOp 1 1 0).setOp 1 2 0).testAt ⟨quick, 1, 0, 0⟩

/-- The point after a pass; `last` says that it ends the setting. -/
def MemTest.next (m : MemTest) (last : Bool) : MemTest :=
  if !last then { m with pass := m.pass + 1 }
  else if m.setting + 1 < m.settings then { m with setting := m.setting + 1, pass := m.pass + 1 }
  else { m with step := m.step + 1, setting := 0, pass := 0 }

/-- A pending suspend or cancel of a kind is taken off the list. -/
def State.unpend (s : State) (kind : Nat) : State :=
  { s with ops := { s.ops with suspending := s.ops.suspending.filter (· ≠ kind), cancelling := s.ops.cancelling.filter (· ≠ kind) } }

/-- A cancelled memory test: repairs are kept, the memories are initialised (R353). -/
def State.cancelTest (s : State) : State :=
  let s := (s.unpend 1).setOp 1 6 0
  let s := State.sramTo { s with ops := { s.ops with memtest := none } } 1650
  s.initMemories (List.range 1024) true

/-- A step-1 pass, a retention hold or an array check ends; `last` says that it was the last one at its setting. -/
def execMemtestPassEnd (last : Bool) (s : State) : Host.Outcome State Fault Refusal :=
  s.clocked fun s =>
    match s.ops.memtest with
    | none => s
    | some m =>
      if 4 ≤ m.step ∨ !s.railClosed 1 ∨ !(s.opState 1 = 2 ∨ s.opState 1 = 3) then s
      else if s.ops.cancelling.contains 1 then s.cancelTest
      else
        let s := s.testAt (m.next last)
        if s.ops.suspending.contains 1 then (s.unpend 1).setOp 1 4 0 else s

/-- The core groups of a group sequence, as cores. -/
def State.groupCores (s : State) : List Nat := s.ops.group.flatMap coresOf

/-! The firmware load (R346, R347). -/

/-- Zero NEED entries. -/
def State.zeroNeed (s : State) (cs : List Nat) : State := cs.foldl (fun s c => (s.wr Reg.BOOT_NEED 0 c 0).wr Reg.BOOT_TABLE 0 c 0) s

/-- A load of cores begins; their firmware stores take the image anew. -/
def State.startLoad (s : State) (why : Nat) (cs : List Nat) : State :=
  let s := s.zeroNeed (if why = 6 ∨ why = 2 then List.range 1024 else cs)
  let s := (s.setD Reg.BOOT_ROUND 0).setD Reg.BOOT_INCOMPLETE 0
  { s with
    boot := { s.boot with stores := s.boot.stores.filter fun x => !cs.contains x.1 }
    ops := { s.ops with load := some ⟨cs, 0, why⟩ } }

/-- Cores that are not dead: by classification before the first publication, and powered (R346). -/
def State.loadable (s : State) (c : Nat) : Bool := decide ((s.classify c).1 ≠ 0)

/-- A broadcast operation begins: bring-up's own or a commanded one. -/
def State.startBroadcast (s : State) (why : Nat) : State :=
  let s := (((s.newOp 2).setOp 2 1 0).setOp 2 2 0).wr Reg.CMD_PROGRESS 0 2 0
  s.startLoad why ((List.range 1024).filter s.loadable)

/-- Segments of the image. -/
def State.segments (s : State) : Nat := s.df Reg.BOOT_SEGMENTS

def State.fwStore (s : State) (c : Nat) : Store := Sparse.get ⟨[], []⟩ s.boot.stores c

def State.setStore (s : State) (c : Nat) (x : Store) : State :=
  { s with boot := { s.boot with stores := Sparse.put ⟨[], []⟩ s.boot.stores c x } }

/-- The NEED entry that core c finds: a segment's bit when every byte of it is there and its digest matches. -/
def State.needOf (s : State) (c : Nat) : Nat :=
  let x := s.fwStore c
  let n := s.segments
  let has := decide (x.table.length = 32 * n) && decide (0 < n)
  let good (k : Nat) : Bool :=
    let d := (x.data.filter fun b => decide (b.1 / 4096 = k)).map (·.2)
    has && decide (d.length = 4096) && decide (sha256 (d.map fun b => b) = (x.table.drop (32 * k)).take 32)
  ((List.range n).map fun k => b2n (good k) * 2 ^ k).foldl (· + ·) 0 + b2n has * 256

/-- Put received bytes in a store; every byte is listed. -/
def Store.putBytes (d : Sparse Byte) (off : Nat) : List Byte → Sparse Byte
  | [] => d
  | b :: r => Store.putBytes ((d.filter fun x => decide (x.1 < off)) ++ [(off, b)] ++ d.filter fun x => decide (off < x.1)) (off + 1) r

/-- The WRITE by which core c reports its entry: the whole word that holds it (R346). -/
def State.needPacket (s : State) (c : Nat) : Packet :=
  let a := 0x2000000B800 + 8 * (c / 4)
  let v := s.needOf c * 2 ^ (16 * (c % 4))
  s.packet ⟨s.df Reg.PLACE_PACKAGE_ID, s.df Reg.PLACE_DIE_ID, 0, 2⟩ 0 c
    { vl := 3, type := 0, len := 8, addr := a, payload := toBytes 8 v }

/-- A load that cores can receive: neither suspended nor without an image. -/
def State.loading (s : State) (l : Load) : Bool :=
  if l.why = 6 ∨ l.why = 2 then decide (s.opState 2 = 2) || decide (s.opState 2 = 3) else true

/-- Core c receives, of its load: packet k of the image (k below 64), the digest table (64), or an end marker (65). -/
def execFloodPacket (c k : Nat) (data : List Byte) (s : State) : Host.Outcome State Fault Refusal :=
  s.clocked fun s =>
    match s.ops.load with
    | none => s
    | some l =>
      if !l.cores.contains c ∨ !s.loading l then s
      else
        let x := s.fwStore c
        if k < 8 * s.segments then s.setStore c { x with data := Store.putBytes x.data (512 * k) (data.take 512) }
        else if k = 64 then s.setStore c { x with table := data.take (32 * s.segments) }
        else if k = 65 then s.form (s.needPacket c)
        else s

/-- A core's entry is complete (R347). -/
def State.loadedCore (s : State) (c : Nat) : Bool :=
  decide (s.rd Reg.BOOT_TABLE 0 c = 1) && decide (s.rd Reg.BOOT_NEED 0 c % 2 ^ s.segments = 2 ^ s.segments - 1)

/-- Cores that a load has not completed. -/
def State.incomplete (s : State) (l : Load) : List Nat := l.cores.filter fun c => !s.loadedCore c

/-- A core stays incomplete after round 3, or its broadcast is cancelled (R347, R353). -/
def State.fwDead (s : State) (c : Nat) : State :=
  (s.note 0x0B04 c [s.rd Reg.BOOT_NEED 0 c + 256 * s.rd Reg.BOOT_TABLE 0 c]).loseSite c 3

/-- A group sequence ends: the floor plan is published unless a task runs (R30, R348). -/
def State.groupEnd (s : State) : State :=
  let s : State := { s with ops := { s.ops with group := [] } }
  if s.taskRuns then s else s.publish 3

/-- A restore begins once its cores are loaded: one image per participant (R356, R359); its template images follow BEYLER. -/
def State.beginRestore (s : State) : State :=
  match s.ops.resume with
  | none => s
  | some r => s.beginContext false false false false r.base r.stride

/-- The load is over. -/
def State.loadEnd (s : State) (l : Load) : State :=
  let s : State := { s with ops := { s.ops with load := none } }
  if l.why = 6 ∨ l.why = 2 then (s.unpend 2).setOp 2 5 0
  else if l.why = 1 then s.groupEnd
  else s.beginRestore

/-- The foreman reads the NEED entries: the load ends, goes into its next round, or leaves cores dead (R347); a suspend or a cancel of
the broadcast takes effect (R353). -/
def State.round (s : State) (l : Load) : State :=
  let left := s.incomplete l
  let s := s.setD Reg.BOOT_INCOMPLETE left.length
  let op := decide (l.why = 6) || decide (l.why = 2)
  if op && s.ops.cancelling.contains 2 then
    let s := left.foldl State.fwDead s
    let s := (s.unpend 2).setOp 2 6 0
    { s with ops := { s.ops with load := none } }
  else if left.isEmpty then s.loadEnd l
  else if 3 ≤ l.round then
    let s := left.foldl State.fwDead s
    let s := if l.why = 6 then s.bootStatus 11 else s
    s.loadEnd l
  else
    let s : State := { s with ops := { s.ops with load := some { l with round := l.round + 1 } } }
    let s := s.setD Reg.BOOT_ROUND (l.round + 1)
    let s := if op then s.wr Reg.CMD_PROGRESS 0 2 (l.round + 1) else s
    if op && s.ops.suspending.contains 2 then (s.unpend 2).setOp 2 4 0 else s

def execBroadcastRound (s : State) : Host.Outcome State Fault Refusal :=
  s.clocked fun s =>
    match s.ops.load with
    | none => s
    | some l => if s.loading l then s.round l else s

/-! The end of a memory test (R343, R348). -/

/-- What a test found is applied at once and the memories are initialised. -/
def State.testDone (s : State) (faults : List TestFault) : State :=
  let s := (List.range 64).foldl State.checkSlice (s.testFaults faults)
  let s := s.initMemories (List.range 1024) true
  let s := (s.unpend 1).setOp 1 5 0
  { s with ops := { s.ops with memtest := none } }

/-- The test of a group sequence is over: the unicast load of the group's live cores follows. -/
def State.groupTested (s : State) (faults : List TestFault) : State :=
  let cs := s.groupCores
  let s := (s.testFaults faults).initMemories cs false
  s.startLoad 1 (cs.filter s.loadable)

/-- Cores that a test fault names; yard rows name none. -/
def TestFault.inCores (cs : List Nat) : TestFault → Bool
  | .line c _ _ | .spareLine c _ | .array c _ | .part c => cs.contains c
  | _ => false

/-- A memory test ends with what it found: the memory-test operation's, or the test of a group sequence. -/
def execMemtestDone (faults : List TestFault) (s : State) : Host.Outcome State Fault Refusal :=
  s.clocked fun s =>
    match s.ops.memtest with
    | some m => if m.step = 4 ∧ s.railClosed 1 ∧ (s.opState 1 = 2 ∨ s.opState 1 = 3) then s.testDone faults else s
    | none =>
      if s.ops.group = [] ∨ s.ops.load.isSome then s
      else s.groupTested (faults.filter (TestFault.inCores s.groupCores))

/-! Warm bring-up (R341). -/

/-- Record i of the repair set in staging: unit, memory, row, spare and origin (notes/assumptions/31.md). -/
def State.repairRecord (s : State) (i : Nat) : Nat × Nat × Nat × Nat × Nat :=
  let a := 0x200010 + 64 * i
  (s.stagedNum (a + 24) 2, s.stagedNum (a + 32) 8, s.stagedNum (a + 40) 8, s.stagedNum (a + 48) 8, s.stagedNum (a + 56) 8)

/-- The repair set passes its checks. -/
def State.repairSetOk (s : State) : Bool :=
  let n := s.stagedNum 0x200008 4
  decide (s.stagedNum 0x200000 8 = s.df Reg.MARK_SERIAL) && decide (n ≤ 32767) &&
  decide (s.stagedNum 0x20000C 4 = crc32c (s.staged 0x200010 (64 * n))) &&
  (List.range n).all fun i => decide (s.stagedNum (0x200010 + 64 * i + 6) 2 = 0x0604)

/-- No entry of slice u redirects a row any more. -/
def State.dropRow (s : State) (u row : Nat) : State :=
  match (List.range 512).find? fun k => decide (s.rd Reg.YREP_VALID u k = 1) && decide (s.rd Reg.YREP_ROW u k = row) with
  | some k => s.dropEntry u k
  | none => s

/-- Does a record name a unit and a row that exist? -/
def repairExists (u mem row e : Nat) : Bool :=
  if mem = 0 then decide (u < 1024) && decide (row < 1024) else decide (u < 64) && decide (e < 512) && decide (row < 4096)

/-- Apply a repair of the set: the line or row is redirected again. -/
def State.restoreRepair (s : State) (x : Nat × Nat × Nat × Nat × Nat) : State :=
  let (u, mem, row, e, origin) := x
  if !repairExists u mem row e then s
  else if mem = 0 then s.setSpareByte u (row / 64) (64 + row % 64)
  else ((s.dropRow u row).useEntry u row e (if origin = 1 then 1 else 2)).checkSlice u

def State.restoreRepairs (s : State) : State :=
  (List.range (s.stagedNum 0x200008 4)).foldl (fun s i => s.restoreRepair (s.repairRecord i)) s

/-! Phases (R339–R345). -/

/-- Entry to phase 4. -/
def State.enterTest (s : State) : State :=
  if s.boot.part then s.startTest true
  else if s.df Reg.BOOT_WARM = 0 then s.startTest false
  else if s.repairSetOk then ((s.restoreRepairs.setD Reg.BOOT_WARM_TAKEN 1)).startTest true
  else ((s.note 0x0B03 noUnit []).bootStatus 6).startTest false

/-- Entry to a phase. -/
def State.enterPhase (s : State) (ph : Nat) : State :=
  let s := s.setD Reg.BOOT_PHASE ph
  match ph with
  | 4 => s.enterTest
  | 5 => [0, 1, 2, 3].foldl State.startTraining s
  | 6 => s.startBroadcast 6
  | 7 =>
    let s := s.lockdown
    if s.boot.compHeld then State.partReset { s with boot := { s.boot with compHeld := false } } else s
  | _ => s

/-- Phase 1 begins: POWER_ON is the first record after a reset, the hub ports train, and VDD_CORE is requested (R373, R437, R444). -/
def State.startRom (s : State) : State :=
  let s := match s.boot.cause with
    | some c => { s with detected := ⟨0x0000, noUnit, [c], s.now, sevOf 0, false⟩ :: s.detected, boot := { s.boot with cause := none } }
    | none => s
  let s := (s.setDomain 79 true).setD Reg.BOOT_PHASE 1
  let s := [4, 5, 6, 7].foldl State.startTraining s
  let v := min 100 (s.df Reg.POWER_VID_BASE + s.df Reg.POWER_MARGIN)
  ((s.setD Reg.POWER_VID_REQ v).railReq 0 (vidSetting v)).showHours

/-- Phase 1 starts once VDD_PLINTH is up and PWRGOOD and RESET_N are high. -/
def State.tryStart (s : State) : State :=
  if s.boot.plinth ∧ s.boot.pwrgood ∧ s.boot.resetN ∧ s.df Reg.BOOT_PHASE = 0 then s.startRom else s

/-- May the current phase end? -/
def State.phaseOver (s : State) : Bool :=
  match s.df Reg.BOOT_PHASE with
  | 2 => decide (s.df Reg.MARK_VERIFIED = 1) && s.railClosed 0
  | 4 => !s.opLive 1
  | 5 => decide (s.df Reg.RING_ENUM_STATE = 3)
  | 6 => s.ops.load.isNone
  | _ => true

/-- BOOT_PHASE of a phase; BOOT counts the time of a bring-up, and keeps its values through a compute-part reset (R339, R425). -/
def State.phaseRecord (s : State) (ph ms : Nat) : State :=
  let s := s.note 0x0B00 noUnit [ph, ms]
  if s.boot.part then s
  else
    let s := s.bumpD Reg.BOOT_ELAPSED_MS ms
    if ph = 4 then s.setD Reg.BOOT_MEMTEST_MS (min ms (2 ^ 20 - 1)) else s

/-- The PLL does not lock: every core is dead with cause 2 (R345). -/
def State.pllFailed (s : State) : State := ((List.range 1024).foldl (fun s c => s.loseSite c 2) s).bootStatus 5

/-- The end of phase 1: the PUF key (R391). -/
def State.endRom (s : State) (puf : Bool) : State :=
  if puf then s.setD Reg.MARK_PUF_OK 1 else s.note 0x0C04 noUnit [1, s.df Reg.ATTEST_REPORT_SEQ]

/-- The end of phase 7: the floor plan, then the record, and every command is accepted. -/
def State.endReady (s : State) (ms : Nat) : State :=
  let source := if s.boot.part then 3 else if s.df Reg.BOOT_WARM_TAKEN = 1 then 2 else 1
  let s := (s.publish source).phaseRecord 7 ms
  { s with boot := { s.boot with ready := true, part := false } }

/-- A phase ends and the next one begins. -/
def State.phaseEnd (s : State) (r : PhaseResult) : State :=
  let failed := decide (s.df Reg.BOOT_STATUS = 5)
  match s.df Reg.BOOT_PHASE with
  | 1 => ((s.endRom r.puf).phaseRecord 1 r.ms).enterPhase 2
  | 2 => (s.phaseRecord 2 r.ms).enterPhase 3
  | 3 =>
    let s := s.switchDomains (List.range 64 ++ [72, 73, 74, 75, 76, 77]) true
    if r.pll then (s.phaseRecord 3 r.ms).enterPhase 4
    else (s.pllFailed.phaseRecord 3 r.ms).enterPhase (if s.boot.part then 7 else 5)
  | 4 => (s.phaseRecord 4 r.ms).enterPhase (if s.boot.part then 6 else 5)
  | 5 => (s.phaseRecord 5 r.ms).enterPhase (if failed then 7 else 6)
  | 6 => (s.phaseRecord 6 r.ms).enterPhase 7
  | 7 => s.endReady r.ms
  | _ => s

def execBootPhase (r : PhaseResult) (s : State) : Host.Outcome State Fault Refusal :=
  s.live fun s =>
    if s.df Reg.BOOT_PHASE = 0 ∨ s.boot.ready ∨ !s.phaseOver ∨ (s.boot.part ∧ !s.boot.compResetN) then s
    else s.phaseEnd r

/-! Power and reset pins (R373, R381, R434, R436–R439). -/

/-- VDD_PLINTH comes up: the ring and its counts begin at 0 (R373). -/
def execVddPlinthUp (s : State) : Host.Outcome State Fault Refusal :=
  .next (if s.boot.plinth then s
    else
      let s := (s.setD Reg.LEDGER_HEAD_SEQ 0).setD Reg.LEDGER_ACK_SEQ 0
      State.showHours { s with
        ledger := { Ledger.init with steps := s.ledger.steps }
        boot := { s.boot with plinth := true, risen := false, cause := some 0 } })

/-- Fields that antifuse holds when every rail is gone. -/
def antifuse : List Row :=
  dieKept.filter fun r => decide (r ∉ [Reg.PLACE_POS_STRAP, Reg.PLACE_MASTER, Reg.POWER_COOLANT_OK, Reg.POWER_VID_REQ])

/-- VDD_PLINTH is lost: only antifuse remains. -/
def execVddPlinthLoss (s : State) : Host.Outcome State Fault Refusal :=
  .next (State.withMade (old := s) { State.reset with
    pending := s.pending
    regs := s.regs.filter fun x => antifuse.any fun r => r.has x.1
    ledger := { Ledger.init with steps := s.ledger.steps } })

/-- One power-cycle step (R381). -/
def State.burnCycle (s : State) : State :=
  if 8192 ≤ s.df Reg.LEDGER_CYCLES then s.note 0x0E04 noUnit []
  else
    let s := s.setD Reg.LEDGER_CYCLES (s.df Reg.LEDGER_CYCLES + 1)
    if s.df Reg.LEDGER_CYCLES = 8192 then s.setD Reg.LEDGER_CYCLES_SAT 1 else s

/-- PWRGOOD rises with DIE_POS at `pos` and MASTER_SEL at `master`. -/
def execPwrgoodRise (pos : Nat) (master : Bool) (s : State) : Host.Outcome State Fault Refusal :=
  .next (if !s.boot.plinth ∨ s.boot.pwrgood then s
    else
      let s := (s.setD Reg.PLACE_POS_STRAP (pos % 8)).setD Reg.PLACE_MASTER (b2n master)
      let s := if s.boot.risen then s else s.burnCycle
      State.tryStart { s with boot := { s.boot with pwrgood := true, risen := true } })

def execPwrgoodLow (s : State) : Host.Outcome State Fault Refusal :=
  .next (if !s.boot.plinth ∨ !s.boot.pwrgood then s
    else State.wholeReset { s with boot := { s.boot with pwrgood := false } } 1)

def execResetNLow (s : State) : Host.Outcome State Fault Refusal :=
  .next (if !s.boot.plinth ∨ !s.boot.resetN then s
    else State.wholeReset { s with boot := { s.boot with resetN := false } } 2)

def execResetNRelease (s : State) : Host.Outcome State Fault Refusal :=
  .next (State.tryStart { s with boot := { s.boot with resetN := true } })

/-- COMP_RESET_N low: a compute-part reset, held before phase 7 and, since the foreman is stopped, through a freeze. -/
def execCompResetNLow (s : State) : Host.Outcome State Fault Refusal :=
  let s : State := { s with boot := { s.boot with compResetN := false } }
  .next (if s.df Reg.BOOT_PHASE = 0 then s
    else if s.frozen ∨ s.df Reg.BOOT_PHASE < 7 then { s with boot := { s.boot with compHeld := true } }
    else s.partReset)

/-- COMP_RESET_N is seen high: the phases of the reset may run. -/
def execCompResetNRelease (s : State) : Host.Outcome State Fault Refusal :=
  let s : State := { s with boot := { s.boot with compResetN := true } }
  .next (if s.boot.compHeld ∧ !s.frozen ∧ s.df Reg.BOOT_PHASE = 7 then
      State.partReset { s with boot := { s.boot with compHeld := false } }
    else s)

/-! Power domains (R428–R430). -/

/-- The die-local address lies in yard quadrant q. -/
def inQuadrant (q a : Nat) : Bool := decide (a < yardSize) && decide (quadrantOf (a / 2 ^ 21) = q)

/-- A domain powers off and loses what it holds. -/
def State.powerOff (s : State) (d : Nat) : State :=
  let s := s.switchDomains [d] false
  if d < 64 then s.resetCores (coresOf d)
  else if 72 ≤ d ∧ d < 76 then
    { s with mem := s.mem.filter fun x => !inQuadrant (d - 72) x.1, marks := s.marks.filter fun x => !inQuadrant (d - 72) x.1 }
  else s

/-- The group sequence of R348 begins on groups: reset, initialisation, and the test. -/
def State.groupStart (s : State) (gs : List Nat) : State :=
  let cs := gs.flatMap coresOf
  let s := (s.resetCores cs).initMemories cs false
  { s with ops := { s.ops with
    group := s.ops.group ++ gs.filter fun g => !s.ops.group.contains g
    load := s.ops.load.filter fun l => decide (l.why ≠ 1) } }

/-- No long operation is in state 1, 2 or 3 (R429). -/
def State.switchable (s : State) : Bool := (List.range 6).all fun k => decide (s.opState k = 0) || decide (4 ≤ s.opState k)

/-- Switch requests: domains that power on do so at once, those that power off within 100 µs. -/
def State.switchRequest (s : State) (on off : List Nat) : State :=
  if on.isEmpty ∧ off.isEmpty then s
  else
    let s := s.switchDomains on true
    let gs := on.filter (· < 64)
    let s := if gs.isEmpty then s else s.groupStart gs
    State.setD { s with ops := { s.ops with offs := (s.ops.offs.filter fun d => !on.contains d) ++ off.filter fun d => !s.ops.offs.contains d } }
      Reg.DIR_DOM_BUSY 1

/-- DOM_OFF takes a value. -/
def State.domOff (s : State) (v : Nat) : State :=
  let old := s.df Reg.DIR_DOM_OFF
  let off := (List.range 64).filter fun g => bit v g && !bit old g && s.domainOn g
  let on := (List.range 64).filter fun g => !bit v g && bit old g
  (s.setD Reg.DIR_DOM_OFF v).switchRequest (on.filter fun g => !s.domainOn g) off

/-- DOM_OFF_YQ takes a value. -/
def State.domOffYq (s : State) (v : Nat) : State :=
  let old := s.df Reg.DIR_DOM_OFF_YQ
  let off := (List.range 4).filter fun q => bit v q && !bit old q && s.domainOn (72 + q)
  let on := (List.range 4).filter fun q => !bit v q && bit old q && !s.domainOn (72 + q)
  (s.setD Reg.DIR_DOM_OFF_YQ v).switchRequest (on.map (72 + ·)) (off.map (72 + ·))

/-- Every requested switch is complete. -/
def execDomainSwitchDone (s : State) : Host.Outcome State Fault Refusal :=
  s.live fun s =>
    if s.df Reg.DIR_DOM_BUSY = 0 ∨ s.ops.group ≠ [] then s
    else
      let s := s.ops.offs.foldl State.powerOff s
      State.setD { s with ops := { s.ops with offs := [] } } Reg.DIR_DOM_BUSY 0

end Sys2Proof.Machine
end

