-- ==== Sys2Proof/Machine/Sync.lean ====
section
/-!
DEFINITION. Ties, waits, windows as their owner sees them, and the arch tree: the Y slot and the events of the sync plane (R231–R260).
-/

namespace Sys2Proof.Machine

/-! Homes and updates (R233–R236, R241). -/

/-- A sync fault: captured in SYNC.FAULT, recorded, and a fail-stop (R258). -/
def State.syncFault (s : State) (c fault code index : Nat) (data : List Nat) : State :=
  let s := if s.cf Reg.SYNC_FAULT c ≠ 0 then s else
    ((s.setC Reg.SYNC_FAULT c fault).setC Reg.SYNC_FAULT_CYCLE c (s.cycleNow c)).setC Reg.SYNC_FAULT_INDEX c index
  s.failStop c code c data 2 2

/-- Is local tie t of core c bound (R233)? -/
def State.bound (s : State) (c t : Nat) : Bool := decide (s.rd Reg.SYNC_BOUND c t = 1)

/-- Home core and home tie of local tie t of core c. -/
def State.home (s : State) (c t : Nat) : Nat × Nat :=
  if s.bound c t then (s.rd Reg.SYNC_HOME_CORE c t, s.rd Reg.SYNC_HOME_TIE c t) else (c, t)

/-- Value of a tie word. -/
def State.tie (s : State) (c t : Nat) : Nat := Sparse.get 0 (s.core c).ties t

def State.setTie (s : State) (c t v : Nat) : State :=
  s.mapCore c fun k => { k with ties := Sparse.put 0 k.ties t v }

/-- The present tick's cycle with count x, or its first one. -/
def State.inTick (s : State) (x : Nat) : Nat := max x (s.tickCount * s.inForce Reg.CTRL_PERIOD)

/-- Do something in the cycle with count x of the present tick, and go on from the later of that cycle and the present one. -/
def State.inCycle (s : State) (x : Nat) (f : State → State) : State :=
  (f (s.setD Reg.CTRL_TIMESTAMP (s.stampOf (s.inTick x)))).notBefore s.now

/-! The plane (R241). -/

/-- Links of one direction that a message crosses over `left` sites from core a, each up to 8 sites long; a link is 4 times the core at which it
begins, plus its direction. -/
def planeLeg (dir step : Nat) (up : Bool) : Nat → Nat → Nat → List Nat
  | 0, _, _ => []
  | n + 1, a, left =>
    if left = 0 then []
    else
      let m := step * min 8 left
      (4 * a + dir) :: planeLeg dir step up n (if up then a + m else a - m) (left - 8)

/-- The links from core c to core d, along x and then along y (DESIGN CHOICE, notes/assumptions/61.md). -/
def planeRoute (c d : Nat) : List Nat :=
  let x := c % 32
  let x' := d % 32
  let y := c / 32
  let y' := d / 32
  planeLeg (if x ≤ x' then 0 else 1) 1 (decide (x ≤ x')) 4 c (max x x' - min x x') ++
  planeLeg (if y ≤ y' then 2 else 3) 32 (decide (y ≤ y')) 4 (32 * y + x') (max y y' - min y y')

/-- A message crosses a link in the first cycle from the given one on in which it carries fewer than four; each cycle it waits counts. -/
def State.crossLink (x : State × Nat) (link : Nat) : State × Nat :=
  let s := x.1
  let k := ((List.range 256).find? fun k => decide (Sparse.get 0 s.sync.links ((x.2 + k) * 8192 + link) < 4)).getD 256
  let key := (x.2 + k) * 8192 + link
  let s : State := { s with sync := { s.sync with links := Sparse.put 0 s.sync.links key (Sparse.get 0 s.sync.links key + 1) } }
  (s.bumpD Reg.ARCH_PLANE_STALL k, x.2 + k + 1)

/-- A message of core c for core d enters the plane in the cycle after x: the cycle of its delivery, x + 2 + h when it waits at no link. -/
def State.sendPlane (s : State) (c d x : Nat) : State × Nat :=
  let s : State := { s with sync := { s.sync with links := s.sync.links.filter fun l => decide (x ≤ l.1 / 8192 + 4096) } }
  let (s, y) := (planeRoute c d).foldl State.crossLink (s, x + 1)
  (s, y + 1)

/-- Send an update of core c to tie t of core h in the cycle with count x. -/
def State.sendUpdate (s : State) (c h t : Nat) (dec : Bool) (a x : Nat) : State :=
  let (s, due) := s.sendPlane c h x
  ({ s with sync := { s.sync with updates := s.sync.updates ++ [(⟨h, t, dec, a, c, s.stampOf x, s.peer c, due, none⟩ : TieUpdate)] } }).bumpC
    Reg.SYNC_ADDS_SENT c 1

/-- A binding to a core that does not live is TIE_RANGE (R258). -/
def State.homeDead (s : State) (c t : Nat) : Bool := !s.coreAlive (s.home c t).1

/-- An engine of core c adds 1 to the home of local tie t in the cycle with count x (R233, R247, R249). -/
def State.sendHome (s : State) (c t x : Nat) : State :=
  if s.homeDead c t then s.syncFault c 6 0x070C t [s.cycleNow c, t]
  else s.sendUpdate c (s.home c t).1 (s.home c t).2 false 1 x

/-- Trace an update that core c sends in its issue cycle for tie t of a home (R411). -/
def State.traceSent (s : State) (c t a : Nat) (dec : Bool) (home : Nat) : State := s.trace c ⟨s.coreStamp c, 0, t, a, b2n dec, 0, home⟩

/-- An update issued by the Y slot of core c. -/
def State.issueUpdate (s : State) (c h t a : Nat) (dec : Bool) : State :=
  (s.sendUpdate c h t dec a (s.issueLin c)).traceSent c t a dec (s.peer h)

/-! Waits (R237–R242). -/

/-- Wait slots of a tie file in use. -/
def State.slotsUsed (s : State) (h : Nat) : Nat := (s.sync.slots.filter fun x => x.req.home = h).length

/-- The lowest wait slot of a tie file that is free in the cycle with count x: one freed in that cycle is not (R237). -/
def State.freeSlot (s : State) (h x : Nat) : Option Nat :=
  (List.range 16).find? fun i =>
    (s.sync.slots.all fun y => !(y.req.home = h && y.idx = i)) && s.sync.freed.all fun y => !(y.1 = h && y.2.1 = i && decide (x ≤ y.2.2))

/-- A wait that ends in the cycle with count x sends its result: an unbound core has it at once, a bound one over the plane, where it counts as
ended in cycle x + 1 + h2 (R242). -/
def State.result (s : State) (q : WaitReq) (x : Nat) : State × Nat :=
  if q.home = q.core then (s, x) else s.sendPlane q.home q.core (x - 1)

/-- The wait is met by value v in the cycle with count x, which lies within its deadline (R238, R239). -/
def WaitReq.met (q : WaitReq) (v x : Nat) : Bool :=
  decide (q.thr ≤ v) && (match q.deadline with | some d => decide (x ≤ d) | none => true)

/-- Insert a slot by rising requester core and slot number, the order of R239. -/
def insertSlot (x : WaitSlot) : List WaitSlot → List WaitSlot
  | [] => [x]
  | y :: r => if x.req.core < y.req.core ∨ (x.req.core = y.req.core ∧ x.idx < y.idx) then x :: y :: r else y :: insertSlot x r

/-- Free a slot in the cycle with count x. -/
def State.dropSlot (s : State) (y : WaitSlot) (x : Nat) : State :=
  { s with sync := { s.sync with
    slots := s.sync.slots.erase y
    freed := (s.sync.freed.filter fun f => decide (x ≤ f.2.2 + 4096)) ++ [(y.req.home, y.idx, x)] } }

/-- Trace the end of a wait (R411). -/
def State.traceEnd (s : State) (q : WaitReq) (how v : Nat) : State := s.trace q.core ⟨s.now, 3, q.localTie, how, v, 0, s.peer q.home⟩

/-- A wait is satisfied or granted in the cycle with count x; v is the value left. -/
def State.endWait (s : State) (y : WaitSlot) (x v : Nat) : State :=
  let (s, z) := (s.dropSlot y x).result y.req (max x y.req.at_)
  State.traceEnd { s with sync := { s.sync with results := s.sync.results ++ [⟨y.req.core, false, z⟩] } } y.req (b2n y.req.take) v

/-- Plain waits of a tie that value v satisfies. -/
def State.satisfyWaits (s : State) (v x : Nat) : List WaitSlot → State
  | [] => s
  | y :: r => (if !y.req.take && y.req.met v x then s.endWait y x v else s).satisfyWaits v x r

/-- Takes of a tie in priority order; the value that remains. -/
def State.grantTakes (s : State) (v x : Nat) : List WaitSlot → State × Nat
  | [] => (s, v)
  | y :: r =>
    if y.req.take && y.req.met v x then (s.endWait y x (v - y.req.thr)).grantTakes (v - y.req.thr) x r else s.grantTakes v x r

/-- Does a wait of core c whose timeout takes effect in the cycle with count x stop the task? Not once the core has stopped, nor in the cycle of
a fail-stop of the task (R238, R368). -/
def State.timesOut (s : State) (c x : Nat) : Bool :=
  decide (s.run c ≠ 3) && !s.stopReaches c x && (s.taskRuns || decide (s.task.failed ≠ some x))

/-- A wait that is not met by its deadline d times out: WAIT_TIMEOUT in the cycle in which its core has the result (R238, R242). -/
def State.timeOut (s : State) (v : Nat) (y : WaitSlot) (d : Nat) : State :=
  let q := y.req
  let (s, e) := ((s.dropSlot y d).traceEnd q 2 v).result q d
  if s.timesOut q.core e then
    s.inCycle e fun s => s.syncFault q.core 1 0x0703 q.localTie [q.localTie, q.thr, v, s.cyc q.core]
  else s

/-- The waits of a tie whose deadline has come by the cycle with count x. -/
def State.timeOuts (s : State) (v x : Nat) : List WaitSlot → State
  | [] => s
  | y :: r =>
    (match y.req.deadline with
      | some d => if d ≤ x ∧ s.sync.slots.contains y then s.timeOut v y d else s
      | none => s).timeOuts v x r

/-- Decrements of a tie in rising order of requester; a larger one than the value is refused (R236). -/
def State.applyDecs (s : State) (h t v : Nat) : List TieUpdate → State × Nat
  | [] => (s, v)
  | u :: r =>
    if v < u.amount then
      (((s.note 0x0702 h [t, v, u.amount]).bumpC Reg.SYNC_UNDERFLOWS h 1).trace h ⟨s.now, 11, t, v, u.amount, 0, u.peer⟩).applyDecs h t v r
    else (s.bumpC Reg.SYNC_ADDS_APPLIED h 1).applyDecs h t (v - u.amount) r

/-- Insert an update by rising source core, behind its equals. -/
def insertUpdate (u : TieUpdate) : List TieUpdate → List TieUpdate
  | [] => [u]
  | x :: r => if u.src < x.src then u :: x :: r else x :: insertUpdate u r

/-- The steps of R239 for one tie in the cycle with count x, once that cycle's registrations have their slots: hand-set, adds, decrements, waits,
takes and timeouts, with the updates delivered in it. -/
def State.tieCycle (s : State) (h t x : Nat) (handset : Option Nat) (us : List TieUpdate) : State :=
  s.inCycle x fun s =>
    let v := handset.getD (s.tie h t)
    let adds := us.filter fun u => !u.dec
    let sum := (adds.map fun u => u.amount).foldl (· + ·) v
    let past := decide (2 ^ 64 ≤ sum)
    let s := s.bumpC Reg.SYNC_ADDS_APPLIED h adds.length
    let s := if past then (s.note 0x0701 h [t]).bumpC Reg.SYNC_OVERFLOWS h 1 else s
    let v := if past then 2 ^ 64 - 1 else sum
    let (s, v) := s.applyDecs h t v ((us.filter fun u => u.dec).foldl (fun l u => insertUpdate u l) [])
    let here := (s.sync.slots.filter fun y => y.req.home = h && y.req.tie = t).foldl (fun l y => insertSlot y l) []
    let s := s.satisfyWaits v x here
    let (s, v) := s.grantTakes v x here
    let s := us.foldl (fun s u => s.trace h ⟨s.now, 1, t, v, u.amount, u.issued, u.peer⟩) (s.setTie h t v)
    s.timeOuts v x here

/-- Take the first n updates of tie t of core h that `p` admits out of the plane, never one ahead of an earlier update of its source to this tie
file (R243). -/
def takeUpdates (p : TieUpdate → Bool) (h t : Nat) : Nat → List Nat → List TieUpdate → List TieUpdate × List TieUpdate
  | _, _, [] => ([], [])
  | 0, _, l => ([], l)
  | n + 1, blocked, u :: r =>
    if u.home ≠ h then
      let (a, b) := takeUpdates p h t (n + 1) blocked r
      (a, u :: b)
    else if u.tie = t && p u && !blocked.contains u.peer then
      let (a, b) := takeUpdates p h t n blocked r
      (u :: a, b)
    else
      let (a, b) := takeUpdates p h t (n + 1) (u.peer :: blocked) r
      (a, u :: b)

/-- Order of registrations: by cycle, then by requester core. -/
def insertReg (q : WaitReq) : List WaitReq → List WaitReq
  | [] => [q]
  | y :: r => if q.at_ < y.at_ ∨ (q.at_ = y.at_ ∧ q.core < y.core) then q :: y :: r else y :: insertReg q r

/-- A wait registers at its home: it takes the lowest free slot, or finds none (R237). -/
def State.enroll (s : State) (q : WaitReq) : State :=
  s.inCycle q.at_ fun s =>
    match s.freeSlot q.home q.at_ with
    | none => s.syncFault q.core 4 0x070B q.localTie [s.cyc q.core, q.localTie]
    | some i =>
      let s := (s.bumpC Reg.SYNC_WAITS q.core 1).trace q.core ⟨s.now, 2, q.localTie, s.tie q.home q.tie, q.thr, 0, s.peer q.home⟩
      { s with sync := { s.sync with slots := s.sync.slots ++ [⟨i, q⟩] } }

/-- The registrations that have reached tie file h by the cycle with count x take their slots in order; the ties they name. -/
def State.enrollDue (s : State) (h x : Nat) : State × List Nat :=
  let here := fun (q : WaitReq) => decide (q.home = h) && decide (q.at_ ≤ x)
  let l := (s.sync.registering.filter here).foldl (fun l q => insertReg q l) []
  (l.foldl State.enroll { s with sync := { s.sync with registering := s.sync.registering.filter fun q => !here q } }, l.map WaitReq.tie)

/-- The updates of a tie that are due by the cycle with count x leave the plane. -/
def State.dueUpdates (s : State) (h t x : Nat) : List TieUpdate × State :=
  let (us, rest) := takeUpdates (fun u => decide (u.due ≤ x)) h t s.sync.updates.length [] s.sync.updates
  (us, { s with sync := { s.sync with updates := rest } })

/-- Tie t of core h in the cycle with count x: registrations take slots, then the steps of R239 run for the tie, and for every other tie that a
registration names. -/
def State.tieStep (s : State) (h t x : Nat) (handset : Option Nat) (us : List TieUpdate) : State :=
  let (s, ties) := s.enrollDue h x
  (ties.eraseDups.filter fun k => k ≠ t).foldl (fun s k => let (us, s) := s.dueUpdates h k x; s.tieCycle h k x none us)
    (s.tieCycle h t x handset us)

/-- The same with the updates that are due. -/
def State.tieNow (s : State) (h t x : Nat) (handset : Option Nat) : State :=
  let (us, s) := s.dueUpdates h t x
  s.tieStep h t x handset us

/-- Updates for a core that does not live: discarded, recorded, and answered to their senders (R24, R234, R272). -/
def State.deadUpdates (s : State) (h : Nat) (us : List TieUpdate) : State :=
  us.foldl (fun s u =>
    let s := s.note 0x0002 h [u.tie]
    match u.answer with
    | some p => s.discard p 2
    | none => s.form (s.packet ⟨s.df Reg.PLACE_PACKAGE_ID, s.df Reg.PLACE_DIE_ID, u.src, 0⟩ 2 0 { vl := 1, type := 5, sub := 1, addr := 2 })) s

/-- `n` updates reach tie t of core h in one cycle, that of the last one's delivery (R239, R241). -/
def execTieUpdateDelivered (h t n : Nat) (s : State) : Host.Outcome State Fault Refusal :=
  s.clocked fun s =>
    let (us, rest) := takeUpdates (fun _ => true) h t n [] s.sync.updates
    let s : State := { s with sync := { s.sync with updates := rest } }
    let x := (us.map TieUpdate.due).foldl max 0
    if us.isEmpty then s else if s.coreAlive h then s.tieStep h t x none us else s.inCycle x fun s => s.deadUpdates h us

/-- A wait of a bound tie reaches its home (R237). -/
def execWaitRegistration (c : Nat) (s : State) : Host.Outcome State Fault Refusal :=
  s.clocked fun s =>
    match s.sync.registering.find? fun q => decide (q.core = c) with
    | none => s
    | some q => s.tieNow q.home q.tie q.at_ none

/-- WAIT and WAIT.TAKE (R234, R237): with an unbound tie the wait registers at once, and one that is met at once does not hold; a bound one holds
the core from the next cycle. -/
def waitBody (c : Nat) (take : Bool) (s : State) (b : Bundle) : Except State State :=
  let y := bY b
  let t := fld y 11 4
  let s := (s.waitReg c (fld y 16 12)).waitReg c (fld y 21 17)
  let to_ := fld (s.sval c (fld y 21 17)) 31 0
  let (h, ht) := s.home c t
  let x := s.issueLin c
  if s.homeDead c t then .error (s.syncFault c 6 0x070C t [s.cyc c, t])
  else
    let (s, at_) := if s.bound c t then s.sendPlane c h x else (s, x)
    let q : WaitReq := ⟨c, t, h, ht, take, s.sval c (fld y 16 12), if to_ = 0 then none else some (max (x + to_) at_), at_⟩
    let s : State := { s with sync := { s.sync with registering := s.sync.registering ++ [q] } }
    if s.bound c t then .ok (s.holdCore c .wait)
    else
      let s := s.tieNow h ht x none
      if s.run c = 3 then .error s
      else match s.sync.results.find? fun r => decide (r.core = c) with
        | some r => .ok { s with sync := { s.sync with results := s.sync.results.erase r } }
        | none => .ok (s.holdCore c .wait)

def execWaitTie (c : Nat) (b : Bundle) (s : State) := runSlot .y 5 c b (waitBody c false) s
def execWaitTake (c : Nat) (b : Bundle) (s : State) := runSlot .y 6 c b (waitBody c true) s

/-- An AWAIT that has not been met by its deadline d times out (R238, R251). -/
def State.awaitTimeOut (s : State) (x : ArchWait) (d : Nat) : State :=
  let s := { s with sync := { s.sync with awaits := s.sync.awaits.erase x } }
  if s.timesOut x.core d then s.inCycle d fun s => s.syncFault x.core 1 0x0703 x.arch [x.arch, s.cyc x.core] else s

/-- The wait of core c passes its deadline: the steps of that cycle run, in which it may still be met; if not, it times out (R238–R240). -/
def execWaitTimeout (c : Nat) (s : State) : Host.Outcome State Fault Refusal :=
  s.clocked fun s =>
    match (s.sync.slots.map WaitSlot.req ++ s.sync.registering).find? fun q => decide (q.core = c) && q.deadline.isSome with
    | some q => s.tieNow q.home q.tie (q.deadline.getD 0) none
    | none =>
      match s.sync.awaits.find? fun x => decide (x.core = c) && x.deadline.isSome with
      | some x => s.awaitTimeOut x (x.deadline.getD 0)
      | none => s

/-! The tie operations of the Y slot (R234). -/

/-- Package, die and die-local part of a global address. -/
def gPkg (a : Nat) : Nat := fld a 63 48
def gDie (a : Nat) : Nat := fld a 47 44
def gLocal (a : Nat) : Nat := fld a 43 0

/-- Is a global address local to this die (R20)? -/
def State.isOwn (s : State) (a : Nat) : Bool :=
  decide (gPkg a = s.df Reg.PLACE_PACKAGE_ID) && decide (gDie a = s.df Reg.PLACE_DIE_ID)

/-- The core a TIE handle names, where R234 admits the handle. -/
def Handle.tieCore (h : Handle) : Option Nat :=
  let a := gLocal h.base
  if h.kind = 6 ∧ h.formOk ∧ gDie h.base < 8 ∧ h.base % 2 ^ 20 = 0 ∧ 0 < h.extent ∧ 0x10000000000 ≤ a ∧ a < 0x10040000000 then
    some ((a - 0x10000000000) / 0x100000)
  else none

/-- SIGNAL and TIE_ADD: an add to the tie a TIE handle names, over the plane or as a TIE_ADD packet (R234). -/
def tieAdd (c h a : Nat) (s : State) : Except State State :=
  let hd := s.handle c h
  match hd.tieCore with
  | none => .error (s.syncFault c 6 0x070C hd.index [s.cyc c, hd.index])
  | some t =>
    if a = 0 then .ok s
    else if s.isOwn hd.base then .ok (s.issueUpdate c t hd.index a false)
    else .ok (((s.bumpC Reg.SYNC_ADDS_SENT c 1).issuePacket c
      (s.packet ⟨gPkg hd.base, gDie hd.base, t, 0⟩ 0 c { vl := 2, type := 4, sub := hd.index, addr := a })).traceSent c hd.index a false
        (gPkg hd.base + gDie hd.base * 2 ^ 16 + t * 2 ^ 20))

def execSignal (c : Nat) (b : Bundle) (s : State) :=
  runSlot .y 1 c b (fun s b => tieAdd c (fld (bY b) 9 4) 1 s) s

def execTieAdd (c : Nat) (b : Bundle) (s : State) :=
  runSlot .y 2 c b (fun s b =>
    let s := s.waitReg c (fld (bY b) 14 10)
    tieAdd c (fld (bY b) 9 4) (s.sval c (fld (bY b) 14 10)) s) s

/-- TIE_ADD.L and DEC: an update of the home of a local tie; an amount of 0 sends nothing. -/
def tieLocal (c t : Nat) (dec : Bool) (a : Nat) (s : State) : Except State State :=
  if s.homeDead c t then .error (s.syncFault c 6 0x070C t [s.cyc c, t])
  else if a = 0 then .ok s
  else .ok (s.issueUpdate c (s.home c t).1 (s.home c t).2 a dec)

def execTieAddL (c : Nat) (b : Bundle) (s : State) :=
  runSlot .y 3 c b (fun s b => tieLocal c (fld (bY b) 11 4) false (fld (bY b) 23 12) s) s

def execDec (c : Nat) (b : Bundle) (s : State) :=
  runSlot .y 4 c b (fun s b =>
    let s := s.waitReg c (fld (bY b) 16 12)
    tieLocal c (fld (bY b) 11 4) true (s.sval c (fld (bY b) 16 12)) s) s

/-! Windows as their owner opens and closes them (R244, R245). -/

def State.setWin (s : State) (c w i v : Nat) : State :=
  s.mapCore c fun k => { k with windows := Sparse.put 0 k.windows (8 * w + i) v }

/-- Fields of a descriptor. -/
def State.winTie (s : State) (c w : Nat) : Nat := fld (s.winWord c w 0) 15 8
def State.winBase (s : State) (c w : Nat) : Nat := fld (s.winWord c w 0) 50 32
def State.winExtent (s : State) (c w : Nat) : Nat := fld (s.winWord c w 1) 19 0
def State.winLate (s : State) (c w : Nat) : Nat := fld (s.winWord c w 2) 63 32

/-- BASE and EXTENT keep the rules of the descriptor table. -/
def State.winOk (s : State) (c w : Nat) : Bool :=
  decide (s.winBase c w % 16 = 0) && decide (s.winExtent c w % 16 = 0) && decide (s.winBase c w + s.winExtent c w ≤ bedSize)

/-- Open a closed window with good fields: its counters start again (R245). -/
def State.openWindow (s : State) (c w : Nat) : State :=
  let s := if 1 < s.winLate c w then s.note 0x0705 c [w, s.winLate c w] else s
  let s := s.setWin c w 0 (putFld (s.winWord c w 0) 0 0 1)
  let s := ((s.setWin c w 2 0).setWin c w 3 (putFld (s.winWord c w 3) 31 0 0)).setWin c w 4 (putFld (s.winWord c w 4) 30 30 0)
  s.trace c ⟨s.now, 6, w, fld (s.winWord c w 2) 31 0, fld (s.winWord c w 3) 31 0, 0, s.peer c⟩

/-- Clear OPEN. -/
def State.shutWindow (s : State) (c w : Nat) : State := s.setWin c w 0 (putFld (s.winWord c w 0) 0 0 0)

/-- WCLOSE takes effect. -/
def State.closeWindow (s : State) (c w : Nat) : State :=
  (s.shutWindow c w).trace c ⟨s.now, 7, w, fld (s.winWord c w 2) 31 0, fld (s.winWord c w 3) 31 0, 0, s.peer c⟩

def execWopen (c : Nat) (b : Bundle) (s : State) :=
  runSlot .y 9 c b (fun s b =>
    let w := fld (bY b) 8 4
    if s.windowOpen c w then .ok s
    else if s.winOk c w then .ok (s.openWindow c w)
    else .error (s.syncFault c 5 0x0707 w [s.cyc c, w])) s

def execWclose (c : Nat) (b : Bundle) (s : State) :=
  runSlot .y 10 c b (fun s b => .ok (s.closeWindow c (fld (bY b) 8 4))) s

/-- Every byte of an earlier packet of the same source to the window has been written: no access before number k is left (R247). -/
def State.signalFree (s : State) (c w : Nat) (p : Packet) (k : Nat) : Bool :=
  s.net.accesses.all fun x => match x.owner with
    | .window d v q => !(decide (d = c) && decide (v = w) && decide (pSource q = pSource p) && decide (x.serial < k))
    | _ => true

/-- The signal of a marked packet, in the cycle after its last bed write: an add on the window's tie, AUTOCLOSE, and the completion response
(R247, R248). -/
def execWindowSignal (c w : Nat) (s : State) : Host.Outcome State Fault Refusal :=
  s.clocked fun s =>
    match s.net.signals.find? fun x => decide (x.1 = c) && decide (x.2.1 = w) && s.signalFree c w x.2.2.1 x.2.2.2 with
    | none => s
    | some (_, _, p, k) =>
      let s := { s with net := { s.net with signals := s.net.signals.erase (c, w, p, k) } }
      let s := s.sendHome c (s.winTie c w) (s.lin + 1)
      let n := fld (s.winWord c w 3) 31 0
      let s := s.setWin c w 3 (putFld (s.winWord c w 3) 31 0 (min (n + 1) (2 ^ 32 - 1)))
      let s := if bit (s.winWord c w 0) 1 then s.shutWindow c w else s
      let s := s.trace c ⟨s.now, 8, w, fld (s.winWord c w 2) 31 0, 0, pTime p, pSource p⟩
      s.complete p

/-! The arch tree (R250–R254). -/

def ArchPhase.init : ArchPhase := ⟨false, 0, 0, none⟩

def State.phase (s : State) (a : Nat) : ArchPhase := Sparse.get ArchPhase.init s.sync.arches a

def State.setPhase (s : State) (a : Nat) (p : ArchPhase) : State :=
  { s with sync := { s.sync with arches := Sparse.put ArchPhase.init s.sync.arches a p } }

/-- Member of arch a: set in the mask and not dead (R250). -/
def State.member (s : State) (a c : Nat) : Bool :=
  bit (s.rd Reg.ARCH_MASK 0 (16 * a + c / 64)) (c % 64) && decide (s.floorState c ≠ 0)

def State.members (s : State) (a : Nat) : List Nat := (List.range 1024).filter fun c => s.member a c

/-- ARRIVED bit of core c at arch a. -/
def State.arrived (s : State) (c a : Nat) : Bool := bit (s.cf Reg.SYNC_ARRIVED c) a

def State.cross (s : State) (a : Nat) : Bool := decide (s.rd Reg.ARCH_CROSS 0 a = 1)
def State.isMaster (s : State) : Bool := decide (s.df Reg.PLACE_MASTER = 1)

/-- An arch MSG to a die of the package (R253, R271). -/
def State.archMsg (s : State) (die sub a : Nat) : State :=
  s.form (s.packet ⟨s.df Reg.PLACE_PACKAGE_ID, die, 0, 2⟩ 2 0 { vl := 2, type := 5, sub := sub, addr := a })

/-- The other dies of a cross-die arch. -/
def State.otherDies (s : State) (a : Nat) : List Nat :=
  (List.range 8).filter fun d => bit (s.rd Reg.ARCH_DIES 0 a) d && decide (d ≠ s.df Reg.PLACE_DIE_ID)

/-- The master decides in the cycle in which its own root is complete and every other die's arrival has reached it: releases leave, and its
closure is due one cycle later (R253). -/
def State.archDecide (s : State) (a : Nat) (forced : Bool) : State :=
  let p := s.phase a
  if forced || (p.root && (s.otherDies a).all fun d => bit p.dies d) then
    (s.inCycle p.last fun s => (s.otherDies a).foldl (fun s d => s.archMsg d 3 a) s).setPhase a ⟨true, 0, 0, some (s.inTick p.last + 1)⟩
  else s

/-- The local root of arch a is complete in the cycle with count x: the closure follows one cycle later, or the master waits for the other
dies, or this die's arrival leaves (R252, R253). -/
def State.rootComplete (s : State) (a x : Nat) : State :=
  let p := s.phase a
  let s := s.setPhase a { p with root := true, last := max p.last x }
  if !s.cross a then s.setPhase a { s.phase a with ready := some (x + 1) }
  else if s.isMaster then s.archDecide a false
  else s.inCycle x fun s => s.archMsg 0 2 a

/-- Every member has arrived. -/
def State.allArrived (s : State) (a : Nat) : Bool := !(s.members a).isEmpty && (s.members a).all fun c => s.arrived c a

/-- Clear the ARRIVED bit of each member. -/
def State.clearArrived (s : State) (a : Nat) : List Nat → State
  | [] => s
  | c :: r => (if s.arrived c a then s.setC Reg.SYNC_ARRIVED c (s.cf Reg.SYNC_ARRIVED c - 2 ^ a) else s).clearArrived a r

/-- The AWAITs of arch a at its closure in the present cycle: those past their deadline time out, the others are satisfied (R238, R251). -/
def State.endAwaits (s : State) (a : Nat) : State :=
  let x := s.lin
  let mine := s.sync.awaits.filter fun w => decide (w.arch = a)
  mine.foldl (fun s w =>
    match w.deadline with
    | some d =>
      if d < x then s.awaitTimeOut w d
      else { s with sync := { s.sync with awaits := s.sync.awaits.erase w, results := s.sync.results ++ [⟨w.core, true, x⟩] } }
    | none => { s with sync := { s.sync with awaits := s.sync.awaits.erase w, results := s.sync.results ++ [⟨w.core, true, x⟩] } }) s

/-- The closure of arch a on this die: ARRIVED clears, AWAITs are satisfied, and a task that waits for it starts course 0 (R26, R43, R252). -/
def State.closeArch (s : State) (a : Nat) : State :=
  let s := s.clearArrived a (s.members a)
  let s := ((s.wr Reg.ARCH_OPEN 0 a 0).wr Reg.ARCH_ARRIVED_COUNT 0 a 0).bump Reg.ARCH_CLOSURES 0 a 1
  let s := s.setPhase a ArchPhase.init
  let s := (s.members a).foldl (fun s c => s.trace c ⟨s.now, 5, a, s.rd Reg.ARCH_CLOSURES 0 a, 0, 0, s.peer c⟩) s
  let s := s.endAwaits a
  if (decide (s.taskState = 1) || decide (s.taskState = 3)) && s.task.waiting && decide (s.task.arch = some a) && s.ops.context.isNone &&
      s.ops.resume.isNone && decide (s.task.accepted < s.lin) && s.clocksRun then
    { s with task := { s.task with arch := none } }.beginCourse s.tickCycle
  else s

/-- The closure of arch a takes place if it is due by the cycle with count x. -/
def State.closeDue (s : State) (a x : Nat) : State :=
  match (s.phase a).ready with
  | some z => if z ≤ x then s.inCycle z fun s => s.closeArch a else s
  | none => s

/-- ARRIVE (R251). The root is complete 3 cycles after the last arrival issues (R252). -/
def execArrive (c : Nat) (b : Bundle) (s : State) :=
  runSlot .y 7 c b (fun s b =>
    let a := fld (bY b) 6 4
    let s := s.closeDue a (s.issueLin c)
    if !s.member a c then .error (s.syncFault c 3 0x070A a [s.cyc c, a])
    else if s.arrived c a then .error (s.syncFault c 2 0x0709 a [s.cyc c, a])
    else
      let s := s.setC Reg.SYNC_ARRIVED c (s.cf Reg.SYNC_ARRIVED c + 2 ^ a)
      let s := (s.wr Reg.ARCH_OPEN 0 a 1).bump Reg.ARCH_ARRIVED_COUNT 0 a 1
      let s := s.trace c ⟨s.coreStamp c, 4, a, 0, 0, 0, s.peer c⟩
      .ok (if s.allArrived a then s.rootComplete a (s.issueLin c + 3) else s)) s

/-- AWAIT (R251): satisfied at issue unless the core's ARRIVED bit is set. -/
def execAwait (c : Nat) (b : Bundle) (s : State) :=
  runSlot .y 8 c b (fun s b =>
    let a := fld (bY b) 6 4
    let s := s.waitReg c (fld (bY b) 11 7)
    let s := s.closeDue a (s.issueLin c)
    let to_ := fld (s.sval c (fld (bY b) 11 7)) 31 0
    if s.arrived c a then
      let dl := if to_ = 0 then none else some (s.issueLin c + to_)
      let x : ArchWait := ⟨c, a, dl⟩
      .ok (State.holdCore { s with sync := { s.sync with awaits := s.sync.awaits ++ [x] } } c .wait)
    else .ok s) s

/-- A forced closure (R254): in the next cycle a die-local arch or the master closes; another member die completes its local root only. -/
def State.forceArch (s : State) (a : Nat) : State :=
  let s := s.reachCycle (s.tickCycle + 1)
  let s := (s.bumpD Reg.ARCH_FORCED 1).note 0x070D noUnit [a]
  if !s.cross a then s.closeArch a
  else if s.isMaster then (s.archDecide a true).closeArch a
  else s.rootComplete a s.lin

/-! Hand-set (R257). -/

/-- Record a hand-set with its old and new state; DONE sets in the next cycle. -/
def State.handsetDone (s : State) (c kind index old new : Nat) : State :=
  let s := (s.note 0x0710 c [kind, index, old, new]).trace c ⟨s.now, 10, index, new, old, 0, s.peer c⟩
  (s.reachCycle (s.tickCycle + 1)).setD Reg.ARCH_DONE 1

/-- Carry out KIND for INDEX of a live target core in the next cycle; KIND 3 and a dead core are ignored. -/
def State.handset (s : State) (c kind index v : Nat) : State :=
  if !s.coreAlive c ∨ kind = 3 then s
  else
    let s := (s.setD Reg.ARCH_DONE 0).reachCycle (s.tickCycle + 1)
    let w := index % 32
    match kind with
    | 0 =>
      let old := s.tie c index
      let s := s.tieNow c index s.lin (some v)
      s.handsetDone c 0 index old v
    | 1 =>
      let old := b2n (s.windowOpen c w)
      let s := if s.windowOpen c w then s
        else if s.winOk c w then s.openWindow c w
        else s.syncFault c 5 0x0707 w [s.cyc c, w]
      s.handsetDone c 1 w old (b2n (s.windowOpen c w))
    | _ =>
      let old := b2n (s.windowOpen c w)
      (s.closeWindow c w).handsetDone c 2 w old 0

/-! The sync dump (R256). -/

/-- A wait slot as two page words: threshold, and VALID, TAKE, TIE, REQUESTER and REMAIN (R259). -/
def State.slotWords (s : State) (h i : Nat) : Nat × Nat :=
  match s.sync.slots.find? fun x => decide (x.req.home = h) && decide (x.idx = i) with
  | none => (0, 0)
  | some x =>
    let remain := match x.req.deadline with | some d => min (d - s.lin) (2 ^ 32 - 1) | none => 0
    (x.req.thr, 1 + b2n x.req.take * 2 + x.req.tie * 4 + x.req.core * 2 ^ 10 + remain * 2 ^ 21)

/-- The BIND word of local tie k. -/
def State.bindWord (s : State) (c k : Nat) : Nat :=
  s.rd Reg.SYNC_HOME_CORE c k + s.rd Reg.SYNC_HOME_TIE c k * 2 ^ 10 + s.rd Reg.SYNC_BOUND c k * 2 ^ 18

/-- 64-bit words as bytes. -/
def words (l : List Nat) : List Byte := l.flatMap fun x => toBytes 8 x

/-- The dump record of core c; zero for a dead core. -/
def State.dumpCore (s : State) (c : Nat) : List Byte :=
  if s.coreAlive c then
    words ((List.range 256).map (s.tie c)) ++ words ((List.range 256).map fun i => s.winWord c (i / 8) (i % 8)) ++
    ((List.range 256).flatMap fun k => toBytes 4 (s.bindWord c k)) ++
    words ((List.range 16).flatMap fun i => [(s.slotWords c i).1, (s.slotWords c i).2]) ++
    words [s.cf Reg.SYNC_ARRIVED c, s.cf Reg.SYNC_TIE_FAIL0 c, s.cf Reg.SYNC_TIE_FAIL1 c, s.cf Reg.SYNC_TIE_FAIL2 c,
      s.cf Reg.SYNC_TIE_FAIL3 c, s.now] ++ List.replicate 720 0#8
  else List.replicate 6144 0#8

/-- The CTRL word of arch a. -/
def State.archWord (s : State) (a : Nat) : Nat :=
  s.rd Reg.ARCH_CROSS 0 a + s.rd Reg.ARCH_DIES 0 a * 2 + s.rd Reg.ARCH_OPEN 0 a * 2 ^ 10 +
  s.rd Reg.ARCH_ARRIVED_COUNT 0 a * 2 ^ 11 + s.rd Reg.ARCH_CLOSURES 0 a * 2 ^ 22

def State.dumpArch (s : State) (a : Nat) : List Byte :=
  words (s.archWord a :: (List.range 16).map fun j => s.rd Reg.ARCH_MASK 0 (16 * a + j)) ++ List.replicate 120 0#8

/-- GO starts the dump when DUMP_BASE is valid (R256). -/
def State.dumpValid (s : State) : Bool :=
  let b := s.df Reg.ARCH_DUMP_BASE
  decide (b % 4096 = 0) && decide (b + 0x600800 ≤ yardSize)

/-- The dump completes: its image stands in the yard (R256). -/
def execDumpDone (s : State) : Host.Outcome State Fault Refusal :=
  s.clocked fun s =>
    if s.df Reg.ARCH_DUMP_BUSY = 1 then
      let b := s.df Reg.ARCH_DUMP_BASE
      let t := (List.range 1024).foldl (fun t c => t.store (b + 6144 * c) (s.dumpCore c)) s
      let t := (List.range 8).foldl (fun t a => t.store (b + 0x600000 + 256 * a) (s.dumpArch a)) t
      (t.setD Reg.ARCH_DUMP_BUSY 0).owedAnswer 1 []
    else s

end Sys2Proof.Machine
end

