-- ==== Sys2Proof/Machine/Move.lean ====
section
/-!
DEFINITION. The local mover: MOVE, its requests, the writes it forms from their data, its responses and its completion (R198, R200, R213, R248, R249, R297, R298, R313).
The mover of a held core forms nothing; what comes in for it meanwhile waits, and a response that ends a MOVE ends it at once (DESIGN CHOICE,
notes/assumptions/62.md).
-/

namespace Sys2Proof.Machine

/-! Jobs. -/

def State.mapJobs (s : State) (c : Nat) (f : List MoveJob → List MoveJob) : State :=
  s.mapCore c fun k => { k with moves := f k.moves }

/-- The outstanding MOVE of core c with a serial number. -/
def State.job (s : State) (c serial : Nat) : Option MoveJob := (s.core c).moves.find? fun j => decide (j.serial = serial)

/-- Replace an outstanding MOVE. -/
def State.setJob (s : State) (c : Nat) (j : MoveJob) : State :=
  s.mapJobs c fun l => l.map fun x => if x.serial = j.serial then j else x

/-- OUTSTANDING follows the jobs (R313). -/
def State.countJobs (s : State) (c : Nat) : State := s.setC Reg.MOVER_OUTSTANDING c (s.core c).moves.length

/-- Set bit t of SYNC.TIE_FAIL. -/
def State.tieFail (s : State) (c t : Nat) : State :=
  let r := match t / 64 with
    | 0 => Reg.SYNC_TIE_FAIL0 | 1 => Reg.SYNC_TIE_FAIL1 | 2 => Reg.SYNC_TIE_FAIL2 | _ => Reg.SYNC_TIE_FAIL3
  if bit (s.cf r c) (t % 64) then s else s.setC r c (s.cf r c + 2 ^ (t % 64))

/-- A MOVE completes: its failure on the completion tie, and the completion add (R249). -/
def State.finishMove (s : State) (c : Nat) (j : MoveJob) : State :=
  let s := (s.mapJobs c fun l => l.filter fun x => x.serial != j.serial).countJobs c
  if !j.cte then s
  else
    let s := if j.failed then (s.tieFail c j.ct).bumpC Reg.SYNC_MOVE_FAILS c 1 else s
    s.sendHome c j.ct s.lin

def MoveJob.srcHandle (j : MoveJob) : Handle := Handle.ofWords j.src.1 j.src.2
def MoveJob.dstHandle (j : MoveJob) : Handle := Handle.ofWords j.dst.1 j.dst.2

/-- Is the destination remote: written by WRITE packets (R200, R249)? -/
def MoveJob.remote (j : MoveJob) : Bool := decide (j.dstHandle.kind = 4) || decide (j.dstHandle.kind = 5)

/-- TAG of the packets of a MOVE: 1 to 127 by its serial number, with bit 7 set on every WRITE but the last (notes/assumptions/21.md). -/
def MoveJob.tag (j : MoveJob) (last : Bool) : Nat := j.serial % 127 + 1 + if last then 0 else 128

/-! The MOVE instruction. -/

/-- Does a global address lie in the bed range of a core window of a compute die (R213)? -/
def inBedRange (a : Nat) : Bool := decide (gDie a < 8) && (bedOf (gLocal a)).isSome

/-- Do n bytes at a global address touch the bed range of a core window: at the first byte, or past a window base that they contain? -/
def touchesBed (a n : Nat) : Bool :=
  inBedRange a || (List.range 17).any fun i =>
    let w := (a / 0x100000 + 1 + i) * 0x100000
    decide (w < a + n) && inBedRange w

/-- Does a global address lie in a core window of a compute die? The local bits of any other die's address are not interpreted (R21). -/
def inCoreWindow (a : Nat) : Bool :=
  decide (gDie a < 8) && decide (0x10000000000 ≤ gLocal a) && decide (gLocal a < 0x10040000000)

/-- The handles of a MOVE are admitted (R200, R212–R214, R297). A WINDOW handle must name a core window (DESIGN CHOICE,
notes/assumptions/62.md). -/
def moveAdmits (s : State) (c : Nat) (sh dh : Handle) (so d len : Nat) (sig : Bool) : Bool :=
  decide (len % 16 = 0) && decide (so % 16 = 0) && decide (d % 16 = 0) &&
  (match sh.kind with
    | 1 => sh.wide so len
    | 3 | 4 => sh.admits so len
    | _ => false) &&
  (match dh.kind with
    | 1 => dh.wide d len && s.writable c dh
    | 3 => dh.admits d len
    | 4 => dh.admits d len && !touchesBed (dh.base + d) len
    | 5 => dh.admits d len && inCoreWindow dh.base
    | _ => false) &&
  (!sig || decide (dh.kind = 5))

def moveBody (c : Nat) (s : State) (b : Bundle) : Except State State :=
  let x := bX b
  let s := (s.waitReg c (fld x 21 17)).waitReg c (fld x 26 22)
  let so := s.sval c (fld x 21 17)
  let len := fld (s.sval c (fld x 26 22)) 23 0
  let sig := bit x 27
  let cte := bit x 28
  let ct := fld x 36 29
  let h1 := s.handle c (fld x 10 5)
  let h2 := s.handle c (fld x 16 11)
  if !moveAdmits s c h1 h2 (fld so 23 0) (fld so 47 24) len sig then .error (s.issueFault c 4 0x0108 5)
  else if 8 ≤ (s.core c).moves.length then
    let s := if s.cf Reg.MOVER_FAULT c = 1 then s else (s.setC Reg.MOVER_FAULT c 1).setC Reg.MOVER_FAULT_CYCLE c (s.cyc c)
    .error (s.failStop c 0x0900 c [s.cyc c] 2 2)
  else
    let s := s.bumpC Reg.MOVER_MOVES c 1
    if len = 0 then .ok (if cte then s.sendHome c ct (s.issueLin c + 1) else s)
    else
      let w (h : Handle) : Nat × Nat := (h.base, h.extent + h.kind * 2 ^ 40 + h.view * 2 ^ 44 + h.index * 2 ^ 48 + b2n h.assoc * 2 ^ 56)
      let j : MoveJob := ⟨(s.core c).moveSerial, w h1, w h2, fld so 23 0, fld so 47 24, len, sig, cte, ct, false, 0, 0, false, false⟩
      .ok ((s.mapCore c fun k => { k with moves := k.moves ++ [j], moveSerial := k.moveSerial + 1 }).countJobs c)

def execMove (c : Nat) (b : Bundle) (s : State) := runSlot .x 4 c b (moveBody c) s

/-! Forming requests (R298). -/

/-- Destination fields and lane of a packet to a global address: a core window by its core, a die register page of a compute die
by its foreman on the management lane, every other target by its address (R270, R271). -/
def addressed (a : Nat) : Dest × Nat :=
  let l := gLocal a
  if gDie a < 8 ∧ 0x10000000000 ≤ l ∧ l < 0x10040000000 then (⟨gPkg a, gDie a, (l - 0x10000000000) / 0x100000, 0⟩, 0)
  else if gDie a < 8 ∧ 0x20000000000 ≤ l ∧ l < 0x20001000000 then (⟨gPkg a, gDie a, 0, 2⟩, 3)
  else (⟨gPkg a, gDie a, 0, 3⟩, 0)

/-- The global address of a die-local one on this die. -/
def State.globalOf (s : State) (l : Nat) : Nat := s.df Reg.PLACE_PACKAGE_ID * 2 ^ 48 + s.df Reg.PLACE_DIE_ID * 2 ^ 44 + l

/-- Global address of the first source byte of a MOVE. -/
def State.moveSource (s : State) (c : Nat) (j : MoveJob) : Nat :=
  let h := j.srcHandle
  match h.kind with
  | 1 => s.globalOf (windowBase c + h.base + j.srcOff)
  | 3 => s.globalOf (h.base + j.srcOff)
  | _ => h.base + j.srcOff

/-- Request r of a MOVE: a bed read, or a READ_REQ. -/
def State.moveRequest (s : State) (c : Nat) (j : MoveJob) (r : Nat) : State :=
  let n := min 512 (j.len - 512 * r)
  let a := s.moveSource c j + 512 * r
  let s := s.bumpC Reg.MOVER_PACKETS c 1
  if j.srcHandle.kind = 1 then s.request (.moveRead c j.serial r) (gLocal a) n none
  else
    let (d, vl) := addressed a
    s.issuePacket c (s.packet d 0 c { vl := vl, type := 2, len := n, tag := j.tag true, addr := gLocal a })

/-- The local mover of an issuing core begins its next MOVE and forms its requests (R298, R368). -/
def execMoveBegin (c : Nat) (s : State) : Host.Outcome State Fault Refusal :=
  .next <|
    if !s.issuing c || s.stopReaches c s.lin then s
    else match (s.core c).moves.find? fun j => !j.begun with
    | none => s
    | some j =>
      let n := (j.len + 511) / 512
      (List.range n).foldl (fun s r => s.moveRequest c j r) (s.setJob c { j with begun := true, left := n })

/-! Data and responses. -/

/-- A write of a MOVE from the data of request r: a bed or yard write, or a WRITE; the last one carries CREQ and, with SIG, the
window signal (R248, R298). -/
def State.moveWrite (s : State) (c : Nat) (j : MoveJob) (r : Nat) (bs : List Byte) (last : Bool) : State :=
  let h := j.dstHandle
  let off := h.base + j.dstOff + 512 * r
  let s := s.bumpC Reg.MOVER_BYTES c bs.length
  match h.kind with
  | 1 => s.request (.moveWrite c j.serial) (windowBase c + off) bs.length (some bs)
  | 3 => s.request (.moveWrite c j.serial) off bs.length (some bs)
  | 5 =>
    let core := (gLocal h.base - 0x10000000000) / 0x100000
    (s.bumpC Reg.MOVER_PACKETS c 1).issuePacket c
      (s.packet ⟨gPkg h.base, gDie h.base, core, 0⟩ 0 c
        { vl := 0, type := if j.sig && last then 1 else 0, len := bs.length, creq := last, win := true, tag := j.tag last,
          addr := (fld h.base 19 0 + j.dstOff + 512 * r) % 2 ^ 20 + h.index * 2 ^ 20, payload := bs })
  | _ =>
    let (d, vl) := addressed off
    (s.bumpC Reg.MOVER_PACKETS c 1).issuePacket c
      (s.packet d 0 c { vl := vl, type := 0, len := bs.length, creq := last, tag := j.tag last, addr := gLocal off, payload := bs })

/-- The mover of a core that was stopped forms nothing more (R368). -/
def State.moverStopped (s : State) (c : Nat) : Bool := decide (s.run c = 3) || s.stopReaches c s.lin

/-- A MOVE with nothing left to form and nothing awaited completes. -/
def State.settleMove (s : State) (c : Nat) (j : MoveJob) : State :=
  if j.begun && decide (j.left = 0) && decide (j.writes = 0) && !j.closing then s.finishMove c j else s.setJob c j

/-- The mover forms the write of request r's data; after an uncorrectable word or a NACK it has none to form. -/
def State.moveForm (s : State) (c serial r : Nat) (data : Option (List Byte)) : State :=
  match s.job c serial with
  | none => s
  | some j =>
    if s.moverStopped c ∨ j.left = 0 then s
    else
      let last := decide (j.left = 1)
      let j := { j with left := j.left - 1 }
      match data with
      | none => s.settleMove c j
      | some bs =>
        let j := if j.remote then { j with closing := last } else { j with writes := j.writes + 1 }
        (s.setJob c j).moveWrite c j r bs last

/-- The data of request r is in hand, or none is to come: an issuing core's mover forms the write, a core that holds or runs no course keeps the
data until it issues (R46, R47). -/
def State.moveData (s : State) (c serial r : Nat) (data : Option (List Byte)) : State :=
  if s.run c = 1 ∨ data.isNone then s.moveForm c serial r data
  else s.mapCore c fun k => { k with moveIn := k.moveIn ++ [(serial, r, data)] }

/-- The mover of an issuing core takes up the data that has come in, oldest first, until the core holds. -/
def State.flushMoves (s : State) (c : Nat) : Nat → State
  | 0 => s
  | n + 1 =>
    match (s.core c).moveIn with
    | [] => s
    | (serial, r, data) :: l =>
      if s.run c = 1 then ((s.mapCore c fun k => { k with moveIn := l }).moveForm c serial r data).flushMoves c n else s

/-- A bed or yard write of a MOVE has taken effect; a draining core has one write less to wait for (R46). -/
def State.moveWritten (s : State) (c serial : Nat) : State :=
  let s := if s.heldFor c .drain then s.drainNow c else s
  match s.job c serial with
  | none => s
  | some j => if s.moverStopped c then s else s.settleMove c { j with writes := j.writes - 1 }

/-- The MOVE of core c that a response's TAG names. -/
def State.taggedJob (s : State) (c tag : Nat) : Option MoveJob :=
  (s.core c).moves.find? fun j => j.begun && decide (j.serial % 127 + 1 = tag % 128)

/-- Completion tie of the MOVE that a TAG names. -/
def State.taggedTie (s : State) (c tag : Nat) : Nat := match s.taggedJob c tag with | some j => j.ct | none => 0

/-- A NACK reaches core c: counted, recorded with the course cycle, and with NACK_STOP = 1 a fail-stop (R249, R258, R367). -/
def State.nackReceived (s : State) (c ct status : Nat) : State :=
  let s := s.bumpC Reg.SYNC_NACKS_RECEIVED c 1
  if s.cf Reg.SYNC_NACK_STOP c = 1 then s.syncFault c 7 0x0708 ct [status, s.cycleNow c, ct]
  else s.note 0x0708 c [status]

/-- Mark the MOVE that a TAG names as failed. -/
def State.failJob (s : State) (c tag : Nat) : State :=
  match s.taggedJob c tag with
  | none => s
  | some j => s.setJob c { j with failed := true }

/-- A COMPLETE, or the NACK of the last WRITE, ends the MOVE that waits for it (R249). -/
def State.moveClosed (s : State) (c tag : Nat) : State :=
  match s.taggedJob c tag with
  | none => s
  | some j => if j.closing && !s.moverStopped c then s.finishMove c j else s

/-- A NACK returns to core c: it fails its MOVE, which that of the last WRITE also ends, before it may stop the core (R249). -/
def State.moveNack (s : State) (c tag status : Nat) : State :=
  let ct := s.taggedTie c tag
  let s := s.failJob c tag
  (if tag < 128 then s.moveClosed c tag else s).nackReceived c ct status

/-- A READ_RSP returns to core c: its data, or a status that counts as a NACK (R249). -/
def State.moveResponse (s : State) (c tag status addr : Nat) (bs : List Byte) : State :=
  match s.taggedJob c tag with
  | none => if status = 0 then s else s.nackReceived c 0 status
  | some j =>
    let r := (addr - gLocal (s.moveSource c j)) / 512
    if status = 0 then s.moveData c j.serial r (some bs)
    else ((s.failJob c tag).moveData c j.serial r none).nackReceived c j.ct status

end Sys2Proof.Machine
end

