-- ==== Sys2Proof/Machine/Pages.lean ====
section
/-!
DEFINITION. Reading register pages: the common header (R416, R424, R427), the fields of a word (R419), and the values that a read forms.
-/

namespace Sys2Proof.Machine

/-! Pages and headers. -/

/-- A page as its header describes it: TYPE, NAME, END, CP_KEEP and CG_KEEP. -/
structure PageInfo where
  type : Nat
  name : List Nat
  last : Nat
  cp : Nat
  cg : Nat
  deriving DecidableEq, Repr

/-- The core pages (R427); names are ASCII codes. -/
def corePages : List PageInfo :=
  [⟨0x100, [83, 69, 81], 0x88, 0, 0⟩, ⟨0x101, [65, 82, 82, 65, 89], 0x70, 0, 0⟩, ⟨0x102, [65, 67, 67], 0x68, 0, 0⟩,
   ⟨0x103, [78, 85, 77], 0x60, 0, 0⟩, ⟨0x104, [80, 79, 73, 78, 84], 0x418, 0, 0⟩, ⟨0x105, [68, 82, 69, 83, 83], 0x80, 0, 0⟩,
   ⟨0x106, [84, 80, 76], 0x80, 0, 0⟩, ⟨0x107, [73, 83, 83, 85, 69], 0x78, 0, 0⟩, ⟨0x108, [72, 65, 78, 68, 76, 69], 0x1000, 0, 0⟩,
   ⟨0x109, [66, 69, 68], 0x78, 0, 0⟩, ⟨0x10A, [83, 89, 78, 67], 0x900, 0, 0⟩, ⟨0x10B, [77, 79, 86, 69, 82], 0x60, 0, 0⟩]

/-- Die pages 0 to 15 (R424). -/
def diePages : List PageInfo :=
  [⟨0x0, [68, 73, 82], 0xA00, 1, 1⟩, ⟨0x1, [80, 76, 65, 67, 69], 0x60, 1, 1⟩, ⟨0x2, [70, 76, 79, 79, 82, 95, 76, 79], 0x1000, 1, 1⟩,
   ⟨0x3, [70, 76, 79, 79, 82, 95, 72, 73], 0x1000, 1, 1⟩, ⟨0x4, [67, 84, 82, 76], 0x80, 2, 1⟩, ⟨0x5, [89, 65, 82, 68], 0x70, 2, 1⟩,
   ⟨0x6, [65, 82, 67, 72], 0xC00, 2, 1⟩, ⟨0x7, [82, 73, 78, 71], 0x90, 1, 1⟩, ⟨0x8, [82, 69, 66, 79, 78, 68], 0xA00, 1, 1⟩,
   ⟨0x9, [80, 79, 87, 69, 82], 0xA00, 1, 1⟩, ⟨0xA, [67, 77, 68], 0x880, 1, 1⟩, ⟨0xB, [66, 79, 79, 84], 0x1000, 1, 1⟩,
   ⟨0xC, [76, 69, 68, 71, 69, 82], 0x80, 1, 1⟩, ⟨0xD, [77, 65, 82, 75], 0x3C0, 1, 1⟩, ⟨0xE, [65, 84, 84, 69, 83, 84], 0xA40, 1, 1⟩,
   ⟨0xF, [67, 69, 82, 84], 0x1000, 1, 1⟩]

/-- The header of die page n, where it has one. -/
def diePage (n : Nat) : Option PageInfo :=
  if n < 16 then diePages[n]?
  else if n < 24 then some ⟨0x10, [76, 73, 78, 75], 0x80, 1, 1⟩
  else if n = 24 then some ⟨0x18, [68, 69, 66, 85, 71], 0x880, 2, 1⟩
  else if 64 ≤ n ∧ n < 128 then some ⟨0x40, [89, 82, 69, 80], 0x1000, 1, 1⟩
  else none

/-- Die pages that exist (R424). -/
def diePageDefined (n : Nat) : Bool :=
  decide (n ≤ 24) || (decide (64 ≤ n) && decide (n < 256)) || (decide (512 ≤ n) && decide (n < 1536))

/-- INSTANCE of a die page. -/
def instanceOf (n : Nat) : Nat := if 16 ≤ n ∧ n < 24 then n - 16 else if 64 ≤ n ∧ n < 128 then n - 64 else 0

/-- ASCII codes as a word, the first in byte 0. -/
def nameWord (l : List Nat) : Nat := l.foldr (fun x n => x + 256 * n) 0

/-- A header word. -/
def State.headerWord (s : State) (core : Bool) (u page off : Nat) (p : PageInfo) : Nat :=
  match off / 8 with
  | 0 => p.type + 2 ^ 16 + (if core then 0 else instanceOf page) * 2 ^ 24 + page * 2 ^ 32 + b2n core * 2 ^ 44 + (if core then u else 0) * 2 ^ 45
  | 1 => nameWord p.name
  | 2 => p.last + (if core then groupOf u else 79) * 2 ^ 16 + p.cp * 2 ^ 24 + p.cg * 2 ^ 26 + b2n core * 2 ^ 28
  | 3 => s.rd (Reg.refused core page) u 0
  | _ => 0

/-! The fields of a word. -/

/-- Copy of a field whose register starts at an offset within the page. -/
def Row.copyAt (r : Row) (o : Nat) : Option Nat :=
  if r.count = 1 then (if o = r.off then some 0 else none)
  else if r.off ≤ o ∧ (o - r.off) % r.stride = 0 ∧ (o - r.off) / r.stride < r.count then some ((o - r.off) / r.stride)
  else none

/-- The fields of the 8-byte word at an offset of a page: field, copy and position of its lowest bit in the word. -/
def wordFields (rows : List Row) (o : Nat) : List (Row × Nat × Nat) :=
  rows.flatMap fun r => (List.range 8).filterMap fun j => (r.copyAt (o + j)).map fun i => (r, i, 8 * j + r.lsb)

/-- Unit of a field: the core, or the page's number among those that carry the field. -/
def Row.unitOf (r : Row) (u page : Nat) : Nat := if r.core then u else page - r.page

/-! Values that a read forms. -/

/-- The metadata word of the element that ACC.DBG_SEL selects (R129). -/
def State.debugMeta (s : State) (c : Nat) : Nat :=
  let a := s.cf Reg.ACC_DBG_ARRAY c
  let n := s.cf Reg.ACC_DBG_ELEMENT c
  if s.df Reg.DEBUG_MODE = 1 ∧ s.arrayGood c a then ((s.core c).elem a (s.cf Reg.ACC_DBG_ENTRY c) (n / 16) (n % 16)).md.toNat else 0

/-- WINDOW_LOSS: bit 12a + e is set while entry e of array a holds an element with LOSS (R129). -/
def State.windowLoss (s : State) (c : Nat) : Nat :=
  ((List.range 48).map fun n => b2n ((s.core c).acc.any fun x => decide (x.1 / 256 = n) && x.2.loss) * 2 ^ n).foldl (· + ·) 0

/-- The template segment that TPL.IMG selects. -/
def State.imageWindow (s : State) (c : Nat) : Nat := (s.core c).segment (s.cf Reg.TPL_IMG_BANK c) (s.cf Reg.TPL_IMG_SEG c)

/-- PRESENT word j of the DIR page. -/
def presentWord (j : Nat) : Nat := ((List.range 64).map fun i => b2n (diePageDefined (64 * j + i)) * 2 ^ i).foldl (· + ·) 0

/-- Counter of the cycles of a hold that is still open (R48). -/
def openHoldRow : HoldCause → Option Row
  | .wait => some Reg.SEQ_WAIT_HOLD
  | .fetch => some Reg.SEQ_FETCH_HOLD
  | .credit => some Reg.SEQ_CREDIT_HOLD
  | .drain => some Reg.SEQ_DRAIN_HOLD
  | _ => none

/-- A hold counter with the cycles that core c has been held so far. -/
def State.heldCount (s : State) (c : Nat) (r : Row) : Nat :=
  let q := (s.core c).seq
  let n := s.lin - s.coreLin c - 1
  if s.run c = 2 ∧ q.cause.bind openHoldRow = some r then
    min (s.cf r c + (if q.cause = some .drain ∧ s.drained c then min n (q.drainAt - q.cycle) else n)) (2 ^ r.width - 1)
  else s.cf r c

/-- Claimed hod-queue entries, and those whose tile is final. -/
def State.hodCounts (s : State) (c : Nat) : Nat × Nat :=
  let y := s.cycleNow c
  let l := (s.core c).hod.filter fun x => match x.release with | some r => decide (y < r) | none => true
  (l.length, (l.filter fun x => decide (x.final ≤ y)).length)

/-- ARRAY.REPAIR: the fused repair of the listed arrays, 0 for the others (R107). -/
def State.shownRepair (s : State) (c : Nat) : Nat :=
  ((List.range 4).map fun a => if s.arrayGood c a then fld (s.cf Reg.ARRAY_REPAIR c) (16 * a + 15) (16 * a) * 2 ^ (16 * a) else 0).foldl (· + ·) 0

/-- The value a field reads as. -/
def State.field (s : State) (r : Row) (u i : Nat) : Nat :=
  if r.acc = .wo then 0
  else if r.core then
    if r.page = 10 ∧ 0x800 ≤ r.off then
      (if r.off = 0x800 then (s.slotWords u i).1 else fld (s.slotWords u i).2 (r.lsb + r.width - 1) r.lsb)
    else if r = Reg.SYNC_SLOTS_USED then s.slotsUsed u
    else if r = Reg.ARRAY_REPAIR then s.shownRepair u
    else if r = Reg.TPL_IMG_LO then s.imageWindow u % 2 ^ 64
    else if r = Reg.TPL_IMG_HI then s.imageWindow u / 2 ^ 64 % 2 ^ 33
    else if r = Reg.ACC_WINDOW_LOSS then s.windowLoss u
    else if r = Reg.ACC_DBG_META then s.debugMeta u
    else if r = Reg.DRESS_HOD_COUNT then (s.hodCounts u).1
    else if r = Reg.DRESS_HOD_FINAL then (s.hodCounts u).2
    else if r = Reg.DRESS_COUPLING then b2n (s.queueCoupled u)
    else if r ∈ [Reg.SEQ_WAIT_HOLD, Reg.SEQ_FETCH_HOLD, Reg.SEQ_CREDIT_HOLD, Reg.SEQ_DRAIN_HOLD] then s.heldCount u r
    else if r ∈ [Reg.TPL_SHADOW_READY, Reg.TPL_LOADS, Reg.TPL_ACTIVE, Reg.TPL_SWAPS] then (s.bankEvents u (s.cycleNow u)).rd r u i
    else s.rd r u i
  else if r = Reg.CMD_PROGRESS ∧ i = 0 then s.df Reg.CTRL_COURSE_NUMBER
  else if r = Reg.DIR_PRESENT then presentWord i
  else if r = Reg.DEBUG_DRIVING then b2n (!s.dbg.drives.isEmpty)
  else s.rd r u i

/-- The value of a word that a field table describes. -/
def State.tableWord (s : State) (rows : List Row) (u page o : Nat) : Nat :=
  ((wordFields rows o).map fun x => s.field x.1 (x.1.unitOf u page) x.2.1 * 2 ^ x.2.2).foldl (· + ·) 0

/-- A word of core c's page n at an offset. -/
def State.coreWord (s : State) (c n o : Nat) : Nat :=
  match corePages[n]? with
  | none => 0
  | some p => if o < 0x40 then s.headerWord true c n o p else s.tableWord (Reg.corePage n) c n o

/-- A word of die page n: a header, a ledger record, a STAGE word, which reads as zero, or fields. -/
def State.dieWord (s : State) (n o : Nat) : Nat :=
  if 128 ≤ n ∧ n < 256 then
    let a := (n - 128) * 4096 + o
    s.slotWord (a / 64) (a % 64 / 8)
  else match diePage n with
    | none => 0
    | some p => if o < 0x40 then s.headerWord false 0 n o p else s.tableWord (Reg.diePage n) 0 n o

/-! Where a register access goes. -/

/-- A register page by its address: a core's page or a die page, with the offset in it. -/
inductive PageAt where
  | core (c n o : Nat)
  | die (n o : Nat)
  deriving DecidableEq, Repr

/-- The defined register page at a die-local address (R22, R23). -/
def pageAt (a : Nat) : Option PageAt :=
  if 0x10000000000 ≤ a ∧ a < 0x10040000000 then
    let w := (a - 0x10000000000) % 0x100000
    let n := (w - 0xE0000) / 0x1000
    if 0xE0000 ≤ w ∧ n < 12 then some (.core ((a - 0x10000000000) / 0x100000) n (w % 0x1000)) else none
  else if 0x20000000000 ≤ a ∧ a < 0x20001000000 then
    let n := (a - 0x20000000000) / 0x1000
    if diePageDefined n then some (.die n (a % 0x1000)) else none
  else none

/-- The register word at a page address. -/
def State.pageWord (s : State) : PageAt → Nat
  | .core c n o => s.coreWord c n o
  | .die n o => s.dieWord n o

/-- The core of a page. -/
def PageAt.coreOf : PageAt → Option Nat
  | .core c _ _ => some c
  | .die _ _ => none

/-- Slots whose records a read of a die page word touches are read out under R384. -/
def State.touchWord (s : State) : PageAt → State
  | .die n o => if 128 ≤ n ∧ n < 256 then s.readSlot (((n - 128) * 4096 + o) / 64) else s
  | _ => s

end Sys2Proof.Machine
end

