-- ==== Sys2Proof/Machine/Context.lean ====
section
/-!
DEFINITION. Context save and restore: the image of a core (R60, R361, R362), its transfer by the rebond movers (R359), and the checks of a restore (R363).
-/

namespace Sys2Proof.Machine

/-! The layout (R361). -/

/-- What an image holds: its arrays, and whether accumulators and bed are present. -/
structure CtxShape where
  arrays : Nat
  acc : Bool
  bed : Bool
  deriving DecidableEq, Repr

/-- Sizes of the ten sections; 0 for an absent one. -/
def CtxShape.sizes (x : CtxShape) : List Nat :=
  let n := good x.arrays
  [4096, 2048, 2048, 2048, 32768, 16384, 8192 + 8192 * n, 131072, if x.acc then 61440 * n else 0, if x.bed then bedSize else 0]

/-- Start of section k. -/
def CtxShape.start (x : CtxShape) (k : Nat) : Nat := (x.sizes.take k).foldl (· + ·) 0

def CtxShape.length (x : CtxShape) : Nat := x.start 10

/-- OFFSET of section k; 0 for an absent section. -/
def CtxShape.offset (x : CtxShape) (k : Nat) : Nat := if x.sizes.getD k 0 = 0 then 0 else x.start k

/-- Image length of a core for a save (R351, R361). -/
def State.ctxShape (s : State) (c : Nat) (acc bed : Bool) : CtxShape := ⟨s.arrays c, acc, bed⟩

/-! The sections of a save. -/

/-- Bytes of t0–t7 and of the hod-queue entries (R147, R361). -/
def Core.tileBytes (k : Core) (t n : Nat) : List Byte :=
  (List.range (n * 1024)).flatMap fun i => toBytes 4 (k.laneNow (t + i / 1024) (i % 1024 / 64) (i % 64)).toNat

/-- n bytes of a feed buffer. -/
def Core.feedBytes (k : Core) (buf n : Nat) : List Byte := (List.range n).map fun i => Sparse.get 0#8 k.fbuf (8192 * buf + i)

/-- The arrays named by a mask, ascending. -/
def arrayList (m : Nat) : List Nat := (List.range 4).filter (bit m)

/-- The feed buffers section. -/
def Core.feedSection (k : Core) (arrays : Nat) : List Byte :=
  k.feedBytes 0 8192 ++ (arrayList arrays).flatMap fun a => k.feedBytes (1 + 2 * a) 4096 ++ k.feedBytes (2 + 2 * a) 4096

/-- The keystone image of entry e of array a (R124). -/
def Core.entryBytes (k : Core) (a e : Nat) : List Byte :=
  ((List.range 256).flatMap fun n => toBytes 16 (k.elem a e (n / 16) (n % 16)).v.toNat) ++
  ((List.range 256).flatMap fun n => toBytes 4 (k.elem a e (n / 16) (n % 16)).md.toNat)

/-- The accumulators section. -/
def Core.accSection (k : Core) (arrays : Nat) : List Byte :=
  (arrayList arrays).flatMap fun a => (List.range 12).flatMap fun e => k.entryBytes a e

/-- The core register pages section: pages 0 to 31, zeros for undefined ones (R427). -/
def State.pageSection (s : State) (c : Nat) : List Byte :=
  (List.range 32).flatMap fun n => (List.range 512).flatMap fun o => toBytes 8 (s.coreWord c n (8 * o))

/-- A hint slot as a word of the sequencer section. -/
def hintWord : Option HintSlot → Nat
  | some h => h.first % 2 ^ 40 + h.span % 2 ^ 12 * 2 ^ 40 + h.level % 64 * 2 ^ 52
  | none => 0

/-- The claimed hod-queue entries: occupancy and entry numbers. -/
def Core.hodWord (k : Core) : Nat :=
  let l := k.hod.filter fun x => x.release.isNone
  l.length + ((List.range 4).map fun i => match l[i]? with | some x => x.entry * 4 ^ i * 8 | none => 0).foldl (· + ·) 0

/-- The sequencer section without its CRC words (R362). -/
def State.seqSection (s : State) (c : Nat) (x : CtxShape) (wopen : Nat) : List Byte :=
  let k := s.core c
  let flags := b2n x.acc + 2 * b2n x.bed + 4 * s.cf Reg.DRESS_BEYLER c + 8 * b2n (decide (good x.arrays < 4))
  toBytes 4 0x58435A51 ++ toBytes 2 1 ++ toBytes 1 0xA1 ++ toBytes 1 flags ++ toBytes 8 x.arrays ++
  toBytes 8 (s.peer c + s.df Reg.RING_CURRENT * 2 ^ 32) ++ toBytes 8 s.now ++ toBytes 8 (s.df Reg.CTRL_COURSE_NUMBER) ++
  toBytes 4 x.length ++ toBytes 4 0 ++ ((List.range 10).flatMap fun i => toBytes 4 (x.offset i)) ++ List.replicate 40 0#8 ++
  toBytes 2 (s.cf Reg.SEQ_ENTRY c) ++ toBytes 1 (s.cf Reg.DRESS_VL c) ++ toBytes 1 (s.cf Reg.DRESS_RL c) ++
  toBytes 1 (s.cf Reg.TPL_ACTIVE c) ++ toBytes 3 0 ++ (k.lc.toList.flatMap fun v => toBytes 4 v.toNat) ++
  toBytes 8 (hintWord k.hint0) ++ toBytes 8 (hintWord k.hint1) ++ toBytes 4 wopen ++ toBytes 2 k.hodWord ++
  List.replicate 82 0#8 ++ (k.sreg.toList.flatMap fun v => toBytes 8 v.toNat) ++ List.replicate 3584 0#8

/-- Put the CRC words in. -/
def withCrcs (sections : List (List Byte)) : List Byte :=
  let crcs := sections.flatMap fun l => toBytes 4 (if l.isEmpty then 0 else crc32c l)
  let img := sections.flatMap id
  img.take 0x58 ++ crcs ++ img.drop 0x80

/-- OPEN of every window of core c. -/
def State.openMask (s : State) (c : Nat) : Nat := ((List.range 32).map fun w => b2n (s.windowOpen c w) * 2 ^ w).foldl (· + ·) 0

/-- The foreman closes every window of a core before it reads them (R255). -/
def State.shutAll (s : State) (c : Nat) : State := (List.range 32).foldl (fun s w => s.shutWindow c w) s

/-- The image of core c, with the bytes read from its bed. -/
def State.coreImage (s : State) (c : Nat) (x : CtxShape) (wopen : Nat) (bed : List Byte) : List Byte :=
  let k := s.core c
  let handle (h : Nat) : List Nat := (List.range 4).map fun i => s.coreWord c 8 (0x800 + 32 * h + 8 * i)
  withCrcs [s.seqSection c x wopen, words ((List.range 64).flatMap handle),
    words ((List.range 256).map fun i => s.winWord c (i / 8) (i % 8)), words ((List.range 256).map (s.tie c)),
    k.tileBytes 0 8, k.tileBytes 8 4, k.feedSection x.arrays, s.pageSection c,
    if x.acc then k.accSection x.arrays else [], bed]

/-! Progress of the operation. -/

/-- The core image that mover g works on: the first of its group that is not done. -/
def Context.job (x : Context) (g : Nat) : Option CtxCore := x.cores.find? fun k => decide (groupOf k.core = g) && !k.done

/-- Change a core image of the operation. -/
def State.setImage (s : State) (k : CtxCore) : State :=
  match s.ops.context with
  | none => s
  | some x => { s with ops := { s.ops with
      context := some { x with cores := x.cores.map fun y => if y.core = k.core then k else y } } }

def State.noContext (s : State) : State := State.unpend { s with ops := { s.ops with context := none, resume := none } } 5

/-- The context operation ends in a state. -/
def State.ctxEnd (s : State) (st : Nat) : State := s.noContext.setOp 5 st 0

/-- A save or restore loses a packet: a save leaves the task suspended in place, a restore fails it (R359). -/
def State.ctxTransfer (s : State) (x : Context) : State :=
  let s := s.ctxEnd 7
  if x.save then s else s.failTask 8

/-- A save is complete: the groups of the participants power off when OFF was asked for (R354). -/
def State.saveDone (s : State) (x : Context) : State :=
  let s := s.ctxEnd 5
  if !x.off then s
  else
    let gs := (List.range 64).filter fun g => s.task.parts.any fun c => decide (groupOf c = g)
    let s := gs.foldl State.powerOff s
    { s with task := { s.task with away := true } }

/-- A restore is complete: the start condition counts from here (R356). -/
def State.restoreDone (s : State) : State :=
  let arch := match s.ops.resume with | some r => r.arch | none => none
  let s := s.ctxEnd 5
  { s with task := { s.task with arch := arch, accepted := s.lin, away := false } }

/-- A core image is done: the operation ends, is cancelled, suspended, or goes on (R353). -/
def State.imageEnd (s : State) (k : CtxCore) : State :=
  let s := (s.setImage { k with done := true, waiting := false, image := [] }).bump Reg.CMD_PROGRESS 0 5 1
  match s.ops.context with
  | none => s
  | some x =>
    if s.ops.cancelling.contains 5 then
      let s := s.ctxEnd 6
      if x.save then s else s.failTask 7
    else if x.cores.all fun y => y.done then (if x.save then s.saveDone x else s.restoreDone)
    else if s.ops.suspending.contains 5 then (s.unpend 5).setOp 5 4 0
    else s

/-! Saving. -/

/-- The accumulators that a save reads: an uncorrectable codeword stops the core (R219), a corrected row counts (R218). -/
def State.saveAcc (s : State) (c : Nat) (x : CtxShape) : State × Bool :=
  let k := s.core c
  let l := if x.acc then (k.accMarks.map Prod.fst).filter fun w => bit x.arrays (w / 1280 / 12) else []
  match l.find? fun w => decide (k.accFinds w = 2) with
  | some w => (s.failStop c 0x0601 c [2, w / 5 / 256, w / 5 % 256] 3 5, false)
  | none => (s.bumpC Reg.BED_CORR_ACC c (((l.filter fun w => decide (k.accFinds w = 1)).map (· / 80)).eraseDups.length), true)

/-- The bed that a save reads, as an external requester (R204, R218, R219, R359). -/
def State.saveBed (s : State) (c : Nat) (x : CtxShape) : State × Option (List Byte) :=
  if x.bed then readBy (fun s o n => s.extRead (windowBase c + o) n) 512 769 s 0 bedSize else (s, some [])

/-- The image of a core is taken; what cannot be read fails the save. -/
def State.saveBegin (s : State) (x : Context) (k : CtxCore) : State :=
  let shape := s.ctxShape k.core x.acc x.bed
  let (s, ok) := s.saveAcc k.core shape
  if !ok then s.ctxTransfer x
  else match s.saveBed k.core shape with
  | (s, none) => s.ctxTransfer x
  | (s, some bed) =>
    let m := s.openMask k.core
    let s := s.shutAll k.core
    s.setImage { k with begun := true, image := s.coreImage k.core shape m bed }

/-- The next 512 bytes of an image leave as a WRITE; the last one carries CREQ. -/
def State.savePiece (s : State) (x : Context) (g : Nat) (k : CtxCore) : State :=
  let a := x.base + k.core * x.stride + k.next
  let last := decide (k.image.length ≤ k.next + 512)
  let bs := (k.image.drop k.next).take 512
  let (d, vl) := addressed a
  let s := s.form (s.packet d 1 g { vl := vl, type := 0, len := bs.length, creq := last, addr := gLocal a, payload := bs })
  s.setImage { k with next := k.next + 512, waiting := last }

/-! Restoring. -/

/-- What the header of an image names. -/
def shapeOf (img : List Byte) : CtxShape :=
  let flags := ofBytes ((img.drop 7).take 1)
  ⟨ofBytes ((img.drop 8).take 1) % 16, bit flags 0, bit flags 1⟩

def imgNum (img : List Byte) (off n : Nat) : Nat := ofBytes ((img.drop off).take n)

/-- Check 1 of R363. -/
def ctxFormat (img : List Byte) : Bool :=
  decide (imgNum img 0 4 = 0x58435A51) && decide (imgNum img 4 2 = 1) && decide (imgNum img 6 1 = 0xA1)

/-- Section k of an image. -/
def section_ (img : List Byte) (x : CtxShape) (k : Nat) : List Byte := (img.drop (x.start k)).take (x.sizes.getD k 0)

/-- CRC of section k: the sequencer's own is taken with the CRC words zero. -/
def ctxCrc (img : List Byte) (x : CtxShape) (k : Nat) : Nat :=
  let l := section_ img x k
  if l.isEmpty then 0
  else if k = 0 then crc32c (l.take 0x58 ++ List.replicate 40 0#8 ++ l.drop 0x80) else crc32c l

/-- The number of the first check that an image fails at core c, 1 to 5 in the order of R363. -/
def State.ctxCheck (s : State) (c : Nat) (img : List Byte) : Option Nat :=
  let x := shapeOf img
  let flags := imgNum img 7 1
  if !ctxFormat img then some 1
  else if (List.range 10).any fun k => decide (imgNum img (0x58 + 4 * k) 4 ≠ ctxCrc img x k) then some 2
  else if (arrayList x.arrays).any fun a => !s.arrayGood c a then some 3
  else if bit flags 2 ≠ decide (s.cf Reg.DRESS_BEYLER c = 1) then some 4
  else if imgNum img 0x28 4 ≠ x.length ∨ ((List.range 10).any fun k => decide (imgNum img (0x30 + 4 * k) 4 ≠ x.offset k)) ∨
      bit flags 3 ≠ decide (good x.arrays < 4) then some 5
  else none

/-- A number of a section. -/
def State.restoreWord (s : State) (c : Nat) (skip : Row → Bool) (rows : List Row) (o v : Nat) : State :=
  (wordFields rows o).foldl (fun s x => if skip x.1 then s else s.wr x.1 c x.2.1 (fld v (x.2.2 + x.1.width - 1) x.2.2)) s

/-- Fields of core pages that a restore does not write (R181, R228, R363), and fields that a read forms. -/
def notRestored (r : Row) : Bool :=
  r ∈ [Reg.ARRAY_REPAIR, Reg.BED_SPARE_LO, Reg.BED_SPARE_HI, Reg.TPL_LOADING, Reg.TPL_SHADOW_READY, Reg.TPL_IMG_LO, Reg.TPL_IMG_HI,
    Reg.ACC_DBG_META, Reg.ACC_WINDOW_LOSS, Reg.DRESS_HOD_COUNT, Reg.DRESS_HOD_FINAL, Reg.DRESS_COUPLING, Reg.SYNC_SLOTS_USED] ||
  (decide (r.page = 10) && decide (0x800 ≤ r.off))

/-- The saved core pages. -/
def State.restorePages (s : State) (c : Nat) (l : List Byte) : State :=
  (List.range 12).foldl (fun s n => (List.range 512).foldl (fun s o =>
    if o < 8 then s else s.restoreWord c notRestored (Reg.corePage n) (8 * o) (imgNum l (4096 * n + 8 * o) 8)) s) s

/-- A sparse store from a list, keys from 0. -/
def sparseOf {α : Type} [DecidableEq α] (d : α) (base : Nat) (l : List α) : Sparse α :=
  (l.zipIdx base).filterMap fun x => if x.1 = d then none else some (x.2, x.1)

/-- 64-bit words of a byte list. -/
def wordsIn (l : List Byte) (n : Nat) : List Nat := (List.range n).map fun i => imgNum l (8 * i) 8

/-- A hint slot from its word; SPAN 0 is an empty slot. -/
def hintOfWord (v : Nat) : Option HintSlot :=
  if fld v 51 40 = 0 then none else some ⟨fld v 39 0, fld v 51 40, fld v 57 52⟩

/-- Feed-buffer bytes from the section. -/
def feedOfSection (arrays : Nat) (l : List Byte) : Sparse Byte :=
  let banks := ((arrayList arrays).zipIdx).flatMap fun x =>
    sparseOf 0#8 (8192 * (1 + 2 * x.1)) ((l.drop (8192 + 8192 * x.2)).take 4096) ++
    sparseOf 0#8 (8192 * (2 + 2 * x.1)) ((l.drop (12288 + 8192 * x.2)).take 4096)
  sparseOf 0#8 0 (l.take 8192) ++ banks

/-- Word i of a window descriptor without its reserved bits (R10, R244). -/
def windowWordOf (i v : Nat) : Nat :=
  match i with
  | 0 => fld v 1 0 + fld v 15 8 * 2 ^ 8 + fld v 50 32 * 2 ^ 32
  | 1 => fld v 19 0
  | 2 => v
  | 3 => fld v 31 0
  | 4 => fld v 30 0 + fld v 52 32 * 2 ^ 32
  | 5 => v
  | _ => 0

/-- Keystone elements from the section, the reserved metadata bits zero (R10, R114). -/
def accOf (arrays : Nat) (l : List Byte) : Sparse Elem :=
  ((arrayList arrays).zipIdx).flatMap fun x => (List.range 12).flatMap fun e => (List.range 256).filterMap fun n =>
    let b := 61440 * x.2 + 5120 * e
    let el : Elem := ⟨BitVec.ofNat 128 (imgNum l (b + 16 * n) 16), BitVec.ofNat 32 (imgNum l (b + 4096 + 4 * n) 4) &&& 0xFFFF003F#32⟩
    if el = Elem.zero then none else some (accKey x.1 e (n / 16) (n % 16), el)

/-- Everything of a core that the always-present sections hold. -/
def restoreCore (k : Core) (img : List Byte) (x : CtxShape) : Core :=
  let q := section_ img x 0
  let hod := imgNum q 0xAC 2
  let lanes := (List.range 12288).map fun i => BitVec.ofNat 32 (imgNum (section_ img x 4 ++ section_ img x 5) (4 * i) 4)
  { Core.init with
    sreg := Vector.ofFn fun i => BitVec.ofNat 64 (imgNum q (0x100 + 8 * i.val) 8)
    lc := Vector.ofFn fun i => BitVec.ofNat 32 (imgNum q (0x88 + 4 * i.val) 4)
    segs := k.segs, beylerImage := k.beylerImage
    acc := if x.acc then accOf x.arrays (section_ img x 8) else k.acc
    accMarks := if x.acc then [] else k.accMarks
    fbuf := feedOfSection x.arrays (section_ img x 6)
    tile := sparseOf 0#32 0 lanes
    hod := (List.range (hod % 8)).map fun i => ⟨fld hod (2 * i + 4) (2 * i + 3), 0, none⟩
    hint0 := hintOfWord (imgNum q 0x98 8), hint1 := hintOfWord (imgNum q 0xA0 8)
    moveSerial := k.moveSerial
    ties := sparseOf 0 0 (wordsIn (section_ img x 3) 256)
    windows := sparseOf 0 0 ((wordsIn (section_ img x 2) 256).zipIdx.map fun y => windowWordOf (y.2 % 8) y.1) }

/-- Write a checked image into core c (R363). -/
def State.restoreImage (s : State) (c : Nat) (img : List Byte) : State :=
  let x := shapeOf img
  let q := section_ img x 0
  let s := s.mapCore c fun k => restoreCore k img x
  let s := s.restorePages c (section_ img x 7)
  let s := (List.range 256).foldl (fun s i => s.restoreWord c notRestored Reg.pageHandle (0x800 + 8 * i) (imgNum (section_ img x 1) (8 * i) 8)) s
  let s := ((s.setC Reg.SEQ_ENTRY c (imgNum q 0x80 2)).setC Reg.DRESS_VL c (imgNum q 0x82 1)).setC Reg.DRESS_RL c (imgNum q 0x83 1)
  let s := (s.setC Reg.TPL_ACTIVE c (imgNum q 0x84 1)).setC Reg.TPL_SHADOW_READY c 0
  let s := s.setD Reg.CTRL_COURSE_NUMBER (imgNum q 0x20 5)
  let s := if x.bed then s.store (windowBase c) (section_ img x 9) else s
  (List.range 32).foldl (fun s w => s.setWin c w 0 (putFld (s.winWord c w 0) 0 0 (fld (imgNum q 0xA8 4) w w))) s

/-- BEYLER of a participant follows its image's FLAGS, with the template image it selects (R356). -/
def State.beylerOf (s : State) (c : Nat) (img : List Byte) : State :=
  let v := fld (imgNum img 7 1) 2 2
  let s := (s.setC Reg.DRESS_BEYLER c v).setC Reg.TPL_LOADING c 1
  s.imageDone c

/-- A refused restore fails the task (R363). -/
def State.ctxRefused (s : State) (c check : Nat) : State := ((s.note 0x0B07 c [check]).ctxEnd 7).failTask 7

/-- The image of a core is complete: it is checked and written. -/
def State.restoreEnd (s : State) (k : CtxCore) : State :=
  match s.ctxCheck k.core k.image with
  | some n => s.ctxRefused k.core n
  | none => (s.restoreImage k.core k.image).imageEnd k

/-- Data of a restore's READ_REQ at mover g. -/
def State.ctxData (s : State) (g : Nat) (data : List Byte) : State :=
  match s.ops.context with
  | none => s
  | some x =>
    match x.job g with
    | none => s
    | some k =>
      if x.save ∨ !k.waiting then s
      else
        let k := { k with image := k.image ++ data, waiting := false }
        let s := if k.next = 512 then s.beylerOf k.core k.image else s
        if !ctxFormat k.image then s.ctxRefused k.core 1
        else if (shapeOf k.image).length ≤ k.next then (s.setImage k).restoreEnd k
        else s.setImage k

/-- The next READ_REQ of a restore. -/
def State.restorePiece (s : State) (x : Context) (g : Nat) (k : CtxCore) : State :=
  let a := x.base + k.core * x.stride + k.next
  let (d, vl) := addressed a
  let s := s.form (s.packet d 1 g { vl := vl, type := 2, len := 512, addr := gLocal a })
  s.setImage { k with next := k.next + 512, begun := true, waiting := true }

/-! Responses. -/

/-- A COMPLETE reaches mover g: the image whose last packet it answers is complete. -/
def State.ctxComplete (s : State) (g : Nat) : State :=
  match s.ops.context with
  | none => s
  | some x =>
    match x.job g with
    | some k => if x.save ∧ k.waiting then s.imageEnd k else s
    | none => s

/-- A NACK or a late response at mover g. -/
def State.ctxNack (s : State) (g : Nat) : State :=
  match s.ops.context with
  | none => s
  | some x => if (x.job g).isSome then s.ctxTransfer x else s

/-- Mover g sends or fetches the next piece of a core image. -/
def execContextTransfer (g : Nat) (s : State) : Host.Outcome State Fault Refusal :=
  s.clocked fun s =>
    match s.ops.context with
    | none => s
    | some x =>
      match x.job g with
      | none => s
      | some k =>
        if !(s.opState 5 = 2 ∨ s.opState 5 = 3) ∨ k.waiting then s
        else if x.save then (if k.begun then s.savePiece x g k else s.saveBegin x k)
        else s.restorePiece x g k

end Sys2Proof.Machine
end

