-- ==== Sys2Proof/Machine/Rebond.lean ====
section
/-!
DEFINITION. Rebonds: the descriptor and shard maps (R301–R303), the packet stream (R304–R306), responses (R307, R308), and suspend, resume and cancel (R309–R311).
-/

namespace Sys2Proof.Machine

/-! Maps (R302). -/

/-- Indices below n that a block-cyclic map with blocks of b over p owners gives to owner q. -/
def localCount (n b p q : Nat) : Nat :=
  let blocks := (n + b - 1) / b
  let mine := (blocks + p - 1 - q) / p
  if 0 < mine ∧ (blocks - 1) % p = q then mine * b - (blocks * b - n) else mine * b

/-- The global index of local index l at owner q. -/
def globalIndex (b p q l : Nat) : Nat := (l / b * p + q) * b + l % b

/-- Owner and local row and column of element (i, j). -/
def ShardMap.place (m : ShardMap) (i j : Nat) : Nat × Nat × Nat :=
  (i / m.br % m.pr * m.pc + j / m.bc % m.pc, i / m.br / m.pr * m.br + i % m.br, j / m.bc / m.pc * m.bc + j % m.bc)

/-- Local rows and columns of an owner. -/
def ShardMap.lrows (m : ShardMap) (o : Nat) : Nat := localCount m.rows m.br m.pr (o / m.pc)
def ShardMap.lcols (m : ShardMap) (o : Nat) : Nat := localCount m.cols m.bc m.pc (o % m.pc)

/-- Fields of an owner entry. -/
def ShardMap.base (m : ShardMap) (o : Nat) : Nat := (m.owners.getD o (0, 0)).1
def ShardMap.attr (m : ShardMap) (o : Nat) : Nat := (m.owners.getD o (0, 0)).2
def ShardMap.pitch (m : ShardMap) (o : Nat) : Nat := fld (m.attr o) 23 0
def ShardMap.kind (m : ShardMap) (o : Nat) : Nat := fld (m.attr o) 24 24

/-- Bytes of the shard from its first to past its last. -/
def ShardMap.span (m : ShardMap) (e o : Nat) : Nat :=
  if m.lrows o = 0 ∨ m.lcols o = 0 then 0 else (m.lrows o - 1) * m.pitch o + m.lcols o * e

/-! Reading the descriptor. -/

/-- The data of pieces read one after another, none after an uncorrectable word. -/
def State.readPieces (s : State) : List Piece → State × Option (List Byte)
  | [] => (s, some [])
  | q :: l =>
    match s.extRead q.addr q.len with
    | (s, none) => (s, none)
    | (s, some d) => let (s, r) := s.readPieces l; (s, r.map (d ++ ·))

/-- n words of 8 bytes of the yard, as the foreman reads them (R210, R218, R219). -/
def State.yardWords (s : State) (off n : Nat) : State × Option (List Nat) :=
  match s.readPieces (piecesOf off (8 * n)) with
  | (s, some bs) => (s, some ((List.range n).map fun i => ofBytes ((bs.drop (8 * i)).take 8)))
  | (s, none) => (s, none)

/-- Bytes of a map. -/
def ShardMap.bytes (m : ShardMap) : Nat := 32 + 16 * (m.pr * m.pc)

/-- What the foreman has read of a map: its header words and the map with the owners that lie in the yard, at most 4,096 of them. -/
structure MapRead where
  header : List Nat
  map : ShardMap
  deriving DecidableEq, Repr

/-- A map at a yard offset; a header that does not lie in the yard is not read, and the reading stops at an uncorrectable word. -/
def State.readMap (s : State) (off : Nat) : State × Option MapRead :=
  if yardSize < off + 32 then (s, some ⟨[], ⟨0, 0, 0, 0, 0, 0, []⟩⟩)
  else match s.yardWords off 4 with
  | (s, none) => (s, none)
  | (s, some h) =>
    let w (i : Nat) : Nat := h.getD i 0
    let pr := fld (w 2) 11 0
    let pc := fld (w 2) 23 12
    let n := min (min 4096 (pr * pc)) ((yardSize - off - 32) / 16)
    match s.yardWords (off + 32) (2 * n) with
    | (s, none) => (s, none)
    | (s, some o) =>
      (s, some ⟨h, ⟨fld (w 0) 23 0, fld (w 0) 47 24, fld (w 1) 23 0, fld (w 1) 47 24, pr, pc,
        (List.range n).map fun i => (o.getD (2 * i) 0, o.getD (2 * i + 1) 0)⟩⟩)

/-- The header lies in the yard. -/
def MapRead.here (x : MapRead) : Bool := !x.header.isEmpty

/-- Reserved bits of a map's header are zero. -/
def MapRead.headerOk (x : MapRead) : Bool :=
  let h := x.header
  decide (h.getD 0 0 < 2 ^ 48) && decide (h.getD 1 0 < 2 ^ 48) && decide (h.getD 2 0 < 2 ^ 24) && decide (h.getD 3 0 = 0)

/-- Reserved bits of an owner entry are zero. -/
def ownerOk (x : Nat × Nat) : Bool := decide (x.2 < 2 ^ 49)

/-- Why a rebond fails before it starts: the cause, and the owner and map it names. -/
structure RebondFail where
  cause : Nat
  owner : Nat
  map : Nat
  deriving DecidableEq, Repr

/-- REBOND_DESC in the descriptor's words. -/
def descBad (w : List Nat) : Bool :=
  let x (i : Nat) : Nat := w.getD i 0
  let gather := decide (fld (x 0) 1 0 = 2)
  decide (fld (x 0) 1 0 = 3) || decide (16 ≤ x 0) || decide (2 ^ 56 ≤ x 1) || decide (2 ^ 27 ≤ x 2) || decide (2 ^ 27 ≤ x 3) ||
  decide (x 2 % 16 ≠ 0) || decide (x 3 % 16 ≠ 0) || decide (2 ^ 56 ≤ x 4) || (gather && (decide (fld (x 4) 31 27 ≠ 0) || decide (x 4 % 16 ≠ 0))) ||
  (!gather && decide (x 4 ≠ 0)) || decide (x 5 ≠ 0) || decide (x 6 ≠ 0) || decide (x 7 ≠ 0)

/-- The first owner of a map that meets a condition. -/
def ShardMap.firstOwner (m : ShardMap) (p : Nat → Bool) : Option Nat := (List.range m.owners.length).find? p

/-- A map that divides the tensor into nothing, or does not keep the multiples of 16. -/
def ShardMap.misshapen (m : ShardMap) (e : Nat) : Bool :=
  decide (m.br = 0) || decide (m.bc = 0) || decide (m.pr = 0) || decide (m.pc = 0) ||
  decide (m.rows * e % 16 ≠ 0) || decide (m.cols * e % 16 ≠ 0) || decide (m.br * e % 16 ≠ 0) || decide (m.bc * e % 16 ≠ 0)

/-- An owner whose PITCH is too small or no multiple of 16. -/
def ShardMap.badPitch (m : ShardMap) (e o : Nat) : Bool :=
  decide (m.pitch o < m.lcols o * e) || decide (m.pitch o % 16 ≠ 0)

/-- Is the source shard of an owner on this die? -/
def State.localOwner (s : State) (m : ShardMap) (o : Nat) : Bool := s.isOwn (m.base o)

/-- A local source shard passes its yard or bed. -/
def ShardMap.sourceOut (m : ShardMap) (e o : Nat) : Bool :=
  let a := gLocal (m.base o)
  if m.kind o = 0 then decide (yardSize < a + m.span e o)
  else match bedOf a with
    | some (_, off) => decide (bedSize < off + m.span e o)
    | none => true

/-- A destination owner on a hub, or whose yard region passes the yard. -/
def ShardMap.destOut (m : ShardMap) (e o : Nat) : Bool :=
  decide (8 ≤ gDie (m.base o)) || (decide (m.kind o = 0) && decide (yardSize < gLocal (m.base o) + m.span e o))

/-- The rebond that a descriptor's words and its maps name, or the first cause that applies (R303). Of a map whose header does not lie in the
yard nothing but that is judged. -/
def State.judgeRebond (s : State) (w : List Nat) (sm dm : MapRead) : Except RebondFail Rebond :=
  let x (i : Nat) : Nat := w.getD i 0
  let t := fld (x 0) 1 0
  let e := 2 ^ fld (x 0) 3 2
  let r := fld (x 1) 23 0
  let c := fld (x 1) 55 24
  let smap := x 2 % 2 ^ 27
  let dmap := x 3 % 2 ^ 27
  let idx := fld (x 4) 26 0
  let g := fld (x 4) 55 32
  let src := sm.map
  let dst := dm.map
  let dims := match t with | 1 => (c, r) | 2 => (g, c) | _ => (r, c)
  if descBad w then .error ⟨1, 0, 0⟩
  else if !sm.headerOk then .error ⟨1, 0, 0⟩
  else if !dm.headerOk then .error ⟨1, 0, 1⟩
  else match src.firstOwner fun o => !ownerOk (src.owners.getD o (0, 0)) with
  | some o => .error ⟨1, o, 0⟩
  | none =>
  match dst.firstOwner fun o => !ownerOk (dst.owners.getD o (0, 0)) with
  | some o => .error ⟨1, o, 1⟩
  | none =>
  if r = 0 ∨ c = 0 ∨ (t = 2 ∧ g = 0) ∨ (sm.here ∧ (src.rows ≠ r ∨ src.cols ≠ c ∨ src.misshapen e)) then .error ⟨2, 0, 0⟩
  else if dm.here ∧ ((dst.rows, dst.cols) ≠ dims ∨ dst.misshapen e) then .error ⟨2, 0, 1⟩
  else match src.firstOwner (src.badPitch e) with
  | some o => .error ⟨2, o, 0⟩
  | none =>
  match dst.firstOwner (dst.badPitch e) with
  | some o => .error ⟨2, o, 1⟩
  | none =>
  if 4096 < src.pr * src.pc then .error ⟨3, 0, 0⟩
  else if 4096 < dst.pr * dst.pc then .error ⟨3, 0, 1⟩
  else match dst.firstOwner (dst.destOut e) with
  | some o => .error ⟨4, o, 1⟩
  | none =>
  match src.firstOwner fun o => s.localOwner src o && src.sourceOut e o with
  | some o => .error ⟨4, o, 0⟩
  | none =>
  if yardSize < smap + src.bytes ∨ (t = 2 ∧ yardSize < idx + 4 * g) then .error ⟨4, 0, 0⟩
  else if yardSize < dmap + dst.bytes then .error ⟨4, 0, 1⟩
  else .ok ⟨t, e, r, c, idx, g, src, dst, []⟩

/-- The foreman reads the descriptor and both maps and judges them; an uncorrectable word of theirs fails the operation as one of a source read
does (R303, R308; DESIGN CHOICE, notes/assumptions/64.md). -/
def State.readRebond (s : State) (desc : Nat) : State × Except RebondFail Rebond :=
  match s.yardWords desc 8 with
  | (s, none) => (s, .error ⟨7, 0, 0⟩)
  | (s, some w) =>
    match s.readMap (w.getD 2 0 % 2 ^ 27) with
    | (s, none) => (s, .error ⟨7, 0, 0⟩)
    | (s, some sm) =>
      match s.readMap (w.getD 3 0 % 2 ^ 27) with
      | (s, none) => (s, .error ⟨7, 0, 1⟩)
      | (s, some dm) => (s, s.judgeRebond w sm dm)

/-! The operation's state. -/

/-- A rebond state change: the OPS slot, the page, and the record (R312, R352). -/
def State.rebondTo (s : State) (st : Nat) : State := (s.setD Reg.REBOND_STATE st).setOp 3 st (s.df Reg.REBOND_CAUSE)

/-- The rebond fails with a cause. -/
def State.rebondFail (s : State) (x : RebondFail) : State :=
  let s := ((s.setD Reg.REBOND_CAUSE x.cause).setD Reg.REBOND_FAULT_OWNER x.owner).setD Reg.REBOND_FAULT_MAP x.map
  let s := (List.range 64).foldl (fun s m => s.wr Reg.REBOND_ACTIVE 0 m 0) s
  State.rebondTo (State.unpend { s with ops := { s.ops with rebond := none } } 3) 7

/-- An accepted REBOND: state loading, and the descriptor is validated (R300, R303). -/
def State.rebondStart (s : State) (desc : Nat) : State :=
  let s := s.newOp 3
  let s := (s.setD Reg.REBOND_OP_ID (s.rd Reg.CMD_OPS_ID 0 3)).setD Reg.REBOND_DESC desc
  let s := [Reg.REBOND_CAUSE, Reg.REBOND_BYTES, Reg.REBOND_PACKETS, Reg.REBOND_NACKS, Reg.REBOND_SIGNALS, Reg.REBOND_ABANDONED,
    Reg.REBOND_FAULT_OWNER, Reg.REBOND_FAULT_MAP].foldl (fun s r => s.setD r 0) s
  let s := (List.range 64).foldl (fun s m => ((s.wr Reg.REBOND_OWNER 0 m 0).wr Reg.REBOND_OFFSET 0 m 0).wr Reg.REBOND_ACTIVE 0 m 0) s
  let s := s.rebondTo 1
  match s.readRebond desc with
  | (s, .error f) => s.rebondFail f
  | (s, .ok r) => { s with ops := { s.ops with rebond := some r } }

/-! The walk (R304). The destination bytes of an owner are taken in granules of 16 bytes, which have one source owner. -/

/-- Granules in a local row, and of the owner. -/
def Rebond.rowGranules (r : Rebond) (o : Nat) : Nat := r.dst.lcols o * r.e / 16
def Rebond.granules (r : Rebond) (o : Nat) : Nat := r.dst.lrows o * r.rowGranules o

/-- Destination offset of granule q. -/
def Rebond.offsetOf (r : Rebond) (o q : Nat) : Nat := q / r.rowGranules o * r.dst.pitch o + q % r.rowGranules o * 16

/-- The granule at a destination offset. -/
def Rebond.granuleAt (r : Rebond) (o off : Nat) : Nat := off / r.dst.pitch o * r.rowGranules o + off % r.dst.pitch o / 16

/-- Does granule q + 1 follow granule q in memory? -/
def Rebond.joined (r : Rebond) (o q : Nat) : Bool := decide (r.offsetOf o (q + 1) = r.offsetOf o q + 16)

/-- Source row and column of destination element (i, j); none when its index cannot be read or lies past the source. -/
def State.sourceOf (s : State) (r : Rebond) (i j : Nat) : Option (Nat × Nat) :=
  match r.transform with
  | 1 => some (j, i)
  | 2 =>
    let n := ofBytes (s.bytesAt (r.idx + 4 * i) 4)
    if n < r.r ∧ s.ueWords (r.idx + 4 * i) 4 = [] then some (n, j) else none
  | _ => some (i, j)

/-- Source of element n of granule q of owner o. -/
def State.granuleSource (s : State) (r : Rebond) (o q n : Nat) : Option (Nat × Nat) :=
  let lj := q % r.rowGranules o * (16 / r.e) + n
  s.sourceOf r (globalIndex r.dst.br r.dst.pr (o / r.dst.pc) (q / r.rowGranules o)) (globalIndex r.dst.bc r.dst.pc (o % r.dst.pc) lj)

/-- Local address of a source element, when its owner is on this die. -/
def State.elementAt (s : State) (r : Rebond) (x : Nat × Nat) : Option Nat :=
  let (so, li, lj) := r.src.place x.1 x.2
  if s.localOwner r.src so then some (gLocal (r.src.base so) + li * r.src.pitch so + lj * r.e) else none

/-- Is the source of granule q on this die? A bad index counts as included, so that the walk meets it. -/
def State.included (s : State) (r : Rebond) (o q : Nat) : Bool :=
  match s.granuleSource r o q 0 with
  | none => true
  | some x => (s.elementAt r x).isSome

/-- The first included granule of owner o from q on. -/
def State.nextGranule (s : State) (r : Rebond) (o q : Nat) : Option Nat :=
  ((List.range (r.granules o - q)).map (· + q)).find? fun k => s.included r o k

/-- Granules of the packet that starts at q: included, joined, at most 32. -/
def State.packetGranules (s : State) (r : Rebond) (o q : Nat) : Nat → Nat
  | 0 => 0
  | n + 1 =>
    if r.joined o q && decide (q + 1 < r.granules o) && s.included r o (q + 1) then s.packetGranules r o (q + 1) n + 1 else 1

/-- Destination row of granule q. -/
def Rebond.rowOf (r : Rebond) (o q : Nat) : Nat := globalIndex r.dst.br r.dst.pr (o / r.dst.pc) (q / r.rowGranules o)

/-- The mover reads the indices of the rows that a packet of a GATHER takes: an index past the source fails the operation with REBOND_RANGE, an
uncorrectable one with SOURCE_UE (R303, R308). -/
def State.readIndices (s : State) (r : Rebond) (o : Nat) : List Nat → State × Option RebondFail
  | [] => (s, none)
  | i :: l =>
    match s.extRead (r.idx + 4 * i) 4 with
    | (s, none) => (s, some ⟨7, o, 1⟩)
    | (s, some d) => if ofBytes d < r.r then s.readIndices r o l else (s, some ⟨4, o, 1⟩)

/-- Source owner and address of every element of granule q of owner o. -/
def State.granuleAddrs (s : State) (r : Rebond) (o q : Nat) : List (Nat × Nat) :=
  (List.range (16 / r.e)).map fun n =>
    match s.granuleSource r o q n with
    | some x => ((r.src.place x.1 x.2).1, (s.elementAt r x).getD 0)
    | none => (0, 0)

/-- Join elements of size e that follow each other at their owner into runs: owner, address, bytes. -/
def joinRuns (e : Nat) : List (Nat × Nat) → List (Nat × Nat × Nat)
  | [] => []
  | (so, a) :: l =>
    match joinRuns e l with
    | (so', a', n) :: r => if so = so' ∧ a + e = a' then (so, a, n + e) :: r else (so, a, e) :: (so', a', n) :: r
    | [] => [(so, a, e)]

/-- Read the runs of a packet, each in the pieces of its memory; an uncorrectable word fails the operation with its source owner (R203, R210,
R308). -/
def State.readRuns (s : State) : List (Nat × Piece) → State × Except RebondFail (List Byte)
  | [] => (s, .ok [])
  | (so, q) :: l =>
    match s.extRead q.addr q.len with
    | (s, none) => (s, .error ⟨7, so, 0⟩)
    | (s, some d) =>
      match s.readRuns l with
      | (s, .ok d') => (s, .ok (d ++ d'))
      | (s, .error f) => (s, .error f)

/-- Read the granules of a packet: their bytes, or why the operation fails. -/
def State.readGranules (s : State) (r : Rebond) (o : Nat) (qs : List Nat) : State × Except RebondFail (List Byte) :=
  let (s, bad) := if r.transform = 2 then s.readIndices r o (qs.map (r.rowOf o)).eraseDups else (s, none)
  match bad with
  | some f => (s, .error f)
  | none => s.readRuns ((joinRuns r.e (qs.flatMap (s.granuleAddrs r o))).flatMap fun x => (piecesOf x.2.1 x.2.2).map fun q => (x.1, q))

/-! Movers. -/

def OwnerState.init : OwnerState := ⟨0, 0, false, false, false⟩

def Rebond.owner (r : Rebond) (o : Nat) : OwnerState := Sparse.get OwnerState.init r.owners o

def State.setOwner (s : State) (o : Nat) (x : OwnerState) : State :=
  match s.ops.rebond with
  | none => s
  | some r => { s with ops := { s.ops with rebond := some { r with owners := Sparse.put OwnerState.init r.owners o x } } }

/-- Owners of mover m from o on, ascending. -/
def Rebond.served (r : Rebond) (m o : Nat) : List Nat :=
  (List.range (r.dst.pr * r.dst.pc)).filter fun k => decide (k % 64 = m) && decide (o ≤ k)

/-- The mover's next owner with bytes to send, from o on, and where they start. -/
def State.nextOwner (s : State) (r : Rebond) (m o : Nat) : Option (Nat × Nat) :=
  (r.served m o).findSome? fun k => (s.nextGranule r k 0).map fun q => (k, q)

/-- Set a mover's cursor. -/
def State.cursor (s : State) (r : Rebond) (m : Nat) (x : Option (Nat × Nat)) : State :=
  match x with
  | some (o, q) => ((s.wr Reg.REBOND_OWNER 0 m o).wr Reg.REBOND_OFFSET 0 m (r.offsetOf o q)).wr Reg.REBOND_ACTIVE 0 m 1
  | none => ((s.wr Reg.REBOND_OWNER 0 m 4096).wr Reg.REBOND_OFFSET 0 m 0).wr Reg.REBOND_ACTIVE 0 m 0

/-- Is the operation over: no mover has more to form, and every owner that was begun is finished or abandoned? -/
def State.rebondOver (s : State) (r : Rebond) : Bool :=
  ((List.range 64).all fun m => decide (s.rd Reg.REBOND_OWNER 0 m = 4096)) && r.owners.all fun x => x.2.finished || x.2.abandoned

/-- A running operation that is over ends done, or failed with cause NACK (R307, R308). -/
def State.rebondCheck (s : State) : State :=
  match s.ops.rebond with
  | none => s
  | some r =>
    if s.opState 3 = 2 ∧ s.rebondOver r then
      match r.owners.find? fun x => x.2.abandoned with
      | some x => s.rebondFail ⟨5, x.1, 1⟩
      | none =>
        let s := State.rebondTo (State.unpend { s with ops := { s.ops with rebond := none } } 3) 5
        s.note 0x0901 noUnit [s.df Reg.REBOND_OP_ID, s.df Reg.REBOND_BYTES, s.df Reg.REBOND_PACKETS]
    else s

/-- Every mover's cursor at its first owner. -/
def State.firstCursors (s : State) (r : Rebond) : State := (List.range 64).foldl (fun s m => s.cursor r m (s.nextOwner r m 0)) s

/-- The movers start (R303, R304). -/
def execRebondMoverStart (s : State) : Host.Outcome State Fault Refusal :=
  s.clocked fun s =>
    match s.ops.rebond with
    | none => s
    | some r =>
      if s.opState 3 ≠ 1 then s
      else ((s.rebondTo 2).firstCursors r).rebondCheck

/-- Form the packet of owner o that starts at granule q, its data read (R304, R305). -/
def State.rebondForm (s : State) (r : Rebond) (m o q : Nat) (bs : List Byte) (last : Bool) : State :=
  let b := r.dst.base o
  let off := r.offsetOf o q
  let n := bs.length
  let s := (s.bumpD Reg.REBOND_BYTES n).bumpD Reg.REBOND_PACKETS 1
  if r.dst.kind o = 1 then
    let core := (gLocal b - 0x10000000000) / 0x100000
    let s := if last then s.bumpD Reg.REBOND_SIGNALS 1 else s
    s.form (s.packet ⟨gPkg b, gDie b, core, 0⟩ 1 m
      { vl := 0, type := if last then 1 else 0, len := n, creq := last, win := true, tag := o % 256,
        addr := (fld b 19 0 + off) % 2 ^ 20 + fld (r.dst.attr o) 29 25 * 2 ^ 20, payload := bs })
  else
    s.form (s.packet ⟨gPkg b, gDie b, 0, 3⟩ 1 m
      { vl := 0, type := 0, len := n, creq := true, tag := o % 256, addr := gLocal b + off, payload := bs })

/-- Mover m forms its next packet. -/
def State.rebondPacket (s : State) (r : Rebond) (m : Nat) : State :=
  let o := s.rd Reg.REBOND_OWNER 0 m
  let x := r.owner o
  if 4096 ≤ o then s
  else if x.abandoned then (s.cursor r m (s.nextOwner r m (o + 1))).rebondCheck
  else
    match s.nextGranule r o (r.granuleAt o (s.rd Reg.REBOND_OFFSET 0 m)) with
    | none => (s.cursor r m (s.nextOwner r m (o + 1))).rebondCheck
    | some q =>
      let n := s.packetGranules r o q 32
      match s.readGranules r o ((List.range n).map (· + q)) with
      | (s, .error f) => s.rebondFail f
      | (s, .ok bs) =>
        let next := s.nextGranule r o (q + n)
        let last := next.isNone
        let owes := last || decide (r.dst.kind o = 0)
        let s := s.rebondForm r m o q bs last
        let s := s.setOwner o { x with formed := x.formed + 1, owed := x.owed + b2n owes, last := last }
        match next with
        | some k => s.cursor r m (some (o, k))
        | none => s.cursor r m (s.nextOwner r m (o + 1))

def execRebondPacket (m : Nat) (s : State) : Host.Outcome State Fault Refusal :=
  s.clocked fun s =>
    match s.ops.rebond with
    | none => s
    | some r => if s.opState 3 = 2 ∧ m < 64 then s.rebondPacket r m else s

/-! Responses (R307–R311). -/

/-- The owner of mover m that a response's TAG names: one with a response owed. -/
def Rebond.tagged (r : Rebond) (m tag : Nat) : Option Nat :=
  (r.owners.find? fun x => decide (x.1 % 64 = m) && decide (x.1 % 256 = tag) && decide (0 < x.2.owed)).map (·.1)

/-- A yard owner's completion add (R305). -/
def State.completionAdd (s : State) (r : Rebond) (m o : Nat) : State :=
  let a := r.dst.attr o
  if bit a 30 then
    let b := r.dst.base o
    let s := s.bumpD Reg.REBOND_SIGNALS 1
    s.form (s.packet ⟨gPkg b, gDie b, fld a 48 39, 0⟩ 1 m { vl := 2, type := 4, sub := fld a 38 31, tag := o % 256, addr := 1 })
  else s

/-- No response is owed any more. -/
def Rebond.settled (r : Rebond) : Bool := r.owners.all fun x => decide (x.2.owed = 0)

/-- A stop completes once nothing is owed: cancelled, failed with the cause met while stopping, or suspended (R309–R311). -/
def State.rebondStopped (s : State) : State :=
  match s.ops.rebond with
  | none => s
  | some r =>
    if s.opState 3 ≠ 3 ∨ !r.settled then s
    else if s.df Reg.REBOND_CAUSE ≠ 0 ∧ s.df Reg.REBOND_CAUSE ≠ 9 then
      State.rebondTo (State.unpend { s with ops := { s.ops with rebond := none } } 3) 7
    else if s.ops.cancelling.contains 3 then
      State.rebondTo (State.unpend { s.setD Reg.REBOND_CAUSE 9 with ops := { s.ops with rebond := none } } 3) 6
    else if s.rebondOver r ∧ !(r.owners.any fun x => x.2.abandoned) then ((s.unpend 3).rebondTo 2).rebondCheck
    else (s.unpend 3).rebondTo 4

/-- COMPLETE for owner o at mover m. A cancelled operation sends no further add (R310). -/
def State.rebondComplete (s : State) (r : Rebond) (m o : Nat) : State :=
  let x := r.owner o
  let x := { x with owed := x.owed - 1 }
  let done := x.last && decide (x.owed = 0) && !x.abandoned
  let s := s.setOwner o { x with finished := x.finished || done }
  let s := if done && decide (r.dst.kind o = 0) && !s.ops.cancelling.contains 3 then s.completionAdd r m o else s
  s.rebondCheck.rebondStopped

/-- NACK for owner o: the owner is abandoned, once (R308); while stopping it is the cause of the end (R311). -/
def State.rebondNack (s : State) (r : Rebond) (o status : Nat) : State :=
  let x := r.owner o
  let s := s.bumpD Reg.REBOND_NACKS 1
  let s := if x.abandoned then s else (s.bumpD Reg.REBOND_ABANDONED 1).note 0x0902 noUnit [o, status]
  let s := s.setOwner o { x with owed := x.owed - 1, abandoned := true }
  let s := if s.opState 3 = 3 ∧ !s.ops.cancelling.contains 3 then (s.setD Reg.REBOND_CAUSE 5).setD Reg.REBOND_FAULT_OWNER o else s
  s.rebondCheck.rebondStopped

/-- The owner that a NACK names: one with a response owed, else one being served. -/
def State.nackedOwner (s : State) (r : Rebond) (m tag : Nat) : Option Nat :=
  match r.tagged m tag with
  | some o => some o
  | none =>
    let o := s.rd Reg.REBOND_OWNER 0 m
    if o % 256 = tag ∧ o < 4096 ∧ 0 < (r.owner o).formed then some o else none

/-- A COMPLETE addressed to rebond mover m: the rebond's, else a context operation's. -/
def State.moverComplete (s : State) (m tag : Nat) : State :=
  match s.ops.rebond.bind fun r => (r.tagged m tag).map fun o => (r, o) with
  | some (r, o) => s.rebondComplete r m o
  | none => s.ctxComplete m

/-- A NACK addressed to rebond mover m. -/
def State.moverNack (s : State) (m tag status : Nat) : State :=
  match s.ops.rebond.bind fun r => (s.nackedOwner r m tag).map fun o => (r, o) with
  | some (r, o) => s.rebondNack r o status
  | none => s.ctxNack m

/-- A READ_RSP addressed to rebond mover m: a restore's data, or its failure. -/
def State.moverData (s : State) (m status : Nat) (bs : List Byte) : State :=
  if status = 0 then s.ctxData m bs else s.ctxNack m

/-- A response owed to mover m has not returned in time (R308, R310, R311, R359). -/
def State.moverTimeout (s : State) (m : Nat) : State :=
  match s.ops.rebond.bind fun r => (r.owners.find? fun x => decide (x.1 % 64 = m) && decide (0 < x.2.owed)).map fun x => (r, x.1) with
  | none =>
    match s.ops.context with
    | some x => if (x.job m).any fun k => k.waiting then s.ctxNack m else s
    | none => s
  | some (_, o) =>
    if s.opState 3 = 3 ∧ s.ops.cancelling.contains 3 then
      State.rebondTo (State.unpend { s.setD Reg.REBOND_CAUSE 9 with ops := { s.ops with rebond := none } } 3) 6
    else if s.opState 3 = 2 ∨ s.opState 3 = 3 then s.rebondFail ⟨6, o, 1⟩
    else s

def execRebondTimeout (m : Nat) (s : State) : Host.Outcome State Fault Refusal := s.clocked fun s => s.moverTimeout m

/-! Commands on a rebond (R309–R311). -/

/-- A stop before the movers have started finds their cursors at the start. -/
def State.rebondHalt (s : State) : State :=
  match s.ops.rebond with
  | some r => if s.opState 3 = 1 then s.firstCursors r else s
  | none => s

/-- Suspend: the movers stop at their packet boundaries. -/
def State.rebondSuspend (s : State) : State :=
  let s := s.rebondHalt
  State.rebondStopped (State.rebondTo { s with ops := { s.ops with suspending := s.ops.suspending ++ [3] } } 3)

/-- Cancel: as a suspend, with no further add. -/
def State.rebondCancel (s : State) : State :=
  let s := s.rebondHalt
  let s : State := { s with ops := { s.ops with cancelling := s.ops.cancelling ++ [3] } }
  if s.opState 3 = 4 then State.rebondTo (State.unpend { s.setD Reg.REBOND_CAUSE 9 with ops := { s.ops with rebond := none } } 3) 6
  else if s.opState 3 = 3 then s.rebondStopped
  else (s.rebondTo 3).rebondStopped

/-- Resume: every mover goes on from its cursor. -/
def State.rebondResume (s : State) : State := (s.rebondTo 2).rebondCheck

end Sys2Proof.Machine
end

