-- ==== Sys2Proof/Machine/Command.lean ====
section
/-!
DEFINITION. The command page (R350–R358): acceptance, statuses, and what each command does; task start (R26, R354).
-/

namespace Sys2Proof.Machine

/-! Task start. -/

/-- Counters and captures of the core pages that task start resets (R64, R107, R129, R146, R148, R163, R165, R181, R202, R228, R259, R313, R369). -/
def taskStartCore : List Row :=
  [Reg.SEQ_MAX_HOLD, Reg.SEQ_MIN_SLACK, Reg.SEQ_ECC_HOLD, Reg.SEQ_FEED_HOLD, Reg.SEQ_WAIT_HOLD, Reg.SEQ_QUEUE_HOLD, Reg.SEQ_CREDIT_HOLD,
   Reg.SEQ_FETCH_HOLD, Reg.SEQ_POWER_HOLD, Reg.SEQ_DRAIN_HOLD, Reg.SEQ_COMMITS, Reg.SEQ_DISCARDS, Reg.NUM_SR_COUNT,
   Reg.ARRAY_ISSUED0, Reg.ARRAY_ISSUED1, Reg.ARRAY_ISSUED2, Reg.ARRAY_ISSUED3, Reg.ARRAY_FEED0, Reg.ARRAY_FEED1, Reg.ARRAY_FEED2,
   Reg.ARRAY_FEED3, Reg.ARRAY_FAULT, Reg.ARRAY_FAULT_ARRAY, Reg.ARRAY_FAULT_CYCLE, Reg.ACC_ROUNDED, Reg.ACC_LOSS_EVENTS, Reg.ACC_FAULT,
   Reg.ACC_FAULT_ARRAY, Reg.ACC_FAULT_ENTRY, Reg.ACC_FAULT_ELEMENT, Reg.ACC_FAULT_CYCLE, Reg.POINT_SAT, Reg.POINT_SAT_COUNT,
   Reg.POINT_VANISH_COUNT, Reg.POINT_NAN_COUNT, Reg.POINT_REPLAY_ROWS, Reg.POINT_EXPORTS, Reg.POINT_FAULT, Reg.POINT_FAULT_ARRAY,
   Reg.POINT_FAULT_CYCLE, Reg.DRESS_IV, Reg.DRESS_DZ, Reg.DRESS_OF, Reg.DRESS_UF, Reg.DRESS_NX, Reg.DRESS_AZ, Reg.DRESS_CVT_NAN,
   Reg.DRESS_CVT_SAT, Reg.DRESS_CVT_VANISH, Reg.DRESS_AMAX_ZERO, Reg.DRESS_VOPS, Reg.DRESS_BUSY, Reg.DRESS_FAULT, Reg.DRESS_FAULT_CYCLE,
   Reg.TPL_EVALS, Reg.TPL_SWAPS, Reg.TPL_LOADS, Reg.TPL_REFUSED, Reg.TPL_FAULT, Reg.TPL_FAULT_CYCLE, Reg.ISSUE_FAULT, Reg.ISSUE_SLOT,
   Reg.ISSUE_REASON, Reg.ISSUE_CYCLE, Reg.ISSUE_INDEX, Reg.ISSUE_BUNDLE0, Reg.ISSUE_BUNDLE1, Reg.ISSUE_BUNDLE2, Reg.ISSUE_BUNDLE3,
   Reg.ISSUE_ISSUED, Reg.ISSUE_DELAYED, Reg.ISSUE_TAKEN, Reg.ISSUE_DEMAND, Reg.BED_CORR_WIDE, Reg.BED_CORR_NARROW, Reg.BED_CORR_ACC,
   Reg.BED_LATE_ACCESS, Reg.BED_MAX_WAIT, Reg.BED_FORCED, Reg.BED_PARTIAL, Reg.BED_UE_BANK, Reg.BED_UE_LINE, Reg.BED_UE_WORD,
   Reg.BED_UE_VALID, Reg.SYNC_ADDS_SENT, Reg.SYNC_ADDS_APPLIED, Reg.SYNC_UNDERFLOWS, Reg.SYNC_OVERFLOWS, Reg.SYNC_LATE_WRITES,
   Reg.SYNC_NACKS_RECEIVED, Reg.SYNC_MOVE_FAILS, Reg.SYNC_WAITS, Reg.SYNC_FAULT, Reg.SYNC_FAULT_CYCLE, Reg.SYNC_FAULT_INDEX,
   Reg.MOVER_MOVES, Reg.MOVER_PACKETS, Reg.MOVER_BYTES, Reg.MOVER_FAULT, Reg.MOVER_FAULT_CYCLE]

/-- Captures and counts of the die pages that task start resets (R63, R354, R369). -/
def taskStartDie : List Row :=
  [Reg.CTRL_COURSE_NUMBER, Reg.CTRL_SLIP_COUNT, Reg.CTRL_SLIPPING, Reg.CTRL_OVERRUN_CORE, Reg.CTRL_OVERRUN_VALID, Reg.RING_STALE_EPOCH,
   Reg.RING_STALE_PKG, Reg.RING_STALE_DIE, Reg.RING_STALE_VALID, Reg.LEDGER_FIRST_STOP_SEQ, Reg.LEDGER_FIRST_STOP_EVENT,
   Reg.LEDGER_FIRST_STOP_UNIT, Reg.LEDGER_FIRST_STOP_VALID, Reg.LEDGER_FIRST_STOP_TIME, Reg.CMD_CAUSE]

/-- The counters of histogram set i of core c: bins and their specials (R146). -/
def State.clearHistogram (s : State) (c i : Nat) : State :=
  let one := [Reg.POINT_ZERO, Reg.POINT_VANISHED, Reg.POINT_SATURATED, Reg.POINT_NAN, Reg.POINT_INF]
  let s := (List.range 64).foldl (fun s b => s.wr (if i = 0 then Reg.POINT_BIN0 else Reg.POINT_BIN1) c b 0) s
  one.foldl (fun s r => s.wr r c i 0) s

/-- Core c at task start: counters and captures at 0, VL and RL whole, an empty hod queue, and nothing issued (R64, R148, R215). -/
def State.taskCore (s : State) (c : Nat) : State :=
  let s := taskStartCore.foldl (fun s r => s.setC r c 0) ((s.clearHistogram c 0).clearHistogram c 1)
  let s := ((s.setC Reg.DRESS_VL c 64).setC Reg.DRESS_RL c 16).setC Reg.SEQ_RUN c 0
  let s := (s.setC Reg.SEQ_DONE c 0).mapCore c fun k =>
    { k with seq := Sequencer.init, tm := Timing.init, hod := [], shadow := [], rowWrites := [], moves := [], outQ := [], moveIn := [], hint0 := none, hint1 := none }
  s.countJobs c

/-- The waits of cores of a list end with the engine state of the task before (R357). -/
def State.dropWaits (s : State) (cs : List Nat) : State :=
  { s with sync := { s.sync with
      registering := s.sync.registering.filter fun q => !cs.contains q.core
      slots := s.sync.slots.filter fun y => !cs.contains y.req.core
      awaits := s.sync.awaits.filter fun q => !cs.contains q.core
      results := s.sync.results.filter fun q => !cs.contains q.core } }

/-- Cores set in PARTICIPANTS that the floor plan does not call dead, ascending; `on` asks for a powered domain too. -/
def State.participants (s : State) (on : Bool) : List Nat :=
  (List.range 1024).filter fun c =>
    bit (s.rd Reg.CMD_PARTICIPANTS 0 (c / 64)) (c % 64) && decide (s.floorState c ≠ 0) && (!on || s.domainOn (groupOf c))

/-! Conditions. -/

/-- Kind of the operation that a TARGET names. -/
def State.named (s : State) (target : Nat) : Option Nat :=
  if target = 0 then none else (List.range 6).find? fun k => decide (s.rd Reg.CMD_OPS_ID 0 k = target)

/-- A yard quadrant is off (R429). -/
def State.quadrantOff (s : State) : Bool := (List.range 4).any fun q => !s.domainOn (72 + q)

/-- A BASE on a hub, a multiple of 4,096, and a STRIDE that is a multiple of 4,096 and holds the images (R351). -/
def State.imagePlace (_ : State) (base stride len : Nat) : Bool :=
  decide (8 ≤ gDie base) && decide (base % 4096 = 0) && decide (stride % 4096 = 0) && decide (len ≤ stride)

/-- Longest image of the participants. -/
def State.longest (s : State) (cs : List Nat) (acc bed : Bool) : Nat := (cs.map fun c => (s.ctxShape c acc bed).length).foldl max 0

/-- Statuses (R351). -/
def stAccepted : Nat := 0
def stBadCommand : Nat := 1
def stBadArg : Nat := 2
def stBusy : Nat := 3
def stNoSuchOp : Nat := 4
def stWrongState : Nat := 5
def stNotReady : Nat := 6
def stAlreadyDone : Nat := 7
def stAlreadyFailed : Nat := 8

/-- The answer to a command: the state after it, its status and the operation. -/
structure Answer where
  next : State
  status : Nat
  op : Nat

def State.refuse (s : State) (status op : Nat) : Answer := ⟨s, status, op⟩
def State.accept (s : State) (kind : Nat) : Answer := ⟨s, stAccepted, s.rd Reg.CMD_OPS_ID 0 kind⟩

/-- Status of a command that the named operation's state does not admit. -/
def endedStatus (st : Nat) : Nat := if st = 5 then stAlreadyDone else if st = 7 then stAlreadyFailed else stWrongState

/-! START (R26, R354). -/

/-- ARCH of a start condition, when COND asks for an arch closure. -/
def startArch (a0 : Nat) : Option Nat := if bit a0 0 then some (fld a0 3 1) else none

/-- What keeps a task from starting beside another operation: a port that trains (R264), and a publication that is due, for every core before
phase 7 has ended and else for the cores of a group that resets (R30, R348; DESIGN CHOICE, notes/assumptions/63.md). -/
def State.startBarred (s : State) (cs : List Nat) : Bool :=
  !s.boot.ready || ((List.range 8).any fun n => decide (1 ≤ s.rd Reg.LINK_STATE n 0) && decide (s.rd Reg.LINK_STATE n 0 ≤ 4)) ||
  cs.any fun c => s.ops.group.contains (groupOf c)

def State.cmdStart (s : State) (a0 : Nat) : Answer :=
  let cs := s.participants true
  if s.taskRuns ∨ s.quadrantOff ∨ s.startBarred cs then s.refuse stBusy 0
  else if s.taskState = 7 then s.refuse stWrongState 0
  else if cs.isEmpty then s.refuse stBadArg 0
  else
    let s := cs.foldl State.taskCore (s.landAll.dropWaits cs)
    let s := taskStartDie.foldl (fun s r => s.setD r 0) s
    let s : State := { s with
      task := ⟨cs, startArch a0, s.lin, true, none, none, false, [], none, true⟩
      slip := Slip.init }
    ((s.newOp 0).setOp 0 1 0).accept 0

/-! SUSPEND (R353, R354, R358). -/

/-- A suspend of kind k in state 1 or 2 that waits for its boundary. -/
def State.suspendOp (s : State) (k : Nat) : State :=
  match k with
  | 1 =>
    let s := s.setOp 1 3 0
    if (s.ops.memtest.map (·.step)) = some 2 then s.setOp 1 4 0 else { s with ops := { s.ops with suspending := s.ops.suspending ++ [1] } }
  | 3 => s.rebondSuspend
  | _ => State.setOp { s with ops := { s.ops with suspending := s.ops.suspending ++ [k] } } k 3 0

def State.cmdSuspend (s : State) (target a0 a1 a2 a3 : Nat) : Answer :=
  match s.named target with
  | none => s.refuse stNoSuchOp 0
  | some k =>
    let st := s.opState k
    if k ≠ 0 ∧ (a0 ≠ 0 ∨ a1 ≠ 0 ∨ a2 ≠ 0 ∨ a3 ≠ 0) then s.refuse stBadCommand target
    else if st ≠ 1 ∧ st ≠ 2 then s.refuse (endedStatus st) target
    else if k ≠ 0 then (s.suspendOp k).accept k
    else
      let save := bit a0 0
      let len := s.longest s.task.parts (bit a0 1) (bit a0 2)
      if (bit a0 3 && !save) || (save && !s.imagePlace a1 a2 len) then s.refuse stBadArg target
      else
        let q : Suspend := ⟨a3, s.lin, save, bit a0 1, bit a0 2, bit a0 3, a1, a2⟩
        (State.setOp { s with task := { s.task with suspend := some q } } 0 3 0).accept 0

/-! RESUME (R353, R355, R356). -/

/-- The task is suspended in place. -/
def State.inPlace (s : State) : Bool := !s.task.away && s.task.parts.all fun c => s.domainOn (groupOf c)

def State.cmdResume (s : State) (target a0 a1 a2 a3 : Nat) : Answer :=
  match s.named target with
  | none => s.refuse stNoSuchOp 0
  | some k =>
    let st := s.opState k
    if k ≠ 0 ∧ (a0 ≠ 0 ∨ a1 ≠ 0 ∨ a2 ≠ 0 ∨ a3 ≠ 0) then s.refuse stBadCommand target
    else if st ≠ 4 then s.refuse (endedStatus st) target
    else if k = 3 then s.rebondResume.accept 3
    else if k ≠ 0 then (s.setOp k 2 0).accept k
    else if !s.inPlace then s.refuse stWrongState target
    else if s.ops.context.isSome then s.refuse stBusy target
    else (State.setOp { s with task := { s.task with arch := startArch a0, accepted := s.lin, waiting := true } } 0 1 0).accept 0

/-- RESUME with FROM = 1: power, initialise and load the groups that are off, then restore (R356). -/
def State.resumeImage (s : State) (cs : List Nat) (a0 a1 a2 : Nat) : State :=
  let off := (List.range 64).filter fun g => !s.domainOn g && cs.any fun c => decide (groupOf c = g)
  let fresh := off.flatMap coresOf
  let s := ((s.landAll.switchDomains off true).resetCores fresh).initMemories fresh false
  let s := (s.setD Reg.CMD_CAUSE 0).setOp 0 1 0
  let s := cs.foldl (fun s c => s.setC Reg.SEQ_RUN c 0) (s.dropWaits cs)
  let s : State := { s with
    task := ⟨cs, startArch a0, s.lin, false, none, none, false, [], none, true⟩
    slip := Slip.init
    ops := { s.ops with resume := some ⟨startArch a0, a1, a2⟩ } }
  let load := fresh.filter s.loadable
  if load.isEmpty then s.beginRestore else s.startLoad 3 load

def State.cmdResumeImage (s : State) (target a0 a1 a2 : Nat) : Answer :=
  let cs := s.participants false
  let st := s.taskState
  if target ≠ 0 ∧ s.named target = none then s.refuse stNoSuchOp 0
  else if target ≠ 0 ∧ s.named target ≠ some 0 then s.refuse stBadArg target
  else if !(st = 0 ∨ st = 4 ∨ st = 6 ∨ st = 7) then s.refuse stWrongState target
  else if (1 ≤ s.opState 3 ∧ s.opState 3 ≤ 3) ∨ s.quadrantOff ∨ s.ops.context.isSome ∨ s.ops.load.isSome ∨ s.startBarred cs then s.refuse stBusy target
  else if cs.isEmpty ∨ !s.imagePlace a1 a2 (s.longest cs false false) then s.refuse stBadArg target
  else
    let s := if target = 0 then s.newOp 0 else s
    (s.resumeImage cs a0 a1 a2).accept 0

/-! CANCEL (R353, R357, R358). -/

/-- A cancelled broadcast leaves its incomplete cores dead. -/
def State.cancelLoad (s : State) : State :=
  match s.ops.load with
  | some l => (State.unpend { (s.incomplete l).foldl State.fwDead s with ops := { s.ops with load := none } } 2).setOp 2 6 0
  | none => (s.unpend 2).setOp 2 6 0

/-- A cancel of a suspended operation of kind k, or one that needs no boundary. -/
def State.cancelNow (s : State) (k : Nat) : State :=
  match k with
  | 1 => s.cancelTest
  | 2 => s.cancelLoad
  | 4 => (s.unpend 4).setOp 4 6 0
  | 5 =>
    let save := match s.ops.context with | some x => x.save | none => true
    let s := s.ctxEnd 6
    if save then s else s.failTask 7
  | _ => s

/-- A cancel of an operation of kind k other than a task. -/
def State.cancelOp (s : State) (k : Nat) : State :=
  let hold := decide (k = 1) && decide (s.ops.memtest.map (·.step) = some 2)
  if k = 3 then s.rebondCancel
  else if s.opState k = 4 ∨ hold then s.cancelNow k
  else { s with ops := { s.ops with cancelling := s.ops.cancelling ++ [k] } }

/-- A cancel of the task: at once when it has failed; of its save first; else at a tick. -/
def State.cancelTaskCmd (s : State) : State :=
  if s.taskState = 7 then s.setOp 0 6 (s.df Reg.CMD_CAUSE)
  else match s.ops.context with
    | some x =>
      if x.save then s.cancelOp 5
      else { s with task := { s.task with cancel := some s.lin } }
    | none =>
      { s with task := { s.task with
        cancel := some s.lin
        suspend := s.task.suspend.map fun q => { q with save := false, off := false } } }

def State.cmdCancel (s : State) (target : Nat) : Answer :=
  match s.named target with
  | none => s.refuse stNoSuchOp 0
  | some k =>
    let st := s.opState k
    if k = 0 ∧ (s.taskRuns ∨ st = 7) then s.cancelTaskCmd.accept 0
    else if k ≠ 0 ∧ s.opLive k then (s.cancelOp k).accept k
    else s.refuse (endedStatus st) target

/-! MEMTEST, BROADCAST, REBOND, REPAIR, RESET. -/

def State.cmdMemtest (s : State) (a0 : Nat) : Answer :=
  if s.taskRuns ∨ s.opLive 1 ∨ s.quadrantOff ∨ s.ops.group ≠ [] then s.refuse stBusy 0
  else (s.startTest (bit a0 0)).accept 1

def State.cmdBroadcast (s : State) : Answer :=
  if s.taskRuns ∨ s.opLive 2 ∨ s.quadrantOff ∨ s.ops.load.isSome then s.refuse stBusy 0
  else (s.startBroadcast 2).accept 2

def State.cmdRebond (s : State) (a0 : Nat) : Answer :=
  if s.ops.context.isSome ∨ s.opLive 3 ∨ s.quadrantOff then s.refuse stBusy 0
  else if a0 % 64 ≠ 0 then s.refuse stBadArg 0
  else (s.rebondStart a0).accept 3

def State.cmdRepair (s : State) : Answer :=
  if s.opLive 4 then s.refuse stBusy 0
  else
    let s := s.startRepairs
    (if s.repairs.isEmpty then s.setOp 4 5 0 else s).accept 4

/-- A core of the group belongs to a task, or another operation is under way (R349). -/
def State.groupBusy (s : State) (g : Nat) : Bool :=
  (s.taskRuns && s.task.parts.any fun c => decide (groupOf c = g)) || [1, 2, 3, 4, 5].any s.opLive

def State.cmdReset (s : State) (a0 : Nat) : Answer :=
  match fld a0 1 0 with
  | 0 => ⟨(s.wholeReset 3).tryStart, stAccepted, 0⟩
  | 1 => ⟨s.partReset, stAccepted, 0⟩
  | 2 => if s.groupBusy (fld a0 7 2) then s.refuse stBusy 0 else ⟨s.groupStart [fld a0 7 2], stAccepted, 0⟩
  | _ => s.refuse stBadArg 0

/-! The page. -/

/-- ARG bits that R351 does not list for a code are zero. -/
def argsListed (code a0 a1 a2 a3 : Nat) : Bool :=
  match code with
  | 1 => decide (a0 < 16) && decide (a1 = 0) && decide (a2 = 0) && decide (a3 = 0)
  | 2 => decide (a0 < 16) && decide (a2 < 2 ^ 32) && decide (a3 < 2 ^ 40)
  | 3 => decide (a0 < 32) && decide (a2 < 2 ^ 32) && decide (a3 = 0)
  | 5 => decide (a0 < 2) && decide (a1 = 0) && decide (a2 = 0) && decide (a3 = 0)
  | 7 => decide (a0 < 2 ^ 27) && decide (a1 = 0) && decide (a2 = 0) && decide (a3 = 0)
  | 9 => decide (a0 < 2 ^ 8) && decide (a1 = 0) && decide (a2 = 0) && decide (a3 = 0)
  | 4 | 6 | 8 => decide (a0 = 0) && decide (a1 = 0) && decide (a2 = 0) && decide (a3 = 0)
  | _ => false

/-- A command before phase 7 that is not refused: RESET, and SUSPEND, RESUME or CANCEL of bring-up's own test or broadcast (R350). -/
def State.early (s : State) (code target : Nat) : Bool :=
  decide (code = 9) || ((decide (code = 2) || decide (code = 3) || decide (code = 4)) && (decide (s.named target = some 1) || decide (s.named target = some 2)))

/-- What a command does. -/
def State.carry (s : State) (code target a0 a1 a2 a3 : Nat) : Answer :=
  if s.df Reg.BOOT_PHASE < 7 ∧ !s.early code target then s.refuse stNotReady 0
  else if !argsListed code a0 a1 a2 a3 then s.refuse stBadCommand 0
  else match code with
    | 1 => s.cmdStart a0
    | 2 => s.cmdSuspend target a0 a1 a2 a3
    | 3 => if bit a0 4 then s.cmdResumeImage target a0 a1 a2 else s.cmdResume target a0 a1 a2 a3
    | 4 => s.cmdCancel target
    | 5 => s.cmdMemtest a0
    | 6 => s.cmdBroadcast
    | 7 => s.cmdRebond a0
    | 8 => s.cmdRepair
    | 9 => s.cmdReset a0
    | _ => s.refuse stBadCommand 0

/-- The COMMAND word's address. -/
def commandAddr : Nat := Reg.CMD_CODE.addr 0 0

/-- A COMMAND write on an accepted path: dropped while BUSY, else accepted in this cycle; its RESULT follows (R350). -/
def State.command (s : State) (code seq target : Nat) : State :=
  if s.df Reg.CMD_BUSY = 1 then (s.bumpD Reg.CMD_DROPPED 1).note 0x0B06 noUnit []
  else
    let a := s.carry code target (s.df Reg.CMD_ARG0) (s.df Reg.CMD_ARG1) (s.df Reg.CMD_ARG2) (s.df Reg.CMD_ARG3)
    if code = 9 ∧ a.status = stAccepted ∧ fld (s.df Reg.CMD_ARG0) 1 0 = 0 then a.next
    else State.setD { a.next with ops := { a.next.ops with result := some ⟨a.status, seq, a.op⟩ } } Reg.CMD_BUSY 1

/-- A write of the CMD page on another path: ignored and recorded (R350). -/
def State.cmdRefused (s : State) : State := (s.countRefused false 0 10).refuseWord 0x0B05 commandAddr

/-- A command with its ARG words (R350, R351). -/
def State.give (s : State) (path : Path) (code seq target a0 a1 a2 a3 : Nat) : State :=
  if path = .other then s.cmdRefused
  else
    let s := (((s.setD Reg.CMD_ARG0 a0).setD Reg.CMD_ARG1 a1).setD Reg.CMD_ARG2 a2).setD Reg.CMD_ARG3 a3
    s.command code (seq % 2 ^ 16) (target % 2 ^ 32)

/-- ARG0 with a field that the row fixes. -/
def withBits (a hi lo v : Nat) : Nat := putFld a hi lo v

def execStart (path : Path) (seq target a0 a1 a2 a3 : Nat) (s : State) : Host.Outcome State Fault Refusal :=
  s.live fun s => s.give path 1 seq target a0 a1 a2 a3
def execSuspend (path : Path) (seq target a0 a1 a2 a3 : Nat) (s : State) : Host.Outcome State Fault Refusal :=
  s.live fun s => s.give path 2 seq target a0 a1 a2 a3
/-- RESUME with FROM = 0. -/
def execResume (path : Path) (seq target a0 a1 a2 a3 : Nat) (s : State) : Host.Outcome State Fault Refusal :=
  s.live fun s => s.give path 3 seq target (withBits a0 4 4 0) a1 a2 a3
/-- RESUME with FROM = 1. -/
def execResumeFromImage (path : Path) (seq target a0 a1 a2 a3 : Nat) (s : State) : Host.Outcome State Fault Refusal :=
  s.live fun s => s.give path 3 seq target (withBits a0 4 4 1) a1 a2 a3
def execCancel (path : Path) (seq target a0 a1 a2 a3 : Nat) (s : State) : Host.Outcome State Fault Refusal :=
  s.live fun s => s.give path 4 seq target a0 a1 a2 a3
def execMemtest (path : Path) (seq target a0 a1 a2 a3 : Nat) (s : State) : Host.Outcome State Fault Refusal :=
  s.live fun s => s.give path 5 seq target a0 a1 a2 a3
def execBroadcast (path : Path) (seq target a0 a1 a2 a3 : Nat) (s : State) : Host.Outcome State Fault Refusal :=
  s.live fun s => s.give path 6 seq target a0 a1 a2 a3
def execRebond (path : Path) (seq target a0 a1 a2 a3 : Nat) (s : State) : Host.Outcome State Fault Refusal :=
  s.live fun s => s.give path 7 seq target a0 a1 a2 a3
def execRepair (path : Path) (seq target a0 a1 a2 a3 : Nat) (s : State) : Host.Outcome State Fault Refusal :=
  s.live fun s => s.give path 8 seq target a0 a1 a2 a3
/-- RESET with SCOPE 0, 1 and 2. -/
def execWholeDieReset (path : Path) (seq target a0 a1 a2 a3 : Nat) (s : State) : Host.Outcome State Fault Refusal :=
  s.live fun s => s.give path 9 seq target (withBits a0 1 0 0) a1 a2 a3
def execComputePartReset (path : Path) (seq target a0 a1 a2 a3 : Nat) (s : State) : Host.Outcome State Fault Refusal :=
  s.live fun s => s.give path 9 seq target (withBits a0 1 0 1) a1 a2 a3
def execCoreGroupReset (path : Path) (seq target a0 a1 a2 a3 : Nat) (s : State) : Host.Outcome State Fault Refusal :=
  s.live fun s => s.give path 9 seq target (withBits a0 1 0 2) a1 a2 a3

/-- The foreman writes RESULT and clears BUSY (R350). -/
def execCmdResult (s : State) : Host.Outcome State Fault Refusal :=
  s.live fun s =>
    match s.ops.result with
    | none => s
    | some r =>
      let s := ((s.setD Reg.CMD_STATUS r.status).setD Reg.CMD_RSEQ r.seq).setD Reg.CMD_OP_ID r.op
      State.setD { s with ops := { s.ops with result := none } } Reg.CMD_BUSY 0

end Sys2Proof.Machine
end

