-- ==== Sys2Proof/Machine/Identity.lean ====
section
/-!
DEFINITION. Attestation (R396–R398).
-/

namespace Sys2Proof.Machine

/-- Octets of a register of 8-byte words (R389). -/
def State.octets (s : State) (r : Row) (n : Nat) : List Byte := (List.range n).flatMap fun w => toBytes 8 (s.rd r 0 w)

/-- The configuration record behind M_CFG (R396). -/
def State.configRecord (s : State) : List Byte :=
  let flags := s.df Reg.CTRL_SLIP_ENABLE + 2 * s.df Reg.CTRL_QUEUE_MODE + 4 * s.df Reg.MARK_LOCKED + 8 * s.df Reg.MARK_DEBUG_ALLOW +
    16 * s.df Reg.YARD_SCRUB_EN
  toBytes 2 (s.df Reg.PLACE_PACKAGE_ID) ++ toBytes 1 (s.df Reg.PLACE_DIE_ID) ++ toBytes 1 (s.df Reg.PLACE_RING_SIZE) ++
  toBytes 2 (s.df Reg.PLACE_ROLE) ++ toBytes 2 (s.df Reg.RING_CURRENT) ++
  toBytes 4 (s.df Reg.PLACE_PEER) ++ toBytes 4 (s.df Reg.CTRL_PERIOD) ++ toBytes 4 (s.df Reg.CTRL_SLACK_RESERVE) ++
  toBytes 4 (s.df Reg.CTRL_SLIP_LEAD) ++ toBytes 4 flags ++
  toBytes 1 (s.df Reg.MARK_SVN) ++ toBytes 1 (s.df Reg.MARK_ACTIVE_SLOT) ++ toBytes 1 (s.df Reg.MARK_REVOKED) ++ [0#8] ++
  toBytes 4 (s.df Reg.FLOOR_GEN) ++ toBytes 2 (s.df Reg.FLOOR_FULL_COUNT) ++ toBytes 2 (s.df Reg.FLOOR_NARROW_COUNT) ++
  toBytes 2 (s.df Reg.FLOOR_DEAD_COUNT) ++ List.replicate 22 0#8

/-- GO while no request is under way: latch the nonce, set BUSY, zero REPORT (R397). -/
def State.attestGo (s : State) : State :=
  let q : Attest := ⟨s.octets Reg.ATTEST_NONCE 4, s.configRecord, s.now⟩
  let s := (s.setD Reg.ATTEST_BUSY 1).setD Reg.ATTEST_DONE 0
  let s := (List.range 72).foldl (fun s w => s.wr Reg.ATTEST_REPORT 0 w 0) s
  { s with attest := some q }

/-- Bytes 0x000 to 0x0BF of the report that becomes report number `seq` (R398; the number it carries: notes/assumptions/36.md). -/
def State.reportBody (s : State) (q : Attest) (seq : Nat) : List Byte :=
  let flags := s.df Reg.MARK_LOCKED + 2 * s.df Reg.MARK_DEBUG_ALLOW + 4 * s.df Reg.DEBUG_MODE + 8 * s.df Reg.BOOT_WARM_TAKEN
  toBytes 4 0x52415A51 ++ toBytes 2 1 ++ toBytes 1 0xA1 ++ toBytes 1 flags ++
  toBytes 8 (s.df Reg.MARK_SERIAL) ++
  toBytes 1 (s.df Reg.MARK_ACTIVE_SLOT) ++ toBytes 1 (s.df Reg.MARK_REVOKED) ++ toBytes 1 (s.df Reg.MARK_SVN) ++ [0#8] ++
  toBytes 4 (s.df Reg.LEDGER_HOURS) ++ toBytes 2 (s.df Reg.LEDGER_CYCLES) ++ toBytes 2 (s.df Reg.RING_CURRENT) ++ List.replicate 4 0#8 ++
  toBytes 8 q.time ++ toBytes 4 seq ++ List.replicate 4 0#8 ++
  q.nonce ++ s.octets Reg.MARK_M_FW 4 ++ s.octets Reg.MARK_M_CORE 4 ++ sha256 q.config ++ List.replicate 16 0#8

/-- The whole report: its body and the signature over it, most significant octet first (R389, R398; notes/assumptions/33.md). -/
def State.report (s : State) (q : Attest) (seq : Nat) : List Byte :=
  let b := s.reportBody q seq
  b ++ toOctets 384 (Config.signature b).toNat

/-- How a request ends: PUF_FAIL, NOT_VERIFIED or OK (R391, R397). -/
def State.attestStatus (s : State) : Nat :=
  if s.df Reg.MARK_PUF_OK = 0 then 1 else if s.df Reg.MARK_VERIFIED = 0 then 2 else 0

/-- The foreman ends the request: with status OK it writes the report, counts it and sets DONE; ATTEST is recorded in every case (R397). -/
def State.attestDone (s : State) (q : Attest) : State :=
  let st := s.attestStatus
  let s : State := { s with attest := none }
  let s := (s.setD Reg.ATTEST_BUSY 0).setD Reg.ATTEST_STATUS st
  let s :=
    if st = 0 then
      let seq := s.df Reg.ATTEST_REPORT_SEQ + 1
      let b := s.report q seq
      let s := (List.range 72).foldl (fun s w => s.wr Reg.ATTEST_REPORT 0 w (ofBytes ((b.drop (8 * w)).take 8))) s
      (s.setD Reg.ATTEST_REPORT_SEQ seq).setD Reg.ATTEST_DONE 1
    else s
  s.note 0x0C04 noUnit [st, s.df Reg.ATTEST_REPORT_SEQ]

def execAttestReportDone (s : State) : Host.Outcome State Fault Refusal :=
  s.live fun s => match s.attest with
    | none => s
    | some q => s.attestDone q

end Sys2Proof.Machine
end

