-- ==== Sys2Proof/Machine/Debug.lean ====
section
/-!
DEFINITION. The freeze watch (R403–R406), the TAP and its instruments but MEMRD (R407, R408, R446), debug mode (R409) and the sync trace (R410, R411).
-/

namespace Sys2Proof.Machine

/-! Driving FREEZE_N (R403): 1 a register write, 2 the trowel, 3 FREEZE_CTL. -/

def State.drive (s : State) (source : Nat) : State :=
  if s.dbg.drives.contains source then s else { s with dbg := { s.dbg with drives := s.dbg.drives ++ [source] } }

/-- The die's own drive is released, whatever set it; the path is kept for THAW (R403, R406). -/
def State.undrive (s : State) (path : Nat) : State := { s with dbg := { s.dbg with drives := [], releaser := path } }

/-- FREEZE_N is seen low: the last state change is in the cycle after, and every clock that a PLL derives stops (R404). The source is the
first driver seen, 0 when this die does not drive the pin (R406). -/
def State.freeze (s : State) : State :=
  if s.frozen ∨ !s.boot.plinth then s
  else
    let s := (s.reachCycle (s.tickCycle + 2)).owedAnswer 2 [[.text "frozen"]]
    { s with frozen := true, dbg := { s.dbg with source := s.dbg.drives.headD 0, releaser := 0 } }

def execFreezeNLow (s : State) : Host.Outcome State Fault Refusal := .next s.freeze

/-- FREEZE_N is seen high after `refs` REFCLK periods: the clocks restart, FREEZE and THAW are recorded, a latched coolant stop is
applied first, and a COMP_RESET_N pulse of the freeze takes effect (R404, R406, R439). -/
def State.thaw (s : State) (refs : Nat) : State :=
  if !s.frozen ∨ s.dbg.drives ≠ [] then s
  else
    let s : State := { s with frozen := false }
    let s := if s.dbg.latched then State.stopClocks { s with dbg := { s.dbg with latched := false } } 0 [] else s
    let s := ((s.bumpD Reg.DEBUG_FREEZES 1).setD Reg.DEBUG_LAST_FROZEN (min refs (2 ^ 32 - 1))).setD Reg.DEBUG_LAST_SOURCE s.dbg.source
    let s := (s.note 0x0D00 noUnit [refs, s.dbg.source]).note 0x0D01 noUnit [s.dbg.releaser]
    if s.boot.compHeld ∧ s.df Reg.BOOT_PHASE = 7 then State.partReset { s with boot := { s.boot with compHeld := false } } else s

def execFreezeNHigh (refs : Nat) (s : State) : Host.Outcome State Fault Refusal := .next (s.thaw refs)

/-! Debug mode (R409, R428). -/

/-- Domain 78 is on while the TAP instruction is IJTAG or MODE is 1. -/
def State.debugDomain (s : State) : State := s.switchDomains [78] (decide (s.dbg.tap = 0x10) || decide (s.df Reg.DEBUG_MODE = 1))

/-- EN clears, and READY with it (notes/assumptions/37.md). -/
def State.traceOff (s : State) : State := (s.setD Reg.DEBUG_EN 0).setD Reg.DEBUG_READY 0

/-- After lockdown MODE is written only under DEBUG_ALLOW. -/
def State.debugAllowed (s : State) : Bool := decide (s.df Reg.MARK_LOCKED = 0) || decide (s.df Reg.MARK_DEBUG_ALLOW = 1)

/-- Write MODE on an accepted path: a change is recorded, and clearing it clears EN. -/
def State.setMode (s : State) (v : Nat) : State :=
  if s.df Reg.DEBUG_MODE = v then s
  else
    let s := ((s.setD Reg.DEBUG_MODE v).note 0x0D02 noUnit []).debugDomain
    if v = 0 then s.traceOff else s

/-! The trace (R410, R411). -/

/-- Size of a core's region, and the yard offset of record slot `k` of core c. -/
def State.traceSize (s : State) : Nat := 2 ^ s.df Reg.DEBUG_SIZE_LOG
def State.traceSlot (s : State) (c k : Nat) : Nat := s.df Reg.DEBUG_BASE + c * 64 * s.traceSize + 64 * k

/-- SIZE_LOG and BASE give regions that lie within the yard at a multiple of their size. -/
def traceFits (size base : Nat) : Bool := decide (base % (64 * 2 ^ size) = 0) && decide (base + 1024 * 64 * 2 ^ size ≤ yardSize)

/-- A write of the word DEBUG.TRACE, field by field; a write whose BASE or size does not fit is ignored whole (notes/assumptions/38.md).
The Boolean says that a field was refused. -/
def State.traceWrite (s : State) (v : Nat) : State × Bool :=
  let en := fld v 0 0
  let log := fld v 5 2
  let size := if 4 ≤ log ∧ log ≤ 11 then log else s.df Reg.DEBUG_SIZE_LOG
  if s.taskRuns ∨ !traceFits size (fld v 32 6) then (s, true)
  else
    let old := s.df Reg.DEBUG_EN
    let late := decide (en = 1) && decide (s.df Reg.DEBUG_MODE = 0)
    let s := ((s.setD Reg.DEBUG_STOP (fld v 1 1)).setD Reg.DEBUG_SIZE_LOG size).setD Reg.DEBUG_BASE (fld v 32 6)
    let s := if en = 0 then s.traceOff else if late then s else s.setD Reg.DEBUG_EN 1
    let s := if s.df Reg.DEBUG_EN = 1 ∧ old = 0 then { s with dbg := { s.dbg with trace := [] } } else s
    (s, late || decide (size ≠ log) || decide (fld v 33 33 ≠ s.df Reg.DEBUG_READY) || decide (fld v 63 34 ≠ 0))

/-- Zero bytes lo to hi − 1. -/
def State.zeroRun (s : State) (lo hi : Nat) : State :=
  { s with
    mem := s.mem.filter fun x => decide (x.1 < lo) || decide (hi ≤ x.1)
    marks := s.marks.filter fun x => decide (x.1 < lo) || decide (hi ≤ x.1) }

/-- The regions of the cores in TRACE_MASK are zeroed and READY sets. -/
def execTraceReady (s : State) : Host.Outcome State Fault Refusal :=
  s.clocked fun s =>
    if s.df Reg.DEBUG_EN = 0 ∨ s.df Reg.DEBUG_READY = 1 then s
    else
      let cs := (List.range 1024).filter fun c => bit (s.rd Reg.DEBUG_TRACE_MASK 0 (c / 64)) (c % 64)
      (cs.foldl (fun s c => s.zeroRun (s.traceSlot c 0) (s.traceSlot (c + 1) 0)) s).setD Reg.DEBUG_READY 1

/-- The 64 bytes of a trace record. -/
def traceBytes (r : TraceRec) (seq drops : Nat) : List Byte :=
  let w1 := seq % 2 ^ 32 + r.kind % 16 * 2 ^ 32 + r.index % 256 * 2 ^ 36 + b2n (decide (drops ≠ 0)) * 2 ^ 44 + 2 ^ 45 + min drops 255 * 2 ^ 46
  toBytes 8 r.time ++ toBytes 8 w1 ++ toBytes 8 r.value ++ toBytes 8 r.aux ++ toBytes 8 r.issued ++ toBytes 8 (r.peer % 2 ^ 30) ++
  List.replicate 16 0#8

/-- The oldest record of core c's FIFO reaches its slot in the yard; past a full region with STOP set it is dropped (R411). -/
def State.traceOut (s : State) (c : Nat) : State :=
  let t := Sparse.get ⟨0, [], 0⟩ s.dbg.trace c
  match t.fifo with
  | [] => s
  | r :: rest =>
    let put (t : TraceCore) : State := { s with dbg := { s.dbg with trace := Sparse.put ⟨0, [], 0⟩ s.dbg.trace c t } }
    if s.df Reg.DEBUG_STOP = 1 ∧ s.traceSize ≤ t.seq then
      (put { t with fifo := rest, drops := t.drops + 1 }).bumpD Reg.DEBUG_TRACE_DROPPED 1
    else
      let s := put { seq := (t.seq + 1) % 2 ^ 32, fifo := rest, drops := 0 }
      (s.store (s.traceSlot c (t.seq % s.traceSize)) (traceBytes r t.seq t.drops)).bumpD Reg.DEBUG_TRACE_WRITTEN 1

def execTraceRecord (c : Nat) (s : State) : Host.Outcome State Fault Refusal :=
  s.clocked fun s => if s.df Reg.DEBUG_READY = 1 then s.traceOut c else s

/-! The TAP (R407, R408, R446): its clock is TCK, so a freeze does not stop it. -/

/-- The TAP takes an instruction; `out` is what its data register shifts out. -/
def State.tapTake (s : State) (code : Nat) (out : List Nat) : State :=
  State.debugDomain { s with dbg := { s.dbg with tap := code, shift := out, notFrozen := false } }

/-- The identification register: version 1, part 0x1024, manufacturer 0x2E3. -/
def idcode : Nat := 1 * 2 ^ 28 + 0x1024 * 2 ^ 12 + 0x2E3 * 2 + 1

def execIdcode (s : State) : Host.Outcome State Fault Refusal := .next (s.tapTake 0x01 [idcode])

def execIjtag (s : State) : Host.Outcome State Fault Refusal := .next (s.tapTake 0x10 [])

/-- BYPASS, and every code that is no other instruction's. -/
def execBypass (code : Nat) (s : State) : Host.Outcome State Fault Refusal :=
  .next (s.tapTake (if code % 256 = 0x01 ∨ code % 256 = 0x10 then 0xFF else code % 256) [0])

/-- TRST_N: the TAP is reset, with IDCODE selected. -/
def execTapReset (s : State) : Host.Outcome State Fault Refusal := .next (s.tapTake 0x01 [])

/-- The network is reached: IJTAG is selected and its domain is on. -/
def State.network (s : State) : Bool := decide (s.dbg.tap = 0x10) && s.domainOn 78

/-- Set or release DRIVE; the instrument works through lockdown. -/
def execFreezeCtl (on : Bool) (s : State) : Host.Outcome State Fault Refusal :=
  .next (if !s.network then s
    else
      let s : State := { s with dbg := { s.dbg with shift := [b2n (s.dbg.drives.contains 3)], notFrozen := false } }
      if on then s.drive 3 else s.undrive 3)

/-- What a state instrument shifts out: zeros with NOT_FROZEN while the die runs, zeros after lockdown without DEBUG_ALLOW. -/
def State.shiftOut (s : State) (out : List Nat) : State :=
  if !s.network then s
  else if !s.frozen then { s with dbg := { s.dbg with shift := out.map fun _ => 0, notFrozen := true } }
  else { s with dbg := { s.dbg with shift := if s.debugAllowed then out else out.map fun _ => 0, notFrozen := false } }

/-- A sparse store as numbers. -/
def pairNums (l : Sparse Nat) : List Nat := l.flatMap fun x => [x.1, x.2]

/-- The sequencer of a core as numbers; a cause by its counter's place in the SEQ page. -/
def Core.seqNums (k : Core) : List Nat :=
  let q := k.seq
  [q.len, q.tick, q.start, b2n q.inCourse, q.bundle.toNat, q.index, q.cycle, q.lastSlot, q.nextIndex, q.nextCycle, q.held, q.drainAt,
    q.endEntry.getD 0] ++ (q.cause.map fun x => x.row.off).toList ++ q.extra.flatMap fun x => [x.1.row.off, x.2]

/-- Run-ahead and what is in the pipelines of a core, as numbers. -/
def Core.pipeNums (k : Core) : List Nat :=
  (k.shadow.flatMap fun x => [x.index, x.bundle.toNat, x.depth, x.src, ofBytes x.data]) ++
  (k.rowWrites.flatMap fun w => [w.cycle, w.t, w.row] ++ w.lanes.flatMap fun x => [x.1, x.2.toNat]) ++
  (k.tm.fills.flatMap fun f => [f.buf, f.lo, f.hi, f.ready, f.bank]) ++ pairNums k.tm.accDone ++ pairNums k.tm.expLast ++ pairNums k.tm.sReady ++
  k.tm.tloads ++ k.tm.swapAt.toList ++ [k.tm.mmNext, k.tm.vNext, k.tm.tNext, k.tm.tloadNext, k.tm.lastLookup, k.tm.lastShadow]

/-- What stands in core c's sequencer, scalar registers, wait slots, run-ahead and pipelines (R408). -/
def State.coreFlops (s : State) (c : Nat) : List Nat :=
  let k := s.core c
  (k.sreg.toList.map fun v => v.toNat) ++ (k.lc.toList.map fun v => v.toNat) ++ k.seqNums ++
  ((List.range 16).flatMap fun i => [(s.slotWords c i).1, (s.slotWords c i).2]) ++ k.pipeNums

/-- CORESCAN c. -/
def execCorescan (c : Nat) (s : State) : Host.Outcome State Fault Refusal := .next (s.shiftOut (Config.coreScan (s.coreFlops c)))

end Sys2Proof.Machine
end

