-- ==== Sys2Proof/Machine/Wake.lean ====
section
/-!
DEFINITION. The ends of condition holds: credits, wait results and arch closures, and the course tick; and what a core does in the cycle in which it issues again (R42–R57, R242, R252, R274, R319, R331).
-/

namespace Sys2Proof.Machine

/-- Core c issues again: a COURSE_END that has issued retires or drains, the mover takes up its data, and the rest of the limiter window holds
(R46, R47, R319). -/
def State.goOn (s : State) (c : Nat) : State :=
  let s := s.tryRetire c
  (s.flushMoves c (s.core c).moveIn.length).windowRest c

/-- The movers of the participants take up their data at a course start (R46). -/
def State.flushAll (s : State) : State := s.task.parts.foldl (fun s c => s.flushMoves c (s.core c).moveIn.length) s

/-- The last packet of core c that waited for a credit has been accepted: a Credit hold ends, and a drain has one condition less (R46, R48). -/
def State.creditsCame (s : State) (c : Nat) : State :=
  if !(s.core c).outQ.isEmpty then s
  else if s.heldFor c .credit then (s.release c 0 .credit).goOn c
  else if s.heldFor c .drain then s.drainNow c
  else s

/-- Credits return on a port (0 to 7), or on the mesh router of core c (port 8) (R274). -/
def execCreditReturn (port c vl cls n : Nat) (s : State) : Host.Outcome State Fault Refusal :=
  if port < 8 then s.live fun s => s.creditPort port (vl % 4) (cls % 2) n
  else s.clocked fun s =>
    let waited := !(s.core c).outQ.isEmpty
    let s := s.creditMesh c (vl % 4) n
    if waited then s.creditsCame c else s

/-- The result of a wait reaches its core: the next bundle issues two cycles after the wait counts as satisfied, and after an AWAIT arch
toothing adds its Power hold (R242, R252, R331). -/
def execWake (c : Nat) (s : State) : Host.Outcome State Fault Refusal :=
  s.clocked fun s =>
    match s.sync.results.find? fun r => decide (r.core = c) with
    | none => s
    | some r =>
      let s := { s with sync := { s.sync with results := s.sync.results.erase r } }
      if s.heldFor c .wait then
        let s := s.releaseAt c (r.at_ + 1) .wait
        (if r.arch then s.countHold c (s.wakeTooth c) .power else s).goOn c
      else s

/-- The closure cycle of an arch whose closure is due (R252, R253). -/
def execArchClosure (a : Nat) (s : State) : Host.Outcome State Fault Refusal :=
  s.clocked fun s =>
    match (s.phase a).ready with
    | some x => (s.inCycle x fun s => s.closeArch a).flushAll
    | none => s

def execCourseTick (s : State) : Host.Outcome State Fault Refusal := .next (if s.clocksRun then s.courseTick.flushAll else s)

end Sys2Proof.Machine
end

