-- ==== Sys2Proof/Machine/Registers.lean ====
section
/-!
DEFINITION. Writes of register words: the judgement of each field by its own rule, refusals and their events, triggers, and the commands that are writes of one register (R38, R64, R89, R129, R146, R162, R181, R211, R250, R259, R292, R312, R320, R330, R331, R338, R350, R378, R399, R409–R410, R413, R416–R422, R429).
-/

namespace Sys2Proof.Machine

/-- One field of a written word: the register, its unit and copy, and the written bits. -/
structure FieldWrite where
  row : Row
  unit : Nat
  copy : Nat
  bits : Nat
  deriving DecidableEq, Repr

/-- The fields that a written word covers. -/
def fieldWrites (rows : List Row) (u page o v : Nat) : List FieldWrite :=
  (wordFields rows o).map fun x => ⟨x.1, x.1.unitOf u page, x.2.1, fld v (x.2.2 + x.1.width - 1) x.2.2⟩

/-- The written bits that no field covers. -/
def spareBits (rows : List Row) (o v : Nat) : Nat :=
  v - ((wordFields rows o).map fun x => fld v (x.2.2 + x.1.width - 1) x.2.2 * 2 ^ x.2.2).foldl (· + ·) 0

/-- How a field's own rule judges a written value: taken or refused, and the event that the rule names for a refusal, 0 for none. -/
structure Verdict where
  ok : Bool
  event : Nat
  deriving DecidableEq, Repr

def Verdict.fine : Verdict := ⟨true, 0⟩
def Verdict.when (p : Bool) : Verdict := ⟨p, 0⟩

/-- A core's RUN is 1 or 2. -/
def State.running (s : State) (c : Nat) : Bool := decide (s.run c = 1) || decide (s.run c = 2)

/-- The rules of writable core page fields. -/
def State.judgeCore (s : State) (c : Nat) (r : Row) (v : Nat) : Verdict :=
  match r.page with
  | 0 => .when (decide (s.run c = 0) && decide (v ≤ 12287))
  | 2 => .when (decide (r ≠ Reg.ACC_DBG_ENTRY) || decide (v < 12))
  | 3 => ⟨!s.running c, 0x0109⟩
  | 4 => ⟨!s.running c, 0x0305⟩
  | 5 => ⟨!s.running c, 0x0407⟩
  | 6 => .when (decide (r ≠ Reg.TPL_IMG_SEG) || decide (v < 1280))
  | 8 => ⟨!s.running c, 0x010A⟩
  | 10 => ⟨!s.running c, 0x0711⟩
  | _ => .fine

/-- The rules of the four tick settings: no task, a value in range, and PERIOD at least twice the other two (R38). -/
def State.judgeTick (s : State) (r : Row) (v : Nat) : Verdict :=
  let half := s.df Reg.CTRL_PERIOD / 2
  if r = Reg.CTRL_QUEUE_MODE then .fine
  else if s.taskRuns then ⟨false, 0x0100⟩
  else if r = Reg.CTRL_PERIOD then
    if v < 850 ∨ 16745000 < v then .when false
    else ⟨decide (2 * s.df Reg.CTRL_SLACK_RESERVE ≤ v) && decide (2 * s.df Reg.CTRL_SLIP_LEAD ≤ v), 0x0100⟩
  else if r = Reg.CTRL_SLACK_RESERVE then .when (decide (v ≤ half))
  else if r = Reg.CTRL_SLIP_LEAD then .when (decide (64 ≤ v) && decide (v ≤ half))
  else .fine

/-- Toothing fields (R330, R331). -/
def toothRows : List Row :=
  [Reg.POWER_TOOTH_PATTERN, Reg.POWER_TOOTH_TICK, Reg.POWER_TOOTH_ARCH, Reg.POWER_TOOTH_ARM_LEVEL, Reg.POWER_TOOTH_TABLE]

/-- The rules of POWER fields outside the envelope word. -/
def State.judgePower (s : State) (r : Row) (v : Nat) : Verdict :=
  if toothRows.contains r then
    if s.taskRuns then ⟨false, 0x0A08⟩
    else if r = Reg.POWER_TOOTH_PATTERN then .when (decide (v < 4) || decide (v = 7))
    else .when (decide (r ≠ Reg.POWER_TOOTH_ARCH) || decide (v ≠ 3))
  else if r = Reg.POWER_CURRENT_LIMIT then .when (decide (600 ≤ v) && decide (v ≤ 1200))
  else if r = Reg.POWER_DROOP_THRESH then .when (decide (4 ≤ v) && decide (v ≤ 64))
  else if r = Reg.POWER_THROTTLE_C then .when (decide (60 ≤ v) && decide (v ≤ 105))
  else .fine

/-- The rules of writable die page fields. -/
def State.judgeDie (s : State) (path : Path) (r : Row) (v : Nat) : Verdict :=
  match r.page with
  | 0 => .when s.switchable
  | 4 => s.judgeTick r v
  | 6 => if r = Reg.ARCH_CROSS ∨ r = Reg.ARCH_DIES ∨ r = Reg.ARCH_MASK then ⟨!s.taskRuns, 0x070F⟩ else .fine
  | 8 => .when (decide (850 ≤ v) && (decide (s.df Reg.REBOND_STATE = 0) || decide (4 < s.df Reg.REBOND_STATE)))
  | 9 => s.judgePower r v
  | 10 => .when (decide (r ≠ Reg.CMD_PARTICIPANTS) || !s.taskRuns)
  | 12 => .when ((decide (path = .sideband) || decide (path = .trowel)) && decide (s.df Reg.LEDGER_ACK_SEQ ≤ v) && decide (v ≤ s.df Reg.LEDGER_HEAD_SEQ))
  | 24 =>
    if r = Reg.DEBUG_MODE then .when s.debugAllowed
    else if r = Reg.DEBUG_BAUD then .when (decide (115200 ≤ v) && decide (v ≤ 3000000))
    else .when (!s.taskRuns)
  | _ => .fine

/-- The judgement of one field (R417, R420). -/
def State.judge (s : State) (path : Path) (f : FieldWrite) : Verdict :=
  match f.row.acc with
  | .ro => ⟨decide (f.bits = s.field f.row f.unit f.copy), if f.row.core && decide (f.row.page = 3) && s.running f.unit then 0x0109 else 0⟩
  | .wo | .w1c => .fine
  | .rwl => .when (decide (s.df Reg.MARK_LOCKED = 0))
  | .rw | .rws => if f.row.core then s.judgeCore f.unit f.row f.bits else s.judgeDie path f.row f.bits

/-- The job epoch is written: recorded with old and new value, and the stale captures clear (R292, R293). -/
def State.setEpoch (s : State) (v : Nat) : State :=
  let old := s.df Reg.RING_CURRENT
  let s := (s.setD Reg.RING_CURRENT v).note 0x080A noUnit [old, v]
  let s := [Reg.RING_STALE_EPOCH, Reg.RING_STALE_PKG, Reg.RING_STALE_DIE, Reg.RING_STALE_VALID].foldl (fun s r => s.setD r 0) s
  { s with net := { s.net with staleDies := [] } }

/-- A field takes its written value. -/
def State.putField (s : State) (f : FieldWrite) : State :=
  match f.row.acc with
  | .ro | .wo => s
  | .w1c => s.wr f.row f.unit f.copy (s.rd f.row f.unit f.copy &&& (2 ^ f.row.width - 1 - f.bits))
  | _ =>
    if f.row = Reg.DRESS_BEYLER then s.setBeyler f.unit f.bits
    else if f.row = Reg.DIR_DOM_OFF then s.domOff f.bits
    else if f.row = Reg.DIR_DOM_OFF_YQ then s.domOffYq f.bits
    else if f.row = Reg.PLACE_PACKAGE_ID then
      State.setD { s with ring := { s.ring with placed := true } } Reg.PLACE_PACKAGE_ID f.bits
    else if f.row = Reg.RING_CURRENT then s.setEpoch f.bits
    else if f.row = Reg.LEDGER_ACK_SEQ then s.ackSeq f.bits
    else if f.row = Reg.DEBUG_MODE then s.setMode f.bits
    else s.wr f.row f.unit f.copy f.bits

/-- GO of the hand-set word: ignored for KIND 3 and a dead core (R257). -/
def State.handsetGo (s : State) : State × Bool :=
  let c := s.df Reg.ARCH_CORE
  let k := s.df Reg.ARCH_KIND
  if k = 3 ∨ !s.coreAlive c then (s, true)
  else if !s.clocksRun then (s, false)
  else (s.handset c k (s.df Reg.ARCH_INDEX) (s.df Reg.ARCH_HANDSET_VALUE), false)

/-- A trigger written with a 1 acts; the Boolean says that its own rule ignores it. -/
def State.act (s : State) (f : FieldWrite) : State × Bool :=
  let r := f.row
  if r = Reg.POINT_HIST_CLEAR then
    ([0, 1].foldl (fun s i => if bit f.bits i then s.clearHistogram f.unit i else s) s, false)
  else if r = Reg.ARCH_FORCE then (if s.clocksRun then (s.forceArch f.copy).flushAll else s, false)
  else if r = Reg.ARCH_GO then s.handsetGo
  else if r = Reg.ARCH_DUMP_GO then if s.dumpValid then (s.setD Reg.ARCH_DUMP_BUSY 1, false) else (s, true)
  else if r = Reg.RING_ALIGN_GO then
    if s.df Reg.PLACE_MASTER = 1 ∧ !s.taskRuns then ({ s with ring := { s.ring with go := true } }, false) else (s, true)
  else if r = Reg.LINK_RETRAIN then if s.taskRuns then (s, true) else (s.startTraining f.unit, false)
  else if r = Reg.POWER_AGE_GO then (s.setD Reg.POWER_AGE_BUSY 1, false)
  else if r = Reg.BOOT_DELIVERED then (s.delivered, false)
  else if r = Reg.BOOT_ENUM_GO then (s.enumGo, false)
  else if r = Reg.MARK_LOCK then (s.lockdown, false)
  else if r = Reg.ATTEST_GO then if s.df Reg.ATTEST_BUSY = 1 then (s, true) else (s.attestGo, false)
  else if r = Reg.DEBUG_FREEZE then (s.drive 1, false)
  else (s, false)

/-- Write a word field by field: values first, REFUSED and events once for the word, then the triggers (R420). -/
def State.writeFields (s : State) (path : Path) (core : Bool) (u page addr : Nat) (fs : List FieldWrite) (spare : Nat) : State :=
  let bad := fs.filter fun f => !(s.judge path f).ok
  let good := fs.filter fun f => (s.judge path f).ok
  let events := ((bad.map fun f => (s.judge path f).event).filter (· ≠ 0)).eraseDups
  let refused := !bad.isEmpty || decide (spare ≠ 0)
  let t := good.foldl State.putField s
  let t := if bad.any fun f => decide (f.row.acc = .rwl) then t.bumpD Reg.MARK_LOCKED_WRITES 1 else t
  let t := if refused then t.countRefused core u page else t
  let t := events.foldl (fun t e => t.refuseWord e addr) t
  let x := (fs.filter fun f => decide (f.row.acc = .wo) && decide (f.bits ≠ 0)).foldl
    (fun (x : State × Bool) f => ((x.1.act f).1, x.2 || (x.1.act f).2)) (t, false)
  if x.2 && !refused then x.1.countRefused core u page else x.1

/-- The COMMAND word is written (R350). -/
def State.writeCommand (s : State) (v : Nat) : State :=
  let s := if fld v 15 8 ≠ 0 then s.countRefused false 0 10 else s
  s.command (fld v 7 0) (fld v 31 16) (fld v 63 32)

/-- The trace word is written (R410). -/
def State.writeTrace (s : State) (v : Nat) : State :=
  let x := s.traceWrite v
  if x.2 then x.1.countRefused false 0 24 else x.1

/-- A header word is written: only REFUSED counts it, and only when its bits differ (R416). -/
def State.writeHeader (s : State) (core : Bool) (u page o v : Nat) (p : PageInfo) : State :=
  if v = s.headerWord core u page o p then s else s.countRefused core u page

/-- A word of core c's page n is written; its path is an accepted one. -/
def State.writeCore (s : State) (c n o v : Nat) : State :=
  match corePages[n]? with
  | none => s
  | some p =>
    if o < 0x40 then s.writeHeader true c n o v p
    else
      let rows := Reg.corePage n
      s.writeFields .sideband true c n (windowBase c + 0xE0000 + n * 0x1000 + o) (fieldWrites rows c n o v) (spareBits rows o v)

/-- What a write on a path that R422 does not accept still does: the rules of the CMD page, the envelope and ATTEST name it. -/
def State.writeBarred (s : State) (n o v : Nat) : State :=
  if n = 10 then s.cmdRefused
  else if n = 9 ∧ o = 0x40 then s.envelopeWrite .other v
  else if n = 14 ∧ (o = 0x40 ∨ (0x80 ≤ o ∧ o < 0xA0)) then s.countRefused false 0 14
  else s

/-- A word of die page n is written. -/
def State.writeDie (s : State) (path : Path) (n o v : Nat) : State :=
  if 512 ≤ n ∧ n < 1536 then s.stageWrite path ((n - 512) * 4096 + o) (toBytes 8 v)
  else if path = .other then s.writeBarred n o v
  else match diePage n with
    | none => s
    | some p =>
      if o < 0x40 then s.writeHeader false 0 n o v p
      else if n = 9 ∧ o = 0x40 then s.envelopeWrite path v
      else if n = 10 ∧ o = 0x60 then s.writeCommand v
      else if n = 24 ∧ o = 0x50 then s.writeTrace v
      else
        let rows := Reg.diePage n
        s.writeFields path false 0 n (0x20000000000 + n * 0x1000 + o) (fieldWrites rows 0 n o v) (spareBits rows o v)

/-- A register word is written where the page exists and its core is alive. -/
def State.writeReg (s : State) (path : Path) (a v : Nat) : State :=
  if a % 8 ≠ 0 then s
  else match pageAt a with
    | some (.core c n o) => if path = .other ∨ !s.coreAlive c then s else s.writeCore c n o (v % 2 ^ 64)
    | some (.die n o) => s.writeDie path n o (v % 2 ^ 64)
    | none => s

/-- Core c's own NEED entry in a word of the NEED table; the other entries keep their values (R346). -/
def State.writeNeed (s : State) (c v : Nat) : State :=
  let e := fld v (16 * (c % 4) + 15) (16 * (c % 4))
  (s.wr Reg.BOOT_NEED 0 c (fld e 7 0)).wr Reg.BOOT_TABLE 0 c (fld e 8 8)

/-! The commands. -/

/-- REGISTER_WRITE: the word at a page address is written on a path. -/
def execRegisterWrite (path : Path) (a v : Nat) (s : State) : Host.Outcome State Fault Refusal := s.live fun s => s.writeReg path a v

/-- A register field is written with the other fields of its word as they read. -/
def State.writeOver (s : State) (path : Path) (r : Row) (u i v : Nat) : State :=
  let a := r.addr u i
  let w := a / 8 * 8
  let pos := 8 * (a % 8) + r.lsb
  match pageAt w with
  | some q => s.writeReg path w (putFld (s.pageWord q) (pos + r.width - 1) pos v)
  | none => s

def execHistClear (c v : Nat) (s : State) : Host.Outcome State Fault Refusal := s.live fun s => s.writeOver .sideband Reg.POINT_HIST_CLEAR c 0 (v % 4)
def execBeylerWrite (c v : Nat) (s : State) : Host.Outcome State Fault Refusal := s.live fun s => s.writeOver .sideband Reg.DRESS_BEYLER c 0 (v % 2)
def execAckSeq (path : Path) (v : Nat) (s : State) : Host.Outcome State Fault Refusal := s.live fun s => s.writeOver path Reg.LEDGER_ACK_SEQ 0 0 v
def execDomOff (path : Path) (v : Nat) (s : State) : Host.Outcome State Fault Refusal := s.live fun s => s.writeOver path Reg.DIR_DOM_OFF 0 0 v
def execDomOffYq (path : Path) (v : Nat) (s : State) : Host.Outcome State Fault Refusal := s.live fun s => s.writeOver path Reg.DIR_DOM_OFF_YQ 0 0 (v % 16)
def execEpochWrite (path : Path) (v : Nat) (s : State) : Host.Outcome State Fault Refusal := s.live fun s => s.writeOver path Reg.RING_CURRENT 0 0 (v % 2 ^ 16)
def execEnvelopeTarget (path : Path) (v : Nat) (s : State) : Host.Outcome State Fault Refusal := s.live fun s => s.writeReg path (Reg.POWER_SETPOINT.addr 0 0) v
/-- The bits written as 1 clear (R336). -/
def execAlert (path : Path) (v : Nat) (s : State) : Host.Outcome State Fault Refusal := s.live fun s => s.writeReg path (Reg.POWER_ALERT_CAL_FAULT.addr 0 0) (v % 2 ^ 7)
def execRepointing (path : Path) (s : State) : Host.Outcome State Fault Refusal := s.live fun s => s.writeOver path Reg.POWER_AGE_GO 0 0 1
def execArchForce (path : Path) (a : Nat) (s : State) : Host.Outcome State Fault Refusal := s.live fun s => if a < 8 then s.writeOver path Reg.ARCH_FORCE 0 a 1 else s

/-- The hand-set word (R257): CORE, KIND, INDEX and GO in one write. -/
def handsetWord (c kind index : Nat) : Nat := c % 1024 + kind * 2 ^ 10 + index % 256 * 2 ^ 12 + 2 ^ 20

def execHandsetTie (path : Path) (c index : Nat) (s : State) : Host.Outcome State Fault Refusal := s.live fun s => s.writeReg path (Reg.ARCH_CORE.addr 0 0) (handsetWord c 0 index)
def execHandsetOpen (path : Path) (c index : Nat) (s : State) : Host.Outcome State Fault Refusal := s.live fun s => s.writeReg path (Reg.ARCH_CORE.addr 0 0) (handsetWord c 1 index)
def execHandsetClose (path : Path) (c index : Nat) (s : State) : Host.Outcome State Fault Refusal := s.live fun s => s.writeReg path (Reg.ARCH_CORE.addr 0 0) (handsetWord c 2 index)
def execDumpGo (path : Path) (base : Nat) (s : State) : Host.Outcome State Fault Refusal :=
  s.live fun s => s.writeReg path (Reg.ARCH_DUMP_BASE.addr 0 0) (base % 2 ^ 27 + 2 ^ 27)
def execGoAlign (path : Path) (s : State) : Host.Outcome State Fault Refusal := s.live fun s => s.writeOver path Reg.RING_ALIGN_GO 0 0 1
def execRetrain (path : Path) (port : Nat) (s : State) : Host.Outcome State Fault Refusal := s.live fun s => if port < 8 then s.writeOver path Reg.LINK_RETRAIN port 0 1 else s
def execDelivered (path : Path) (s : State) : Host.Outcome State Fault Refusal := s.live fun s => s.writeOver path Reg.BOOT_DELIVERED 0 0 1
def execEnumGo (path : Path) (s : State) : Host.Outcome State Fault Refusal := s.live fun s => s.writeOver path Reg.BOOT_ENUM_GO 0 0 1
def execLock (path : Path) (s : State) : Host.Outcome State Fault Refusal := s.live fun s => s.writeOver path Reg.MARK_LOCK 0 0 1
def execAttestGo (path : Path) (s : State) : Host.Outcome State Fault Refusal := s.live fun s => s.writeOver path Reg.ATTEST_GO 0 0 1
def execDebugFreeze (path : Path) (s : State) : Host.Outcome State Fault Refusal := s.live fun s => s.writeOver path Reg.DEBUG_FREEZE 0 0 1
def execDebugMode (path : Path) (v : Bool) (s : State) : Host.Outcome State Fault Refusal := s.live fun s => s.writeOver path Reg.DEBUG_MODE 0 0 (b2n v)
/-- DEBUG.TRACE written with EN = 1 and the other fields of `v`. -/
def execTraceEnable (path : Path) (v : Nat) (s : State) : Host.Outcome State Fault Refusal :=
  s.live fun s => s.writeReg path (Reg.DEBUG_EN.addr 0 0) (putFld v 0 0 1)

end Sys2Proof.Machine
end

