-- ==== Sys2Proof/Machine/Map.lean ====
section
/-!
DEFINITION. The die-local address map as accesses from outside a core meet it (R22–R24, R128, R231, R291, R333, R427, R430), and the words that a read of it returns.
-/

namespace Sys2Proof.Machine

/-- Where an address lies. -/
inductive Place where
  | yard
  | bed (c o : Nat)
  | acc (c o : Nat)
  | sync (c o : Nat)
  | page (q : PageAt)
  | hole
  deriving DecidableEq, Repr

/-- The core in whose window an address lies (R22). -/
def windowOf (a : Nat) : Option Nat :=
  if 0x10000000000 ≤ a ∧ a < 0x10040000000 then some ((a - 0x10000000000) / 0x100000) else none

/-- The layout of R22 and R231. -/
def placeOf (a : Nat) : Place :=
  if a < yardSize then .yard
  else match windowOf a with
    | some c =>
      let o := (a - 0x10000000000) % 0x100000
      if o < bedSize then .bed c o
      else if 0x80000 ≤ o ∧ o < 0xC0000 then .acc c (o - 0x80000)
      else if 0xC0000 ≤ o ∧ o < 0xC1000 then .sync c (o - 0xC0000)
      else match pageAt a with
        | some q => .page q
        | none => .hole
    | none => match pageAt a with
      | some q => .page q
      | none => .hole

/-- A mapped address: a yard slice with power, a view of a listed array in debug mode, and everything else that exists (R23, R430). -/
def State.mapped (s : State) (a : Nat) : Bool :=
  match placeOf a with
  | .yard => s.domainOn (72 + quadrantOf (a / 2 ^ 21))
  | .acc c o => decide (s.df Reg.DEBUG_MODE = 1) && s.arrayGood c (o / 0xC000)
  | .hole => false
  | _ => true

/-- Addresses of the 8-byte words of an access. -/
def accessWords (a n : Nat) : List Nat := (List.range (n / 8)).map fun i => a + 8 * i

/-- The core belongs to a part of the die that a reset works on or whose clocks are stopped (R291, R333). -/
def State.resetting (s : State) (c : Nat) : Bool := s.boot.part || !s.clocksRun || s.ops.group.contains (groupOf c)

/-- The same for slices and movers. -/
def State.halted (s : State) : Bool := s.boot.part || !s.clocksRun

/-- Status of an access to n bytes at a: 0, RESETTING, CORE_DEAD or ADDR_UNMAPPED. A part that a reset works on, or whose clocks stand still,
answers RESETTING (R291, R333) before its floor-plan entry or its map is looked at, and no record is written for it (DESIGN CHOICE,
notes/assumptions/54.md). -/
def State.accessStatus (s : State) (a n : Nat) : Nat :=
  match windowOf a with
  | some c =>
    if s.resetting c then 8
    else if !s.coreAlive c then 2
    else if (accessWords a n).all s.mapped then 0 else 1
  | none =>
    if a < yardSize ∧ s.halted then 8
    else if (accessWords a n).all s.mapped then 0 else 1

/-- Record a rejected access; one to an unmapped location is counted too (R23, R24). -/
def State.noteStatus (s : State) (a status : Nat) : State :=
  match status with
  | 1 => State.note { s with net := { s.net with rejections := s.net.rejections + 1 } } 0x0001 noUnit []
  | 2 => s.note 0x0002 ((windowOf a).getD 0) []
  | _ => s

/-- A word of the accumulator view: half of V of element (i, j) at 16 · (16i + j) of entry e (R128). -/
def State.accView (s : State) (c o : Nat) : Nat :=
  let n := o % 0x1000 / 16
  let v := ((s.core c).elem (o / 0xC000) (o % 0xC000 / 0x1000) (n / 16) (n % 16)).v.toNat
  v / 2 ^ (8 * (o % 16)) % 2 ^ 64

/-- A word of the sync region: a tie or a word of a window descriptor (R231, R244). -/
def State.syncWord (s : State) (c o : Nat) : Nat :=
  if o < 0x800 then s.tie c (o / 8) else s.winWord c ((o - 0x800) / 64) ((o - 0x800) % 64 / 8)

/-- The word at an address, without an effect. -/
def State.wordAt (s : State) (a : Nat) : Nat :=
  match placeOf a with
  | .yard | .bed _ _ => ofBytes (s.bytesAt a 8)
  | .acc c o => s.accView c o
  | .sync c o => s.syncWord c o
  | .page q => s.pageWord q
  | .hole => 0

/-- A word of the sync region that a loader may write: a tie, or bytes 0–15 of a descriptor (R232). -/
def syncLoadable (o : Nat) : Bool := decide (o < 0x800) || decide ((o - 0x800) % 64 < 16)

/-- A loader writes a word of the sync region; reserved bits of a descriptor stay zero (R10, R232, R244). -/
def State.writeSync (s : State) (c o v : Nat) : State :=
  if o < 0x800 then s.setTie c (o / 8) v
  else
    let w := (o - 0x800) / 64
    if (o - 0x800) % 64 = 0 then s.setWin c w 0 (fld v 1 0 + fld v 15 8 * 2 ^ 8 + fld v 50 32 * 2 ^ 32)
    else s.setWin c w 1 (fld v 19 0)

/-- Whether an address is served by a memory bank. -/
def inMemory (a : Nat) : Bool :=
  match placeOf a with
  | .yard | .bed _ _ => true
  | _ => false

/-- The core and the first of the two codewords that hold a word of the accumulator view (R128, R217). -/
def accCode (a : Nat) : Option (Nat × Nat) :=
  match placeOf a with
  | .acc c o => some (c, 5 * ((12 * (o / 0xC000) + o % 0xC000 / 0x1000) * 256 + o % 0x1000 / 16) + o % 16 / 8 * 2)
  | _ => none

/-- An uncorrectable codeword of the accumulator memory under a view access (R217). -/
def State.accBad (s : State) (a : Nat) : Bool :=
  match accCode a with
  | some (c, x) => decide ((s.core c).accFinds x = 2) || decide ((s.core c).accFinds (x + 1) = 2)
  | none => false

/-- The words of a register or sync read: their bytes and what the read records (R384, R419). -/
def State.readWords (s : State) (a n : Nat) : State × List Byte :=
  let ws := accessWords a n
  let bs := ws.flatMap fun w => toBytes 8 (s.wordAt w)
  (ws.foldl (fun s w => match placeOf w with | .page q => s.touchWord q | _ => s) s, bs)

/-- The raw word of a codeword with `n` wrong bits, its raw check bits and its syndrome (R408). -/
def rawCode (key n w : Nat) : Nat × Nat × Nat :=
  if n = 0 then (w, (Config.checkBits key 0 w).toNat, 0)
  else ((Config.rawWord key n w).toNat, (Config.checkBits key n w).toNat, (Config.syndrome key n w).toNat)

/-- What MEMRD reads of the word at an address: a bank's codeword, the two of an accumulator word, or the bare word. -/
def State.memWord (s : State) (a : Nat) : List Nat :=
  let w := s.wordAt a
  match accCode a with
  | some (c, x) =>
    let half (i : Nat) := rawCode (2 ^ 64 + x + i) (Sparse.get 0 (s.core c).accMarks (x + i)) (w / 2 ^ (32 * i) % 2 ^ 32)
    [(half 0).1 % 2 ^ 32 + (half 1).1 % 2 ^ 32 * 2 ^ 32, (half 0).2.1, (half 0).2.2, (half 1).2.1, (half 1).2.2]
  | none =>
    let x := rawCode a (s.markAt a) w
    if inMemory a then [x.1, x.2.1, x.2.2] else [w]

/-- MEMRD: any word of the map with its raw check bits and its syndrome (R408). -/
def execMemrd (a : Nat) (s : State) : Host.Outcome State Fault Refusal :=
  .next (s.shiftOut (s.memWord (a / 8 * 8)))

end Sys2Proof.Machine
end

