-- ==== Sys2Proof/Machine/Packets.lean ====
section
/-!
DEFINITION. Packets addressed to this die (R20–R24, R53, R54, R232, R234, R246–R249, R252, R253, R271–R273, R291–R293, R346, R422), and the grants of bed banks and yard sub-banks that finish their accesses (R204, R206, R210, R219).
-/

namespace Sys2Proof.Machine

/-! Who may write registers (R422). -/

/-- Core c writes its own NEED entry while a load to it runs (R346). -/
def State.ownNeed (s : State) (p : Packet) : Bool :=
  let c := pScore p
  decide (pSkind p = 0) && decide (pSpkg p = s.df Reg.PLACE_PACKAGE_ID) && decide (pSdie p = s.df Reg.PLACE_DIE_ID) &&
  decide (pLen p = 8) && decide (pAddr p = Reg.BOOT_NEED.addr 0 c / 8 * 8) &&
  (match s.ops.load with | some l => l.cores.contains c | none => false)

/-- The path of a WRITE packet. -/
def State.writerPath (s : State) (p : Packet) : Path := if s.fromHub p then .hub else .other

/-- The words of a payload. -/
def payloadWords (p : Packet) : List Nat := (List.range (pLen p / 8)).map fun i => ofBytes ((p.payload.drop (8 * i)).take 8)

/-- COMPLETE where the packet asks for it (R248). -/
def State.acknowledge (s : State) (p : Packet) : State := if pCreq p then s.complete p else s

/-- Discard a packet with a status that its address draws (R23, R24, R272). -/
def State.reject (s : State) (p : Packet) (status : Nat) : State := (s.noteStatus (pAddr p) status).discard p status

/-! WRITE. -/

/-- Write payload words into register pages, in ascending address (R419). -/
def State.writeRegs (s : State) (path : Path) (a : Nat) : List Nat → State
  | [] => s
  | v :: r => (s.writeReg path a v).writeRegs path (a + 8) r

/-- A WRITE into register pages: from an accepted writer, or discarded as unmapped (R422). -/
def State.pageWrite (s : State) (p : Packet) : State :=
  if s.ownNeed p then (s.writeNeed (pScore p) (ofBytes p.payload)).acknowledge p
  else if s.fromHub p then (s.writeRegs .hub (pAddr p) (payloadWords p)).acknowledge p
  else (s.writeRegs .other (pAddr p) (payloadWords p)).reject p 1

def State.writeSyncs (s : State) (c o : Nat) : List Nat → State
  | [] => s
  | v :: r => (s.writeSync c o v).writeSyncs c (o + 8) r

/-- A WRITE into the sync region of core c (R232). -/
def State.syncWrite (s : State) (c o : Nat) (p : Packet) : State :=
  if s.running c ∨ !((accessWords o (pLen p)).all syncLoadable) then (s.note 0x0700 c []).discard p 3
  else (s.writeSyncs c o (payloadWords p)).acknowledge p

/-- A WRITE with WIN = 0. The accumulator view takes none. -/
def State.plainWrite (s : State) (port : Nat) (p : Packet) : State :=
  let a := pAddr p
  let st := s.accessStatus a (pLen p)
  if st ≠ 0 then s.reject p st
  else match placeOf a with
    | .yard => s.requestFor port p (.packet p) a (pLen p) (some p.payload)
    | .bed c _ => if s.running c then s.discard p 6 else s.requestFor port p (.packet p) a (pLen p) (some p.payload)
    | .sync c o => s.syncWrite c o p
    | .page _ => s.pageWrite p
    | _ => s.reject p 1

/-! Window packets (R246). -/

/-- A packet at a closed window: counted, the first one captured and recorded, traced, and NACKed. -/
def State.lateWrite (s : State) (c w : Nat) (p : Packet) : State :=
  let d := s.winWord c w 2
  let late := min (fld d 63 32 + 1) (2 ^ 32 - 1)
  let s := (s.setWin c w 2 (putFld d 63 32 late)).bumpC Reg.SYNC_LATE_WRITES c 1
  let s := if bit (s.winWord c w 4) 30 then s
    else
      let s := s.setWin c w 4 (pSource p + 2 ^ 30 + pOffset p * 2 ^ 32 + b2n (decide (pType p = 1)) * 2 ^ 52)
      (s.setWin c w 5 (pTime p)).note 0x0704 c [w, pSource p, pOffset p]
  (s.trace c ⟨s.now, 9, w, late, pOffset p, 0, pSource p⟩).discard p 4

/-- A window packet is judged as it reaches its owner. -/
def State.windowWrite (s : State) (port : Nat) (p : Packet) : State :=
  let c := pDnode p
  let w := pWindow p
  let st := if s.resetting c then 8 else if !s.coreAlive c then 2 else 0
  if st ≠ 0 then (s.noteStatus (windowBase c) st).discard p st
  else if !s.windowOpen c w then s.lateWrite c w p
  else if s.winExtent c w < pOffset p + pLen p then (s.note 0x0706 c [w, pOffset p, pLen p]).discard p 5
  else
    let d := s.winWord c w 2
    let s := s.setWin c w 2 (putFld d 31 0 (min (fld d 31 0 + 1) (2 ^ 32 - 1)))
    s.requestFor port p (.window c w p) (windowBase c + s.winBase c w + pOffset p) (pLen p) (some p.payload)

/-! Reads. -/

/-- A READ_REQ is served or answered with a status (R20, R23, R24, R219, R232, R422). -/
def State.readReq (s : State) (port : Nat) (p : Packet) : State :=
  let a := pAddr p
  let n := pLen p
  let st := s.accessStatus a n
  if st ≠ 0 then s.reject p st
  else if inMemory a then s.requestFor port p (.packet p) a n none
  else if (accessWords a n).any s.accBad then s.readRsp p 9 []
  else
    let x := s.readWords a n
    x.1.readRsp p 0 x.2

/-! The packet commands. -/

def execPktWrite (port : Nat) (p : Packet) (s : State) : Host.Outcome State Fault Refusal :=
  s.live fun s => let p := asType 0 p; s.receive port p fun s => if pWin p then s.windowWrite port p else s.plainWrite port p

def execPktWriteS (port : Nat) (p : Packet) (s : State) : Host.Outcome State Fault Refusal :=
  s.live fun s => let p := asType 1 p; s.receive port p fun s => s.windowWrite port p

def execReadReq (port : Nat) (p : Packet) (s : State) : Host.Outcome State Fault Refusal :=
  s.live fun s => let p := asType 2 p; s.receive port p fun s => s.readReq port p

/-- A response reaches a core: dropped when the core is gone or its part resets (R272, R291). -/
def State.toCore (s : State) (p : Packet) (f : Nat → State) : State :=
  let c := pDnode p
  if s.resetting c ∨ !s.coreAlive c then s else f c

/-- A response for a core or a rebond mover. -/
def State.respond (s : State) (p : Packet) (core mover : Nat → State) : State :=
  match pDkind p with
  | 0 => s.toCore p core
  | 1 => if s.halted ∨ 64 ≤ pDnode p then s else mover (pDnode p)
  | _ => s

def execReadRsp (port : Nat) (p : Packet) (s : State) : Host.Outcome State Fault Refusal :=
  s.live fun s =>
    let p := asType 3 p
    s.receive port p fun s =>
      s.respond p (fun c => s.moveResponse c (pTag p) (pSub p) (pAddr p) p.payload) fun m => s.moverData m (pSub p) p.payload

def execComplete (port : Nat) (p : Packet) (s : State) : Host.Outcome State Fault Refusal :=
  s.live fun s =>
    let p := asSub 3 0 (asType 5 p)
    s.receive port p fun s => s.respond p (fun c => s.moveClosed c (pTag p)) fun m => s.moverComplete m (pTag p)

def execNack (port : Nat) (p : Packet) (s : State) : Host.Outcome State Fault Refusal :=
  s.live fun s =>
    let p := asSub 3 1 (asType 5 p)
    s.receive port p fun s =>
      s.respond p (fun c => s.moveNack c (pTag p) (pAddr p % 256)) fun m => s.moverNack m (pTag p) (pAddr p % 256)

/-- A TIE_ADD becomes an update at its home core, delivered in the cycle in which its command takes it up (R234, R241; DESIGN CHOICE,
notes/assumptions/61.md). -/
def State.tieAdd (s : State) (p : Packet) : State :=
  let c := pDnode p
  if s.resetting c then s.discard p 8
  else if !s.coreAlive c then (s.note 0x0002 c []).discard p 2
  else
    let u : TieUpdate := ⟨c, pSub p, false, pAddr p, pScore p, pTime p, pSource p, s.lin, some p⟩
    { s with sync := { s.sync with updates := s.sync.updates ++ [u] } }

def execTieAddPacket (port : Nat) (p : Packet) (s : State) : Host.Outcome State Fault Refusal :=
  s.live fun s => let p := asType 4 p; s.receive port p fun s => s.tieAdd p

/-! The arch tree across dies (R253). -/

/-- An arrival reaches the ring master's root two cycles after the port. -/
def State.archArrive (s : State) (p : Packet) : State :=
  let a := pAddr p
  let x := s.phase a
  if !s.isMaster then s
  else if !bit (s.rd Reg.ARCH_DIES 0 a) (pSdie p) then s.note 0x070E noUnit []
  else if bit x.dies (pSdie p) then s
  else (s.setPhase a { x with dies := x.dies + 2 ^ pSdie p, last := max x.last (s.lin + 2) }).archDecide a false

/-- A release from the master reaches the root two cycles after the port: the closure is due one cycle later. -/
def State.archRelease (s : State) (p : Packet) : State :=
  let a := pAddr p
  if s.isMaster then (if bit (s.rd Reg.ARCH_DIES 0 a) (pSdie p) then s else s.note 0x070E noUnit [])
  else if s.cross a then s.setPhase a { s.phase a with ready := some (s.lin + 3) }
  else s

def execArchArrive (port : Nat) (p : Packet) (s : State) : Host.Outcome State Fault Refusal :=
  s.live fun s => let p := asSub 3 2 (asType 5 p); s.receive port p fun s => if s.halted then s else s.archArrive p

def execArchRelease (port : Nat) (p : Packet) (s : State) : Host.Outcome State Fault Refusal :=
  s.live fun s => let p := asSub 3 3 (asType 5 p); s.receive port p fun s => if s.halted then s else s.archRelease p

/-! Slip notices (R53, R54). -/

/-- Forward a notice once on every used port but the one it came on. -/
def State.relaySlip (s : State) (port : Nat) (p : Packet) : State :=
  (s.usedPorts.filter fun q => decide (q ≠ port)).foldl (fun s q => s.postPort q p) s

/-- A notice with the current epoch: honoured, late, or only forwarded while no task runs. -/
def State.slipIn (s : State) (port : Nat) (p : Packet) : State :=
  let t := pAddr p
  if s.slip.seen.contains t then s
  else
    let s : State := State.relaySlip { s with slip := { s.slip with seen := s.slip.seen ++ [t] } } port p
    if !s.taskRuns then s
    else if t ≤ s.tickCount then (s.noteSev 0x0104 port [t] 2 true).failTask 4
    else { s with slip := { s.slip with due := s.slip.due ++ [(t, true)] } }

def execSlip (port : Nat) (p : Packet) (s : State) : Host.Outcome State Fault Refusal :=
  s.live fun s => let p := asSub 1 1 (asType 6 p); if port < 8 then s.sound port p fun s => s.slipIn port p else s

/-! Grants (R204, R210). -/

/-- The last request of an access has been granted: its owner gets the data or the confirmation. `lat` is its completion latency. -/
def State.finish (s : State) (x : Access) (lat : Nat) : State :=
  match x.owner with
  | .packet p =>
    if x.data.isSome then (if x.bad then s.nack p 9 else s.acknowledge p)
    else if x.bad then s.readRsp p 9 [] else s.readRsp p 0 x.bytes
  | .window c w p =>
    if x.bad then s.nack p 9
    else if pType p = 1 then { s with net := { s.net with signals := s.net.signals ++ [(c, w, p, x.serial)] } }
    else s.acknowledge p
  | .moveRead c n j => s.moveData c n j (if x.bad then none else some x.bytes)
  | .moveWrite c n => s.moveWritten c n
  | .fetch c p =>
    if x.bad then s
    else
      let s := s.mapCore c fun k => k.loadBundles p x.bytes 1
      if s.heldFor c .fetch then (s.release c (max 6 lat + 1) .fetch).goOn c else s

/-- A granted request, with the finished access where it was the last one. -/
def State.granted (x : State × Option Access) (lat : Nat) : State :=
  match x.2 with
  | some a => x.1.finish a lat
  | none => x.1

/-- The owner is an engine of a core: a scheduled request; every other one is external (R204). -/
def Access.scheduled (x : Access) : Bool := x.owner.engine.isSome

/-- An address in bank b of core c's bed (R203). -/
def inBank (c b a : Nat) : Bool :=
  match bedOf a with
  | some (d, o) => decide (d = c) && decide (fld o 12 9 = b)
  | none => false

/-- An access in slice u, sub-bank b (R209). -/
def inSubBank (u b a : Nat) : Bool := decide (a < yardSize) && decide (a / 2 ^ 21 = u) && decide (fld a 7 7 = b)

/-- Completion latency of a scheduled access (R206, R228). -/
def State.latency (s : State) (c lat : Nat) : State :=
  let s := s.noteWait c (min lat 255)
  if 39 < lat then s.bumpC Reg.BED_LATE_ACCESS c 1 else s

/-- Has the oldest external request at bank b of core c waited 8 cycles, with no forced grant of the bank in the last 8 (R204)? -/
def State.forcedDue (s : State) (c b : Nat) : Bool :=
  match oldest (s.net.accesses.filter fun x => !x.scheduled && x.waits (inBank c b)) with
  | some x => decide (x.since + 8 ≤ s.lin) && decide (Sparse.get 0 s.net.forced (16 * c + b) ≤ s.lin - 7)
  | none => false

/-- The first cycle in which the oldest external request at bank b of core c may go ahead of scheduled ones. -/
def State.awaitForced (s : State) (c b : Nat) : State :=
  match oldest (s.net.accesses.filter fun x => !x.scheduled && x.waits (inBank c b)) with
  | some x => s.reachLin (max (x.since + 8) (Sparse.get 0 s.net.forced (16 * c + b) + 7))
  | none => s

/-- A forced grant of bank b of core c is counted and noted. -/
def State.noteForced (s : State) (c b : Nat) : State :=
  State.bumpC { s with net := { s.net with forced := Sparse.put 0 s.net.forced (16 * c + b) (s.lin + 1) } } Reg.BED_FORCED c 1

/-- The first fill from bank b that is still on its way gets its data n cycles late. -/
def delayFill (b e n : Nat) : List FillWait → List FillWait
  | [] => []
  | f :: r => if f.bank = b ∧ e < f.ready then { f with ready := f.ready + n } :: r else f :: delayFill b e n r

/-- Bank b of core c completes an engine's access of the current course, made within its own command, with a latency beyond the nominal one: a
fill keeps its consumer waiting, any other read holds the core once its bound has passed (R48, R205, R206). -/
def State.lateEngine (s : State) (c b lat : Nat) : State :=
  let k := s.core c
  if !k.seq.inCourse ∨ lat ≤ 6 then s
  else
    let s := s.latency c lat
    if k.tm.fills.any fun f => decide (f.bank = b) && decide (k.elapsed < f.ready) then
      s.mapTm c fun t => { t with fills := delayFill b k.elapsed (lat - 6) t.fills }
    else s.holdFor c (lat - 39) .feed

/-- A bank grants the oldest scheduled request, else the oldest external one, which goes ahead once it has waited 8 cycles (R204); with
`forced` the grant falls in the cycle in which it has. Where no request of another command waits, the grant is that of an engine's access. -/
def State.bedGrant (s : State) (c b : Nat) (forced : Bool) (lat : Nat) : State :=
  let here := inBank c b
  let sched := s.net.accesses.any fun x => x.scheduled && x.waits here
  let s := if forced && sched then s.awaitForced c b else s
  if sched && s.forcedDue c b then State.granted ((s.noteForced c b).grantOne (fun x => !x.scheduled) here) lat
  else if sched then
    let (t, x) := s.grantOne Access.scheduled here
    State.granted (if x.isSome then t.latency c lat else t, x) lat
  else if s.net.accesses.any fun x => x.waits here then State.granted (s.grantOne (fun _ => true) here) lat
  else s.lateEngine c b lat

/-- A bank of core c grants a request; `lat` is the completion latency of a scheduled access in cycles. -/
def execBedGrant (c b : Nat) (forced : Bool) (lat : Nat) (s : State) : Host.Outcome State Fault Refusal :=
  s.clocked fun s => s.bedGrant c b forced lat

/-- A sub-bank of a slice grants its oldest request. -/
def execYardGrant (u b : Nat) (s : State) : Host.Outcome State Fault Refusal :=
  s.clocked fun s => State.granted (s.grantOne (fun _ => true) (inSubBank u b)) 0

end Sys2Proof.Machine
end

