-- ==== Sys2Proof/Machine/Sideband.lean ====
section
/-!
DEFINITION. The I3C sideband: messages and their responses, private reads and CCCs (R440–R445).
-/

namespace Sys2Proof.Machine

/-- The byte that makes the sum of a frame 0 mod 256 (R442). -/
def checkByte (f : List Byte) : Byte := BitVec.ofNat 8 (256 - (f.map (·.toNat)).foldl (· + ·) 0 % 256)

/-- A response frame (R442). -/
def responseFrame (status tag : Nat) (payload : List Byte) : List Byte :=
  let f := toBytes 1 status ++ toBytes 1 tag ++ toBytes 2 payload.length ++ payload
  f ++ [checkByte f]

/-- A little-endian field of n bytes at byte i of a frame or payload. -/
def byteField (f : List Byte) (i n : Nat) : Nat := ofBytes ((f.drop i).take n)

/-- Payload lengths that an OP takes (R443). -/
def lenFits (op n : Nat) : Bool :=
  match op with
  | 1 => decide (16 ≤ n) && decide (n ≤ 264) && decide (n % 8 = 0)
  | 2 => decide (n = 9)
  | 3 => decide (n = 8)
  | 4 => decide (n = 8)
  | 5 => decide (n = 3)
  | 6 => decide (n = 6)
  | _ => false

/-- BAD_OP, BAD_LEN and BAD_CHK of a frame, else 0 (R443; their order: notes/assumptions/44.md). -/
def frameStatus (op : Nat) (f : List Byte) : Nat :=
  let n := byteField f 2 2
  if (byteField f 0 1 = 0 ∨ 6 < byteField f 0 1) then 1
  else if !lenFits op n ∨ f.length ≠ n + 5 then 2
  else if (f.map (·.toNat)).foldl (· + ·) 0 % 256 ≠ 0 then 3
  else 0

/-- The response of a message; it replaces the one before (R442). -/
def State.answer (s : State) (status tag : Nat) (payload : List Byte) : State :=
  { s with side := { s.side with resp := some (responseFrame status tag payload) } }

/-- A message of an OP: the frame with that OP in byte 0 unless the byte is a reserved one; no more than the write limit reaches the die.
The body sees the payload and answers. -/
def State.message (s : State) (op : Nat) (f : List Byte) (body : State → List Byte → Nat → State) : State :=
  let f := f.take s.side.mwl
  let tag := byteField f 1 1
  let g := if byteField f 0 1 = 0 ∨ 6 < byteField f 0 1 then f else toBytes 1 op ++ f.drop 1
  let st := frameStatus op g
  if s.df Reg.BOOT_PHASE = 0 then s
  else if st ≠ 0 then s.answer st tag []
  else body s ((g.drop 4).take (byteField g 2 2)) tag

/-- Every word of an access is a register word that the sideband can reach. -/
def State.pageAccess (s : State) (a n : Nat) : Bool :=
  decide (a % 8 = 0) && ((accessWords a n).all fun w => (pageAt w).isSome) && decide (s.accessStatus a n = 0)

/-- Sideband writes of words in ascending address. -/
def State.sideWrites (s : State) (a : Nat) : List Nat → State
  | [] => s
  | v :: r => (s.writeReg .sideband a v).sideWrites (a + 8) r

/-- The words of a payload from byte i on. -/
def wordsFrom (p : List Byte) (i : Nat) : List Nat := (List.range ((p.length - i) / 8)).map fun k => byteField p (i + 8 * k) 8

/-- BAD_ADDR, with the record that R23 or R24 gives the rejection. -/
def State.badAddr (s : State) (a n tag : Nat) : State := (s.noteStatus a (s.accessStatus a n)).answer 4 tag []

/-! The messages (R443). The response stands before the write acts, so a reset that the write starts takes it along. -/

def execRegWrite (f : List Byte) (s : State) : Host.Outcome State Fault Refusal :=
  s.live fun s => s.message 1 f fun s p tag =>
    let a := byteField p 0 8
    if s.pageAccess a (p.length - 8) then (s.answer 0 tag []).sideWrites a (wordsFrom p 8) else s.badAddr a (p.length - 8) tag

def execRegRead (f : List Byte) (s : State) : Host.Outcome State Fault Refusal :=
  s.live fun s => s.message 2 f fun s p tag =>
    let a := byteField p 0 8
    let n := 8 * byteField p 8 1
    if n = 0 ∨ 256 < n then s.answer 5 tag []
    else if s.pageAccess a n then
      let x := s.readWords a n
      x.1.answer 0 tag x.2
    else s.badAddr a n tag

def execEnvelope (f : List Byte) (s : State) : Host.Outcome State Fault Refusal :=
  s.live fun s => s.message 3 f fun s p tag => (s.answer 0 tag []).writeReg .sideband (Reg.POWER_SETPOINT.addr 0 0) (byteField p 0 8)

def execTelemetry (f : List Byte) (s : State) : Host.Outcome State Fault Refusal :=
  s.live fun s => s.message 4 f fun s p tag =>
    let rail := byteField p 0 1
    let us := byteField p 2 2
    if 1 < rail ∨ byteField p 1 1 ≠ 0 ∨ us < 40 ∨ 60 < us then s.answer 5 tag []
    else (s.answer 0 tag []).telemetry rail (byteField p 4 4)

/-- RAIL_DONE closes the open request with the same rail and setting (R444). -/
def State.railDone (s : State) (rail setting : Nat) : State :=
  { s with side := { s.side with rails := s.side.rails.filter fun r => decide (r ≠ ⟨rail, setting⟩) } }

def execRailDone (f : List Byte) (s : State) : Host.Outcome State Fault Refusal :=
  s.live fun s => s.message 5 f fun s p tag =>
    if 1 < byteField p 0 1 then s.answer 5 tag [] else (s.answer 0 tag []).railDone (byteField p 0 1) (byteField p 1 2)

/-- The ring still holds the record of a SEQ. -/
def State.holdsRecord (s : State) (q : Nat) : Bool :=
  decide (q < s.df Reg.LEDGER_HEAD_SEQ) && decide (s.df Reg.LEDGER_HEAD_SEQ ≤ q + 8192)

def execLedgerRead (f : List Byte) (s : State) : Host.Outcome State Fault Refusal :=
  s.live fun s => s.message 6 f fun s p tag =>
    let q := byteField p 0 6
    if s.holdsRecord q then (s.readSlot (q % 8192)).answer 0 tag (s.slotBytes (q % 8192)) else s.answer 6 tag []

/-! What the die drives on the bus. -/

/-- The die's answer to a read on the bus; none is a NACK. -/
def State.driveOut (s : State) (out : Option (List Byte)) : State := { s with side := { s.side with out := out } }

/-- A private read returns the response held, as far as the read limit lets it; with none held the header is NACKed (R442). -/
def execPrivateRead (s : State) : Host.Outcome State Fault Refusal :=
  s.live fun s => s.driveOut (s.side.resp.map fun r => r.take s.side.mrl)

/-! CCCs (R441). -/

def execEnec (s : State) : Host.Outcome State Fault Refusal :=
  s.live fun s => State.flushIbis { s with side := { s.side with enabled := true } }

def execDisec (s : State) : Host.Outcome State Fault Refusal :=
  s.live fun s => { s with side := { s.side with enabled := false } }

def execRstdaa (s : State) : Host.Outcome State Fault Refusal :=
  s.live fun s => { s with side := { s.side with addr := none } }

/-- The static address, 0x30 + DIE_POS[2:0]. -/
def State.staticAddr (s : State) : Nat := 0x30 + s.df Reg.PLACE_POS_STRAP

/-- SETDASA to a static address assigns the dynamic one; another target's SETDASA does nothing. -/
def execSetdasa (static dyn : Nat) (s : State) : Host.Outcome State Fault Refusal :=
  s.live fun s => if static = s.staticAddr then { s with side := { s.side with addr := some (dyn % 128) } } else s

def execSetmwl (n : Nat) (s : State) : Host.Outcome State Fault Refusal :=
  s.live fun s => { s with side := { s.side with mwl := n % 2 ^ 16 } }

def execSetmrl (n : Nat) (s : State) : Host.Outcome State Fault Refusal :=
  s.live fun s => { s with side := { s.side with mrl := n % 2 ^ 16 } }

/-- Bytes of a CCC answer, most significant first (PRESUMED, notes/assumptions/45.md). -/
def bigEndian (n x : Nat) : List Byte := (toBytes n x).reverse

def execGetmwl (s : State) : Host.Outcome State Fault Refusal := s.live fun s => s.driveOut (some (bigEndian 2 s.side.mwl))
def execGetmrl (s : State) : Host.Outcome State Fault Refusal := s.live fun s => s.driveOut (some (bigEndian 2 s.side.mrl))

/-- The provisional ID: bit 32 is 1, bits 31 to 0 are those of MARK.SERIAL. -/
def State.provisionalId (s : State) : Nat := 2 ^ 32 + s.df Reg.MARK_SERIAL % 2 ^ 32

def execGetpid (s : State) : Host.Outcome State Fault Refusal := s.live fun s => s.driveOut (some (bigEndian 6 s.provisionalId))
def execGetbcr (s : State) : Host.Outcome State Fault Refusal := s.live fun s => s.driveOut (some [0x06#8])
def execGetdcr (s : State) : Host.Outcome State Fault Refusal := s.live fun s => s.driveOut (some [0x00#8])

/-- The target status has no layout in the spec: a free value (notes/assumptions/45.md). -/
def execGetstatus (s : State) : Host.Outcome State Fault Refusal :=
  s.live fun s => s.driveOut (some (bigEndian 2 (Config.i3cStatus s.now s.side.pending).toNat))

end Sys2Proof.Machine
end

