-- ==== Sys2Proof/Machine/Trowel.lean ====
section
/-!
DEFINITION. The trowel monitor: its lines, their errors, and the commands (R413, R414).
-/

namespace Sys2Proof.Machine

/-! Lines (R413). -/

/-- The words of a line: runs of characters other than the space. -/
def lineWords : List Nat → List (List Nat)
  | [] => []
  | x :: r =>
    if x = 0x20 then lineWords r
    else match r with
      | [] => [[x]]
      | y :: _ =>
        if y = 0x20 then [x] :: lineWords r
        else match lineWords r with
          | w :: ws => (x :: w) :: ws
          | [] => [[x]]

/-- The value of a digit in a base. -/
def digitOf (base x : Nat) : Option Nat :=
  let d := if 0x30 ≤ x ∧ x ≤ 0x39 then x - 0x30 else if 0x41 ≤ x ∧ x ≤ 0x46 then x - 0x37 else if 0x61 ≤ x ∧ x ≤ 0x66 then x - 0x57 else 99
  if d < base then some d else none

/-- Digits, most significant first. -/
def digitsOf (base acc : Nat) : List Nat → Option Nat
  | [] => some acc
  | x :: r =>
    match digitOf base x with
    | some d => digitsOf base (acc * base + d) r
    | none => none

/-- A decimal number, or a hexadecimal one with 0x and underscores; no more than 64 bits. -/
def numberOf (w : List Nat) : Option Nat :=
  let v := match w with
    | 0x30 :: 0x78 :: r => let r := r.filter (· ≠ 0x5F); if r = [] then none else digitsOf 16 0 r
    | [] => none
    | _ => digitsOf 10 0 w
  match v with
  | some n => if n < 2 ^ 64 then some n else none
  | none => none

/-- The arguments of a line whose first word is `name`, when their number is from `lo` to `hi`. -/
def lineArgs (name : List Nat) (lo hi : Nat) (text : List Byte) : Option (List Nat) :=
  match lineWords (text.map (·.toNat)) with
  | [] => none
  | w :: r =>
    let v := r.filterMap numberOf
    if w = name ∧ v.length = r.length ∧ lo ≤ r.length ∧ r.length ≤ hi then some v else none

/-- A command is answered with its lines; it counts as run (notes/assumptions/46.md). -/
def State.reply (s : State) (lines : List (List Tok)) : State :=
  let s : State := { s with dbg := { s.dbg with lines := lines, err := 0 } }
  if s.frozen then s else s.bumpD Reg.DEBUG_TROWEL_CMDS 1

/-- A command is answered with an error. -/
def State.replyErr (s : State) (code : Nat) : State :=
  let s : State := { s with dbg := { s.dbg with lines := [], err := code } }
  if s.frozen then s else s.bumpD Reg.DEBUG_TROWEL_ERRS 1

/-- A command runs and owes its answer. -/
def State.owe (s : State) (kind : Nat) : State :=
  let s : State := { s with dbg := { s.dbg with owed := kind } }
  if s.frozen then s else s.bumpD Reg.DEBUG_TROWEL_CMDS 1

/-- A trowel line: one command at a time, its errors in the order of notes/assumptions/46.md, FROZEN for what the freeze watch does not answer. -/
def State.trowel (s : State) (name : List Nat) (lo hi : Nat) (watch : Bool) (l : Line) (body : State → List Nat → State) : State :=
  if s.df Reg.BOOT_PHASE = 0 ∨ s.dbg.owed ≠ 0 then s
  else if l.past then s.replyErr 3
  else if 128 < l.text.length then s.replyErr 2
  else match lineArgs name lo hi l.text with
    | none => s.replyErr 1
    | some v => if s.frozen && !watch then s.replyErr 6 else body s v

def nums (l : List Nat) : List Tok := l.map Tok.num

/-! Reads. -/

/-- The word at an address for a peek: an external read of a bank, or a register or sync read; a word that cannot be corrected is shown as
read (notes/assumptions/46.md). -/
def State.peek (s : State) (a : Nat) : State × Nat :=
  if inMemory a then
    match s.extRead a 8 with
    | (s, some bs) => (s, ofBytes bs)
    | (s, none) => (s, (Config.rawWord a (s.markAt a) (ofBytes (s.bytesAt a 8))).toNat)
  else
    let x := s.readWords a 8
    (x.1, ofBytes x.2)

def State.peeks (s : State) : List Nat → State × List (List Tok)
  | [] => (s, [])
  | a :: r =>
    let x := s.peek a
    let y := x.1.peeks r
    (y.1, nums [a, x.2] :: y.2)

/-- A rejected access: RANGE, with the record of R23 or R24. -/
def State.rangeAt (s : State) (a n : Nat) : State := (s.noteStatus a (s.accessStatus a n)).replyErr 4

/-- peek A [n]. -/
def execPeek (l : Line) (s : State) : Host.Outcome State Fault Refusal :=
  .next (s.trowel [112, 101, 101, 107] 1 2 false l fun s v =>
    let a := v.getD 0 0
    let n := v.getD 1 1
    if n = 0 ∨ 64 < n ∨ a % 8 ≠ 0 then s.replyErr 4
    else if s.accessStatus a (8 * n) ≠ 0 then s.rangeAt a (8 * n)
    else
      let x := s.peeks (accessWords a (8 * n))
      x.1.reply x.2)

/-! Writes. -/

/-- TROWEL_WRITE (R414). -/
def State.trowelWrite (s : State) (unit t v : Nat) : State := s.note 0x0D03 unit [t, v]

/-- A poked word is written as its place has it: BED_LOCKED and SYNC_LOCKED keep a running core's bed and sync region (R232, R273). -/
def State.pokeAt (s : State) (a v : Nat) : State :=
  match placeOf a with
  | .yard => (s.extWrite a (toBytes 8 v)).1
  | .bed c _ => if s.running c then s else (s.extWrite a (toBytes 8 v)).1
  | .sync c o => if s.running c ∨ !syncLoadable o then s.note 0x0700 c [] else s.writeSync c o v
  | .page _ => s.writeReg .trowel a v
  | _ => s

/-- poke A V. The answer and the record stand before a register write acts. -/
def execPoke (l : Line) (s : State) : Host.Outcome State Fault Refusal :=
  .next (s.trowel [112, 111, 107, 101] 2 2 false l fun s v =>
    let a := v.getD 0 0
    let x := v.getD 1 0
    if !s.debugAllowed then s.replyErr 5
    else if a % 8 ≠ 0 then s.replyErr 4
    else if s.accessStatus a 8 ≠ 0 then s.rangeAt a 8
    else match placeOf a with
      | .acc _ _ => (s.noteStatus a 1).replyErr 4
      | _ => ((s.reply [nums [a, x]]).trowelWrite noUnit a x).pokeAt a x)

/-- set-tie c t V: the hand-set of R257. -/
def execSetTie (l : Line) (s : State) : Host.Outcome State Fault Refusal :=
  .next (s.trowel [115, 101, 116, 45, 116, 105, 101] 3 3 false l fun s v =>
    let c := v.getD 0 0
    let t := v.getD 1 0
    let x := v.getD 2 0
    if !s.debugAllowed then s.replyErr 5
    else if 1024 ≤ c ∨ 256 ≤ t then s.replyErr 4
    else if !s.coreAlive c then s.rangeAt (windowBase c) 8
    else
      let old := s.tie c t
      let s := (s.trowelWrite c t x).owe 3
      let s := (s.writeReg .trowel (Reg.ARCH_HANDSET_VALUE.addr 0 0) x).writeReg .trowel (Reg.ARCH_CORE.addr 0 0) (handsetWord c 0 t)
      if s.clocksRun then s.owedAnswer 3 [nums [old, s.tie c t]] else s)

/-- dump B: the sync dump of R256. -/
def execDump (l : Line) (s : State) : Host.Outcome State Fault Refusal :=
  .next (s.trowel [100, 117, 109, 112] 1 1 false l fun s v =>
    let b := v.getD 0 0
    if s.df Reg.ARCH_DUMP_BUSY = 1 then s.replyErr 7
    else if b % 4096 ≠ 0 ∨ yardSize < b + 0x600800 then s.replyErr 4
    else (s.owe 1).writeReg .trowel (Reg.ARCH_DUMP_BASE.addr 0 0) (b + 2 ^ 27))

/-! Readouts. -/

/-- floor: the summary, then each core that is not full. -/
def State.floorLines (s : State) : List (List Tok) :=
  nums [s.df Reg.FLOOR_GEN, s.df Reg.FLOOR_SOURCE, s.df Reg.FLOOR_FULL_COUNT, s.df Reg.FLOOR_NARROW_COUNT, s.df Reg.FLOOR_DEAD_COUNT,
    s.df Reg.FLOOR_FUSED_FULL] ::
  ((List.range 1024).filter fun c => decide (s.floorState c ≠ 2)).map fun c =>
    nums [c, s.floorState c, s.arrays c, s.rd Reg.FLOOR_CAUSE (c / 512) (c % 512)]

def execFloor (l : Line) (s : State) : Host.Outcome State Fault Refusal :=
  .next (s.trowel [102, 108, 111, 111, 114] 0 0 false l fun s _ => s.reply s.floorLines)

/-- One record: its eight words, flagged when DAMAGED is set. -/
def State.recordLine (s : State) (q : Nat) : List Tok :=
  let ws := (List.range 8).map (s.slotWord (q % 8192))
  nums ws ++ if bit (ws.getD 2 0) 51 then [.text "DAMAGED"] else []

/-- SEQs of at most n records from `from` on that the ring holds (R383). -/
def State.heldSeqs (s : State) (from_ n : Nat) : List Nat :=
  let h := s.df Reg.LEDGER_HEAD_SEQ
  let lo := max from_ (h - 8192)
  (List.range (min n (h - lo))).map (lo + ·)

/-- ledger [s] [n]; n is 16 where it is not given. -/
def execLedger (l : Line) (s : State) : Host.Outcome State Fault Refusal :=
  .next (s.trowel [108, 101, 100, 103, 101, 114] 0 2 false l fun s v =>
    let n := v.getD 1 16
    if 64 < n then s.replyErr 4
    else
      let qs := s.heldSeqs (v.getD 0 (s.df Reg.LEDGER_HEAD_SEQ - 16)) n
      let lines := qs.map s.recordLine
      (qs.foldl (fun s q => s.readSlot (q % 8192)) s).reply lines)

/-- ties c [t] [n]: value and binding of each tie, then the wait slots. -/
def State.tieLines (s : State) (c t n : Nat) : List (List Tok) :=
  ((List.range n).map fun i => nums [t + i, s.tie c (t + i), s.rd Reg.SYNC_HOME_CORE c (t + i), s.rd Reg.SYNC_HOME_TIE c (t + i),
    s.rd Reg.SYNC_BOUND c (t + i)]) ++
  (List.range 16).map fun i => nums [i, (s.slotWords c i).1, (s.slotWords c i).2]

def execTies (l : Line) (s : State) : Host.Outcome State Fault Refusal :=
  .next (s.trowel [116, 105, 101, 115] 1 3 false l fun s v =>
    let c := v.getD 0 0
    let t := v.getD 1 0
    let n := v.getD 2 (256 - t)
    if 1024 ≤ c ∨ 256 ≤ t ∨ 256 < t + n then s.replyErr 4
    else if s.accessStatus (windowBase c) 8 ≠ 0 then s.rangeAt (windowBase c) 8
    else s.reply (s.tieLines c t n))

def execArches (l : Line) (s : State) : Host.Outcome State Fault Refusal :=
  .next (s.trowel [97, 114, 99, 104, 101, 115] 0 0 false l fun s _ =>
    s.reply ((List.range 8).map fun a => nums [a, s.rd Reg.ARCH_CROSS 0 a, s.rd Reg.ARCH_DIES 0 a, s.rd Reg.ARCH_OPEN 0 a,
      s.rd Reg.ARCH_ARRIVED_COUNT 0 a, s.rd Reg.ARCH_CLOSURES 0 a]))

def State.portLines (s : State) : List (List Tok) :=
  ((List.range 8).map fun p => nums [p, s.rd Reg.LINK_STATE p 0, s.rd Reg.LINK_TX_WIDTH p 0, s.rd Reg.LINK_RX_WIDTH p 0,
    s.rd Reg.LINK_DOWN_CAUSE p 0, s.role p, s.peerOf p]) ++
  [nums [s.df Reg.RING_LINKS, s.df Reg.RING_CURRENT]]

def execPorts (l : Line) (s : State) : Host.Outcome State Fault Refusal :=
  .next (s.trowel [112, 111, 114, 116, 115] 0 0 false l fun s _ => s.reply s.portLines)

def State.powerLines (s : State) : List (List Tok) :=
  nums [s.df Reg.POWER_SETPOINT, s.df Reg.POWER_TARGET_NOW, s.df Reg.POWER_EST_MW, s.df Reg.POWER_MEAS_MW, s.df Reg.POWER_Q_DIE,
    s.df Reg.POWER_TJ_MAX] ::
  ((List.range 64).filter fun g => decide (s.rd Reg.POWER_REASON 0 g ≠ 0)).map fun g =>
    nums [g, s.rd Reg.POWER_LEVEL 0 g, s.rd Reg.POWER_REASON 0 g]

def execPower (l : Line) (s : State) : Host.Outcome State Fault Refusal :=
  .next (s.trowel [112, 111, 119, 101, 114] 0 0 false l fun s _ => s.reply s.powerLines)

/-! Freeze and thaw: the freeze watch answers them while the die is frozen. -/

def execFreeze (l : Line) (s : State) : Host.Outcome State Fault Refusal :=
  .next (s.trowel [102, 114, 101, 101, 122, 101] 0 0 true l fun s _ =>
    if !s.debugAllowed then s.replyErr 5
    else
      let s := s.drive 2
      if s.frozen then s.reply [[.text "frozen"]] else s.owe 2)

/-- thaw; `held` says that another driver keeps the pin low. -/
def execThaw (held : Bool) (l : Line) (s : State) : Host.Outcome State Fault Refusal :=
  .next (s.trowel [116, 104, 97, 119] 0 0 true l fun s _ => (s.undrive 2).reply [[.text (if held then "held" else "released")]])

end Sys2Proof.Machine
end

