-- ==== Sys2Proof/Machine/Dispatch.lean ====
section
/-!
DEFINITION. The dispatch: one arm per command of the table.
-/

namespace Sys2Proof.Machine

def exec (i : Instr) (s : State) : Host.Outcome State Fault Refusal :=
  match i with
  | .vddPlinthUp => Sys2Proof.Machine.execVddPlinthUp s
  | .vddPlinthLoss => Sys2Proof.Machine.execVddPlinthLoss s
  | .pwrgoodRise pos master => Sys2Proof.Machine.execPwrgoodRise pos master s
  | .pwrgoodLow => Sys2Proof.Machine.execPwrgoodLow s
  | .resetNLow => Sys2Proof.Machine.execResetNLow s
  | .resetNRelease => Sys2Proof.Machine.execResetNRelease s
  | .compResetNLow => Sys2Proof.Machine.execCompResetNLow s
  | .compResetNRelease => Sys2Proof.Machine.execCompResetNRelease s
  | .wholeDieReset path seq target a0 a1 a2 a3 => Sys2Proof.Machine.execWholeDieReset path seq target a0 a1 a2 a3 s
  | .computePartReset path seq target a0 a1 a2 a3 => Sys2Proof.Machine.execComputePartReset path seq target a0 a1 a2 a3 s
  | .coreGroupReset path seq target a0 a1 a2 a3 => Sys2Proof.Machine.execCoreGroupReset path seq target a0 a1 a2 a3 s
  | .bootPhase r => Sys2Proof.Machine.execBootPhase r s
  | .stageWrite path off data => Sys2Proof.Machine.execStageWrite path off data s
  | .delivered path => Sys2Proof.Machine.execDelivered path s
  | .enumGo path => Sys2Proof.Machine.execEnumGo path s
  | .enumerationStart => Sys2Proof.Machine.execEnumerationStart s
  | .hubQueryTimeout port => Sys2Proof.Machine.execHubQueryTimeout port s
  | .hubReply port p => Sys2Proof.Machine.execHubReply port p s
  | .token port p => Sys2Proof.Machine.execToken port p s
  | .tokenReturnTimeout => Sys2Proof.Machine.execTokenReturnTimeout s
  | .tokenWaitTimeout => Sys2Proof.Machine.execTokenWaitTimeout s
  | .enumDone port p => Sys2Proof.Machine.execEnumDone port p s
  | .hello port p => Sys2Proof.Machine.execHello port p s
  | .syncTickEdge refs => Sys2Proof.Machine.execSyncTickEdge refs s
  | .goAlign path => Sys2Proof.Machine.execGoAlign path s
  | .align port p => Sys2Proof.Machine.execAlign port p s
  | .trainingStateExit port tx mask us => Sys2Proof.Machine.execTrainingStateExit port tx mask us s
  | .trainingTimeout port => Sys2Proof.Machine.execTrainingTimeout port s
  | .retrain path port => Sys2Proof.Machine.execRetrain path port s
  | .frame port f => Sys2Proof.Machine.execFrame port f s
  | .lossOfFrame port => Sys2Proof.Machine.execLossOfFrame port s
  | .linkDown port p => Sys2Proof.Machine.execLinkDown port p s
  | .routeTableInstall => Sys2Proof.Machine.execRouteTableInstall s
  | .creditReturn port c vl cls n => Sys2Proof.Machine.execCreditReturn port c vl cls n s
  | .packetForward port p => Sys2Proof.Machine.execPacketForward port p s
  | .pktWrite port p => Sys2Proof.Machine.execPktWrite port p s
  | .pktWriteS port p => Sys2Proof.Machine.execPktWriteS port p s
  | .pktReadReq port p => Sys2Proof.Machine.execReadReq port p s
  | .pktReadRsp port p => Sys2Proof.Machine.execReadRsp port p s
  | .pktTieAdd port p => Sys2Proof.Machine.execTieAddPacket port p s
  | .pktComplete port p => Sys2Proof.Machine.execComplete port p s
  | .pktNack port p => Sys2Proof.Machine.execNack port p s
  | .archArrive port p => Sys2Proof.Machine.execArchArrive port p s
  | .archRelease port p => Sys2Proof.Machine.execArchRelease port p s
  | .slip port p => Sys2Proof.Machine.execSlip port p s
  | .epochWrite path v => Sys2Proof.Machine.execEpochWrite path v s
  | .courseTick => Sys2Proof.Machine.execCourseTick s
  | .demandFetch c => Sys2Proof.Machine.execDemandFetch c s
  | .runaheadFill c index b depth => Sys2Proof.Machine.execRunaheadFill c index b depth s
  | .courseEndRetire c => Sys2Proof.Machine.execCourseEndRetire c s
  | .courseOverrun => Sys2Proof.Machine.execCourseOverrun s
  | .bedGrant c b forced lat => Sys2Proof.Machine.execBedGrant c b forced lat s
  | .yardGrant u b => Sys2Proof.Machine.execYardGrant u b s
  | .scrubRead mem u row flips hard => Sys2Proof.Machine.execScrubRead mem u row flips hard s
  | .bedRepairWindow c => Sys2Proof.Machine.execBedRepairWindow c s
  | .yardRepairWindow slice => Sys2Proof.Machine.execYardRepairWindow slice s
  | .tieUpdateDelivered h t n => Sys2Proof.Machine.execTieUpdateDelivered h t n s
  | .waitRegistration c => Sys2Proof.Machine.execWaitRegistration c s
  | .waitTimeout c => Sys2Proof.Machine.execWaitTimeout c s
  | .wake c => Sys2Proof.Machine.execWake c s
  | .windowSignal c w => Sys2Proof.Machine.execWindowSignal c w s
  | .archClosure a => Sys2Proof.Machine.execArchClosure a s
  | .archForce path a => Sys2Proof.Machine.execArchForce path a s
  | .handsetTie path c index => Sys2Proof.Machine.execHandsetTie path c index s
  | .handsetOpen path c index => Sys2Proof.Machine.execHandsetOpen path c index s
  | .handsetClose path c index => Sys2Proof.Machine.execHandsetClose path c index s
  | .dumpGo path base => Sys2Proof.Machine.execDumpGo path base s
  | .dumpDone => Sys2Proof.Machine.execDumpDone s
  | .nop c slot b => Sys2Proof.Machine.execNop c slot b s
  | .add c b => Sys2Proof.Machine.execAdd c b s
  | .sub c b => Sys2Proof.Machine.execSub c b s
  | .mul c b => Sys2Proof.Machine.execMul c b s
  | .sAnd c b => Sys2Proof.Machine.execSAnd c b s
  | .sOr c b => Sys2Proof.Machine.execSOr c b s
  | .sXor c b => Sys2Proof.Machine.execSXor c b s
  | .shl c b => Sys2Proof.Machine.execShl c b s
  | .shr c b => Sys2Proof.Machine.execShr c b s
  | .sar c b => Sys2Proof.Machine.execSar c b s
  | .slt c b => Sys2Proof.Machine.execSlt c b s
  | .sltu c b => Sys2Proof.Machine.execSltu c b s
  | .addi c b => Sys2Proof.Machine.execAddi c b s
  | .andi c b => Sys2Proof.Machine.execAndi c b s
  | .ori c b => Sys2Proof.Machine.execOri c b s
  | .liq c b => Sys2Proof.Machine.execLiq c b s
  | .ld c b => Sys2Proof.Machine.execLd c b s
  | .st c b => Sys2Proof.Machine.execSt c b s
  | .rdsys c b => Sys2Proof.Machine.execRdsys c b s
  | .hset c b => Sys2Proof.Machine.execHset c b s
  | .beq c b => Sys2Proof.Machine.execBeq c b s
  | .bne c b => Sys2Proof.Machine.execBne c b s
  | .blt c b => Sys2Proof.Machine.execBlt c b s
  | .bge c b => Sys2Proof.Machine.execBge c b s
  | .jmp c b => Sys2Proof.Machine.execJmp c b s
  | .jr c b => Sys2Proof.Machine.execJr c b s
  | .lset c b => Sys2Proof.Machine.execLset c b s
  | .lseti c b => Sys2Proof.Machine.execLseti c b s
  | .bloop c b => Sys2Proof.Machine.execBloop c b s
  | .delayi c b => Sys2Proof.Machine.execDelayi c b s
  | .phaseHint c b => Sys2Proof.Machine.execPhaseHint c b s
  | .courseEnd c b => Sys2Proof.Machine.execCourseEnd c b s
  | .mm c b => Sys2Proof.Machine.execMm c b s
  | .kadd c b => Sys2Proof.Machine.execKadd c b s
  | .exportTile c b => Sys2Proof.Machine.execExport c b s
  | .fadd c b => Sys2Proof.Machine.execFadd c b s
  | .fsub c b => Sys2Proof.Machine.execFsub c b s
  | .fmul c b => Sys2Proof.Machine.execFmul c b s
  | .fma c b => Sys2Proof.Machine.execFma c b s
  | .fms c b => Sys2Proof.Machine.execFms c b s
  | .fmax c b => Sys2Proof.Machine.execFmax c b s
  | .fmin c b => Sys2Proof.Machine.execFmin c b s
  | .fabs c b => Sys2Proof.Machine.execFabs c b s
  | .fneg c b => Sys2Proof.Machine.execFneg c b s
  | .iadd c b => Sys2Proof.Machine.execIadd c b s
  | .isub c b => Sys2Proof.Machine.execIsub c b s
  | .imul c b => Sys2Proof.Machine.execImul c b s
  | .imax c b => Sys2Proof.Machine.execImax c b s
  | .imin c b => Sys2Proof.Machine.execImin c b s
  | .vShl c b => Sys2Proof.Machine.execVShl c b s
  | .vShr c b => Sys2Proof.Machine.execVShr c b s
  | .vSar c b => Sys2Proof.Machine.execVSar c b s
  | .vAnd c b => Sys2Proof.Machine.execVAnd c b s
  | .vOr c b => Sys2Proof.Machine.execVOr c b s
  | .vXor c b => Sys2Proof.Machine.execVXor c b s
  | .andn c b => Sys2Proof.Machine.execAndn c b s
  | .mov c b => Sys2Proof.Machine.execMov c b s
  | .fcmp c b => Sys2Proof.Machine.execFcmp c b s
  | .icmp c b => Sys2Proof.Machine.execIcmp c b s
  | .sel c b => Sys2Proof.Machine.execSel c b s
  | .perm c b => Sys2Proof.Machine.execPerm c b s
  | .shuf c b => Sys2Proof.Machine.execShuf c b s
  | .pack c b => Sys2Proof.Machine.execPack c b s
  | .unpack c b => Sys2Proof.Machine.execUnpack c b s
  | .cvt c b => Sys2Proof.Machine.execCvt c b s
  | .cvtS c b => Sys2Proof.Machine.execCvtS c b s
  | .split2 c b => Sys2Proof.Machine.execSplit2 c b s
  | .split3 c b => Sys2Proof.Machine.execSplit3 c b s
  | .rsum c b => Sys2Proof.Machine.execRsum c b s
  | .rmax c b => Sys2Proof.Machine.execRmax c b s
  | .rmin c b => Sys2Proof.Machine.execRmin c b s
  | .rssq c b => Sys2Proof.Machine.execRssq c b s
  | .rmv c b => Sys2Proof.Machine.execRmv c b s
  | .amaxs c b => Sys2Proof.Machine.execAmaxs c b s
  | .vld c b => Sys2Proof.Machine.execVld c b s
  | .vst c b => Sys2Proof.Machine.execVst c b s
  | .setvl c b => Sys2Proof.Machine.execSetvl c b s
  | .setvlR c b => Sys2Proof.Machine.execSetvlR c b s
  | .pull c b => Sys2Proof.Machine.execPull c b s
  | .teval c b => Sys2Proof.Machine.execTeval c b s
  | .tload c b => Sys2Proof.Machine.execTload c b s
  | .tloadComplete c => Sys2Proof.Machine.execTloadComplete c s
  | .tswap c b => Sys2Proof.Machine.execTswap c b s
  | .tswapEffect c => Sys2Proof.Machine.execTswapEffect c s
  | .beylerWrite c v => Sys2Proof.Machine.execBeylerWrite c v s
  | .imageCopyDone c => Sys2Proof.Machine.execImageCopyDone c s
  | .filla c b => Sys2Proof.Machine.execFilla c b s
  | .fillw c b => Sys2Proof.Machine.execFillw c b s
  | .fillb c b => Sys2Proof.Machine.execFillb c b s
  | .moveCopy c b => Sys2Proof.Machine.execMove c b s
  | .moveBegin c => Sys2Proof.Machine.execMoveBegin c s
  | .signal c b => Sys2Proof.Machine.execSignal c b s
  | .tieAdd c b => Sys2Proof.Machine.execTieAdd c b s
  | .tieAddL c b => Sys2Proof.Machine.execTieAddL c b s
  | .dec c b => Sys2Proof.Machine.execDec c b s
  | .waitTie c b => Sys2Proof.Machine.execWaitTie c b s
  | .waitTake c b => Sys2Proof.Machine.execWaitTake c b s
  | .arrive c b => Sys2Proof.Machine.execArrive c b s
  | .await c b => Sys2Proof.Machine.execAwait c b s
  | .wopen c b => Sys2Proof.Machine.execWopen c b s
  | .wclose c b => Sys2Proof.Machine.execWclose c b s
  | .registerWrite path a v => Sys2Proof.Machine.execRegisterWrite path a v s
  | .histClear c v => Sys2Proof.Machine.execHistClear c v s
  | .ackSeq path v => Sys2Proof.Machine.execAckSeq path v s
  | .domOff path v => Sys2Proof.Machine.execDomOff path v s
  | .domOffYq path v => Sys2Proof.Machine.execDomOffYq path v s
  | .domainSwitchDone => Sys2Proof.Machine.execDomainSwitchDone s
  | .start path seq target a0 a1 a2 a3 => Sys2Proof.Machine.execStart path seq target a0 a1 a2 a3 s
  | .suspend path seq target a0 a1 a2 a3 => Sys2Proof.Machine.execSuspend path seq target a0 a1 a2 a3 s
  | .resume path seq target a0 a1 a2 a3 => Sys2Proof.Machine.execResume path seq target a0 a1 a2 a3 s
  | .resumeFromImage path seq target a0 a1 a2 a3 => Sys2Proof.Machine.execResumeFromImage path seq target a0 a1 a2 a3 s
  | .cancel path seq target a0 a1 a2 a3 => Sys2Proof.Machine.execCancel path seq target a0 a1 a2 a3 s
  | .memtest path seq target a0 a1 a2 a3 => Sys2Proof.Machine.execMemtest path seq target a0 a1 a2 a3 s
  | .memtestDone faults => Sys2Proof.Machine.execMemtestDone faults s
  | .broadcast path seq target a0 a1 a2 a3 => Sys2Proof.Machine.execBroadcast path seq target a0 a1 a2 a3 s
  | .floodPacket c k data => Sys2Proof.Machine.execFloodPacket c k data s
  | .broadcastRound => Sys2Proof.Machine.execBroadcastRound s
  | .rebond path seq target a0 a1 a2 a3 => Sys2Proof.Machine.execRebond path seq target a0 a1 a2 a3 s
  | .rebondMoverStart => Sys2Proof.Machine.execRebondMoverStart s
  | .rebondPacket m => Sys2Proof.Machine.execRebondPacket m s
  | .rebondTimeout m => Sys2Proof.Machine.execRebondTimeout m s
  | .repair path seq target a0 a1 a2 a3 => Sys2Proof.Machine.execRepair path seq target a0 a1 a2 a3 s
  | .contextTransfer g => Sys2Proof.Machine.execContextTransfer g s
  | .powerLoop x => Sys2Proof.Machine.execPowerLoop x s
  | .powerWindow holds => Sys2Proof.Machine.execPowerWindow holds s
  | .envelopeTarget path v => Sys2Proof.Machine.execEnvelopeTarget path v s
  | .telemetry f => Sys2Proof.Machine.execTelemetry f s
  | .telemetryLost => Sys2Proof.Machine.execTelemetryLost s
  | .droopTrip d => Sys2Proof.Machine.execDroopTrip d s
  | .droopClear d n total => Sys2Proof.Machine.execDroopClear d n total s
  | .droopLong => Sys2Proof.Machine.execDroopLong s
  | .coolantOkFall => Sys2Proof.Machine.execCoolantOkFall s
  | .coolantStop => Sys2Proof.Machine.execCoolantStop s
  | .coolantRestored => Sys2Proof.Machine.execCoolantRestored s
  | .throttleSummary => Sys2Proof.Machine.execThrottleSummary s
  | .alert path v => Sys2Proof.Machine.execAlert path v s
  | .repointing path => Sys2Proof.Machine.execRepointing path s
  | .repointingDone mon delay => Sys2Proof.Machine.execRepointingDone mon delay s
  | .railReqRepeat => Sys2Proof.Machine.execRailReqRepeat s
  | .railReqTimeout rail => Sys2Proof.Machine.execRailReqTimeout rail s
  | .ledgerRecord => Sys2Proof.Machine.execLedgerRecord s
  | .ledgerIbiRepeat => Sys2Proof.Machine.execLedgerIbiRepeat s
  | .rateSummary => Sys2Proof.Machine.execRateSummary s
  | .minuteCount => Sys2Proof.Machine.execMinuteCount s
  | .attestGo path => Sys2Proof.Machine.execAttestGo path s
  | .attestReportDone => Sys2Proof.Machine.execAttestReportDone s
  | .markLock path => Sys2Proof.Machine.execLock path s
  | .debugFreeze path => Sys2Proof.Machine.execDebugFreeze path s
  | .freezeNLow => Sys2Proof.Machine.execFreezeNLow s
  | .freezeNHigh refs => Sys2Proof.Machine.execFreezeNHigh refs s
  | .debugMode path v => Sys2Proof.Machine.execDebugMode path v s
  | .traceEnable path v => Sys2Proof.Machine.execTraceEnable path v s
  | .traceReady => Sys2Proof.Machine.execTraceReady s
  | .traceRecord c => Sys2Proof.Machine.execTraceRecord c s
  | .idcode => Sys2Proof.Machine.execIdcode s
  | .ijtag => Sys2Proof.Machine.execIjtag s
  | .bypass code => Sys2Proof.Machine.execBypass code s
  | .freezeCtl on => Sys2Proof.Machine.execFreezeCtl on s
  | .corescan c => Sys2Proof.Machine.execCorescan c s
  | .memrd a => Sys2Proof.Machine.execMemrd a s
  | .tapReset => Sys2Proof.Machine.execTapReset s
  | .trowelPeek l => Sys2Proof.Machine.execPeek l s
  | .trowelPoke l => Sys2Proof.Machine.execPoke l s
  | .trowelFloor l => Sys2Proof.Machine.execFloor l s
  | .trowelLedger l => Sys2Proof.Machine.execLedger l s
  | .trowelTies l => Sys2Proof.Machine.execTies l s
  | .trowelArches l => Sys2Proof.Machine.execArches l s
  | .trowelPorts l => Sys2Proof.Machine.execPorts l s
  | .trowelPower l => Sys2Proof.Machine.execPower l s
  | .trowelFreeze l => Sys2Proof.Machine.execFreeze l s
  | .trowelThaw held l => Sys2Proof.Machine.execThaw held l s
  | .trowelDump l => Sys2Proof.Machine.execDump l s
  | .trowelSetTie l => Sys2Proof.Machine.execSetTie l s
  | .sbRegWrite f => Sys2Proof.Machine.execRegWrite f s
  | .sbRegRead f => Sys2Proof.Machine.execRegRead f s
  | .sbEnvelope f => Sys2Proof.Machine.execEnvelope f s
  | .sbRailDone f => Sys2Proof.Machine.execRailDone f s
  | .sbLedgerRead f => Sys2Proof.Machine.execLedgerRead f s
  | .sbPrivateRead => Sys2Proof.Machine.execPrivateRead s
  | .enec => Sys2Proof.Machine.execEnec s
  | .disec => Sys2Proof.Machine.execDisec s
  | .rstdaa => Sys2Proof.Machine.execRstdaa s
  | .setdasa static dyn => Sys2Proof.Machine.execSetdasa static dyn s
  | .setmwl n => Sys2Proof.Machine.execSetmwl n s
  | .setmrl n => Sys2Proof.Machine.execSetmrl n s
  | .getmwl => Sys2Proof.Machine.execGetmwl s
  | .getmrl => Sys2Proof.Machine.execGetmrl s
  | .getpid => Sys2Proof.Machine.execGetpid s
  | .getbcr => Sys2Proof.Machine.execGetbcr s
  | .getdcr => Sys2Proof.Machine.execGetdcr s
  | .getstatus => Sys2Proof.Machine.execGetstatus s
  | .cmdResult => Sys2Proof.Machine.execCmdResult s
  | .memtestPassEnd last => Sys2Proof.Machine.execMemtestPassEnd last s

end Sys2Proof.Machine
end

