-- ==== Sys2Proof/Safety.lean ====
section
/-!
DEFINITION. The terms in which claims about the machine are made: when a bundle issues, and what a frame leaves unchanged.
-/

namespace Sys2Proof.Machine

/-- Keys rise strictly. -/
def Sparse.sorted {α : Type} (m : Sparse α) : Prop := m.Pairwise fun x y => x.1 < y.1

/-- The canonical form of a state: its memory, its registers and its cores are listed with rising keys, and the memory lists no blank byte. -/
structure State.Canon (s : State) : Prop where
  mem : Memory.wf s.mem = true
  regs : Sparse.sorted s.regs
  cores : Sparse.sorted s.cores

/-- The sparse stores of a core are listed with rising keys. -/
structure Core.Canon (k : Core) : Prop where
  acc : Sparse.sorted k.acc
  fbuf : Sparse.sorted k.fbuf
  bbuf : Sparse.sorted k.bbuf
  tile : Sparse.sorted k.tile
  segs : Sparse.sorted k.segs
  ties : Sparse.sorted k.ties
  windows : Sparse.sorted k.windows

/-! Issue (R37, R47, R183–R187). -/

/-- The bundle of a slot command: the opcode of the command's slot stands in it. -/
def coded (sl : Slot) (op : Nat) (b : Bundle) : Bundle := setOpcode b (slotOpAt sl).1 (slotOpAt sl).2 op

/-- Core c issues bundle b, of which the slot is the first to issue: the core is issuing, the bundle is legal and not the one under way, the
course has room for it, no COURSE_END has issued, no stop is on its way (R368), and the bundle buffer holds it at the next index (R191)
with no parity error. -/
structure State.Issues (s : State) (c : Nat) (sl : Slot) (b : Bundle) : Prop where
  issuing : s.issuing c = true
  calm : s.task.halts = []
  free : slotBorrowed b sl = false
  fresh : ¬((s.core c).seq.bundle = b ∧ (s.core c).seq.lastSlot < slotCode sl)
  going : (s.core c).seq.endEntry = none
  inside : (s.core c).seq.nextCycle < (s.core c).seq.len
  there : (s.core c).holds b = true
  parity : (s.core c).parityBad = []
  legal : bundleBreach b = none

/-- The state in which the slots of a bundle issued at core c act. -/
def State.opened (s : State) (c : Nat) (sl : Slot) (b : Bundle) : State :=
  ((s.startBundle c (slotCode sl) b).bumpC Reg.ISSUE_ISSUED c 1).bumpC Reg.ISSUE_DELAYED c (bDelay b)

/-! Frames. -/

/-- Everything of the die but registers, memory and cores. -/
def State.rest (s : State) : State := { s with regs := [], mem := [], marks := [], cores := [] }

/-- Everything of a core but its scalar registers, loop counters, sequencing and tile rows. -/
def Core.rest (k : Core) : Core :=
  { k with sreg := Core.init.sreg, lc := Core.init.lc, seq := Sequencer.init, tm := Timing.init, tile := [], rowWrites := [], hod := [] }

/-- Register fields outside a list of keys read as before. -/
def State.RegsBut (s t : State) (keys : List Nat) : Prop := ∀ d k, k ∉ keys → Sparse.get d t.regs k = Sparse.get d s.regs k

/-- A command that works inside core c: the rest of the die, the other cores and the registers outside a list are unchanged. -/
structure State.InCore (s t : State) (c : Nat) (keys : List Nat) : Prop where
  rest : t.rest = s.rest
  others : ∀ d, d ≠ c → t.core d = s.core d
  regs : s.RegsBut t keys

/-- The register fields that issuing a bundle at core c may change: its counters, its holds for a late load or a late bundle, the template banks whose load or
swap becomes visible, and the timestamp. -/
def issueKeys (c : Nat) : List Nat :=
  [Reg.ISSUE_ISSUED.key c 0, Reg.ISSUE_DELAYED.key c 0, Reg.SEQ_FEED_HOLD.key c 0, Reg.SEQ_FETCH_HOLD.key c 0,
   Reg.TPL_SHADOW_READY.key c 0, Reg.TPL_LOADS.key c 0,
   Reg.TPL_ACTIVE.key c 0, Reg.TPL_SWAPS.key c 0, Reg.CTRL_TIMESTAMP.key 0 0]

/-- Tile rows and the hod-queue claims of core c are unchanged where no row write is on its way. -/
def State.TilesKept (s t : State) (c : Nat) : Prop :=
  (s.core c).rowWrites = [] → (t.core c).tile = (s.core c).tile ∧ (t.core c).rowWrites = []

/-- Tile rows already stored are unchanged where no row write is on its way. -/
def State.TilesKeptUnder (s t : State) (c : Nat) : Prop := (s.core c).rowWrites = [] → (t.core c).tile = (s.core c).tile

/-! Slot commands. -/

/-- The command that `mk` makes of a core and a bundle completes wherever the bundle issues and P holds, and Q relates the states before and
after; P and Q see the bundle with its opcode in place. The stores of the die and of the core are in canonical form, as every step leaves
them. -/
def CompletesIf (mk : Nat → Bundle → Instr) (sl : Slot) (op : Nat) (P : State → Nat → Bundle → Prop)
    (Q : State → Nat → Bundle → State → Prop) : Prop :=
  ∀ (s : State) (c : Nat) (b : Bundle), s.Canon → (s.core c).Canon → s.Issues c sl (coded sl op b) → P s c (coded sl op b) →
    ∃ t, exec (mk c b) s = .next t ∧ Q s c (coded sl op b) t

/-- The same with no condition beyond issue. -/
def Completes (mk : Nat → Bundle → Instr) (sl : Slot) (op : Nat) (Q : State → Nat → Bundle → State → Prop) : Prop :=
  CompletesIf mk sl op (fun _ _ _ => True) Q

/-- Scalar register r of core c as a word. -/
def State.word (s : State) (c r : Nat) : Word := BitVec.ofNat 64 (s.sregNext c r)

/-- Scalar registers other than those in a list are unchanged. -/
def State.SregsBut (s t : State) (c : Nat) (l : List Nat) : Prop := ∀ r, r ∉ l → t.word c r = s.word c r

/-- What a scalar operation leaves unchanged: the rest of the die and the other cores, register fields outside a list, every byte of memory,
everything of the core but its scalar registers, loop counters and sequencing. -/
structure State.ScalarFrame (s t : State) (c : Nat) (keys : List Nat) : Prop where
  inCore : s.InCore t c keys
  bytes : ∀ a, t.byteAt a = s.byteAt a
  rest : (t.core c).rest = (s.core c).rest
  tiles : s.TilesKept t c
  claims : ∀ x ∈ (s.core c).hod, x.release = none → x ∈ (t.core c).hod

/-- rd takes f of ra and rb as they stood before the bundle. -/
def regOp (f : Word → Word → Word) (s : State) (c : Nat) (b : Bundle) (t : State) : Prop :=
  t.word c (sRd b) = f (s.word c (sRa b)) (s.word c (sRb b)) ∧ s.SregsBut t c [sRd b] ∧ (t.core c).lc = (s.core c).lc ∧
  s.ScalarFrame t c (issueKeys c)

/-- rd takes f of ra and imm16. -/
def immOp (f : Word → BitVec 16 → Word) (s : State) (c : Nat) (b : Bundle) (t : State) : Prop :=
  t.word c (sRd b) = f (s.word c (sRa b)) (BitVec.ofNat 16 (sImm16 b)) ∧ s.SregsBut t c [sRd b] ∧ (t.core c).lc = (s.core c).lc ∧
  s.ScalarFrame t c (issueKeys c)

/-- Next bundle of core c: its index. -/
def State.next (s : State) (c : Nat) : Nat := (s.core c).seq.nextIndex

/-- A bundle index to which the current course of core c may branch: below 12,288, with its bundle inside the bed (R190). -/
def State.branchable (s : State) (c : Nat) (i : Int) : Prop :=
  0 ≤ i ∧ i ≤ 12287 ∧ 32 * (s.cf Reg.SEQ_ENTRY c : Int) + 64 + 32 * i ≤ bedSize

/-- Registers that a branch may change: those of issue, the branches taken, and the discards of run-ahead. -/
def branchKeys (c : Nat) : List Nat := issueKeys c ++ [Reg.ISSUE_TAKEN.key c 0, Reg.SEQ_DISCARDS.key c 0]

/-- What a branch leaves unchanged: scalar registers, memory, the rest of the die, and everything of the core but its sequencing and its
run-ahead fills. -/
structure State.BranchFrame (s t : State) (c : Nat) : Prop where
  inCore : s.InCore t c (branchKeys c)
  bytes : ∀ a, t.byteAt a = s.byteAt a
  sregs : (t.core c).sreg = (s.core c).sreg
  rest : { t.core c with shadow := [] }.rest = { s.core c with shadow := [] }.rest

/-- A conditional branch: to the bundle at its own index plus the offset when p holds of ra and rb, else to the next bundle. -/
def branchOp (p : Word → Word → Bool) (s : State) (c : Nat) (b : Bundle) (t : State) : Prop :=
  let target : Int := s.next c + signedOf 16 (sImm16 b)
  (p (s.word c (sBa b)) (s.word c (sBb b)) = true → (t.next c : Int) = target ∧ t.cf Reg.ISSUE_TAKEN c = min (s.cf Reg.ISSUE_TAKEN c + 1) (2 ^ 32 - 1)) ∧
  (p (s.word c (sBa b)) (s.word c (sBb b)) = false → t.next c = s.next c + 1) ∧
  (t.core c).lc = (s.core c).lc ∧ s.BranchFrame t c

/-- Handle h of core c as a bundle that issues resolves it (R211). -/
def State.handleNow (s : State) (c h : Nat) : Handle := Handle.ofWords (s.handleWords c h).1 (s.handleWords c h).2

/-- Byte offset of LD and ST, and the address that their handle gives it (R12, R189). -/
def ldOffset (s : State) (c : Nat) (b : Bundle) : Nat := wrapTo 64 (((s.word c (sRa b)).toNat : Int) + 8 * signedOf 10 (fld (bS b) 31 22))
def ldHandle (s : State) (c : Nat) (b : Bundle) : Handle := s.handleNow c (fld (bS b) 21 16)
def ldAddress (s : State) (c : Nat) (b : Bundle) : Nat := windowBase c + ((ldHandle s c b).base + ldOffset s c b)

/-- LD and ST reach their word: an aligned offset inside a narrow bed handle. -/
def ldFits (s : State) (c : Nat) (b : Bundle) : Prop := ldOffset s c b % 8 = 0 ∧ (ldHandle s c b).narrow (ldOffset s c b) 8 = true

/-- Registers that a bed access of an engine may change: those of issue and the counters of bed accesses. -/
def bedKeys (c : Nat) : List Nat :=
  issueKeys c ++ [Reg.BED_MAX_WAIT.key c 0, Reg.BED_PARTIAL.key c 0, Reg.BED_CORR_NARROW.key c 0, Reg.BED_CORR_WIDE.key c 0,
    Reg.YARD_BED_CORR.key 0 0, Reg.SEQ_ECC_HOLD.key c 0]

/-- Bytes a to a + n − 1 of memory hold a list of bytes and every other byte is as before. -/
def State.Stored (s t : State) (a : Nat) (bs : List Byte) : Prop :=
  ∀ x, t.byteAt x = if a ≤ x ∧ x < a + bs.length then bs.getD (x - a) 0#8 else s.byteAt x

/-! Matrix commands (R95–R106, R124–R126, R192). -/

/-- Registers that a matrix command may change. -/
def matrixKeys (c : Nat) : List Nat :=
  bedKeys c ++ [Reg.ACC_ROUNDED.key c 0, Reg.ACC_LOSS_EVENTS.key c 0, Reg.BED_CORR_ACC.key c 0,
    Reg.ARRAY_ISSUED0.key c 0, Reg.ARRAY_ISSUED1.key c 0, Reg.ARRAY_ISSUED2.key c 0, Reg.ARRAY_ISSUED3.key c 0,
    Reg.ARRAY_FEED0.key c 0, Reg.ARRAY_FEED1.key c 0, Reg.ARRAY_FEED2.key c 0, Reg.ARRAY_FEED3.key c 0]

/-- The checks of R106 pass at issue with no other matrix work under way: arrays, shape, entries, and the activation bytes; no fill is on
its way and no accumulator word is marked. -/
structure State.MatrixReady (s : State) (c : Nat) (p : MmArgs) : Prop where
  arrays : s.maskBad c p.mask = false
  columns : p.n ≤ if p.digits = 1 then 48 else 16
  steps : p.k ≠ 0
  entries : p.acc + p.entries ≤ 12
  free : (s.core c).tm.mmNext ≤ (s.core c).seq.nextCycle
  promos : (s.core c).tm.promos = []
  fills : (s.core c).tm.fills = []
  marks : (s.core c).accMarks = []
  kind : (s.handleNow c p.ah).kind = 2
  form : (s.handleNow c p.ah).formOk = true
  object : (s.handleNow c p.ah).objectOk = true
  extent : 0 < (s.handleNow c p.ah).extent
  feed : p.aoff + p.k ≤ (s.handleNow c p.ah).extent / padRow p.m p.fa.width

/-- Element (i, j) of array a lies in the tile of an instruction. -/
def MmArgs.covers (p : MmArgs) (a i j : Nat) : Prop := a < 4 ∧ bit p.mask a = true ∧ i < p.m ∧ j < p.n

/-- What the elements outside a tile and the rest of the core keep. -/
def State.MatrixFrame (s t : State) (c : Nat) : Prop :=
  s.InCore t c (matrixKeys c) ∧ (∀ a, t.byteAt a = s.byteAt a) ∧ (t.core c).sreg = (s.core c).sreg ∧ (t.core c).lc = (s.core c).lc ∧
  { t.core c with acc := [], accMarks := [], curBank := [] }.rest = { s.core c with acc := [], accMarks := [], curBank := [] }.rest

/-! Vector commands (R147–R164). -/

/-- Registers that a dresser or template command may change. -/
def vectorKeys (c : Nat) : List Nat :=
  bedKeys c ++ [Reg.DRESS_VOPS.key c 0, Reg.DRESS_BUSY.key c 0, Reg.DRESS_CVT_NAN.key c 0, Reg.DRESS_CVT_SAT.key c 0,
    Reg.DRESS_CVT_VANISH.key c 0, Reg.DRESS_IV.key c 0, Reg.DRESS_DZ.key c 0, Reg.DRESS_OF.key c 0, Reg.DRESS_UF.key c 0,
    Reg.DRESS_NX.key c 0, Reg.DRESS_AZ.key c 0, Reg.DRESS_AMAX_ZERO.key c 0, Reg.NUM_SR_COUNT.key c 0]

/-- Rows and lanes of the loop shape at core c. -/
def State.rows (s : State) (c : Nat) : Nat := s.cf Reg.DRESS_RL c
def State.lanes (s : State) (c : Nat) : Nat := s.cf Reg.DRESS_VL c

/-- A dresser operation on source fields and destination codes meets no condition of R164: the dresser is free, the registers exist in the
mode, the cache rows fit, the head of the hod queue is final where it is read, and no row write is on its way. -/
structure State.VectorReady (s : State) (c : Nat) (b : Bundle) (srcs dsts : List Nat) : Prop where
  free : (s.core c).tm.vNext ≤ (s.core c).seq.nextCycle
  present : ((srcs.map srcCode) ++ dsts).any (absent (decide (s.cf Reg.DRESS_BEYLER c = 1))) = false
  cache : ((srcs.map srcCode) ++ dsts).contains 0xB = true → vQB (bV b) + s.rows c ≤ 64
  head : ((srcs.map srcCode).any fun x => x = 8 || x = 9) = true → ∃ h, (s.core c).hodHead = some h ∧ h.final ≤ (s.core c).seq.nextCycle + 1
  writes : (s.core c).rowWrites = []

/-- Lane l of source field f in the read cycle of row r, as the operation of a bundle that opens reads it. -/
def operand (s : State) (c : Nat) (b : Bundle) (kind : ImmKind) (f at_ r l : Nat) : Nat :=
  ((s.opened c .v b).core c).source b kind f at_ r l

/-- Core c writes value x to lane l of row w of tile register t in course cycle y. -/
def State.Writes (s : State) (c t w l y x : Nat) : Prop :=
  ∃ rw ∈ (s.core c).rowWrites, rw.cycle = y ∧ rw.t = t ∧ rw.row = w ∧ (l, BitVec.ofNat 32 x) ∈ rw.lanes

/-- Course cycle in which the bundle of a slot command issues. -/
def State.issueCycle (s : State) (c : Nat) : Nat := (s.core c).seq.nextCycle

/-- What a dresser operation leaves unchanged: the rest of the die, memory, scalar registers, and every tile row but those it writes, which
land later. -/
def State.VectorFrame (s t : State) (c : Nat) : Prop :=
  s.InCore t c (vectorKeys c) ∧ (∀ a, t.byteAt a = s.byteAt a) ∧ (t.core c).sreg = (s.core c).sreg ∧ (t.core c).lc = (s.core c).lc ∧
  (t.core c).rest = (s.core c).rest ∧ (t.core c).tile = (s.core c).tile

/-- An element-wise operation: lane l of destination row r takes g of the draw and of lane l of the sources' rows r, in cycle
`lat + r` after issue (R151, R152). -/
def laneOp (lat : Nat) (kind : ImmKind) (g : Bundle → Nat → Nat → Nat → Nat → Nat) (s : State) (c : Nat) (b : Bundle) (t : State) : Prop :=
  (∀ r < s.rows c, ∀ l < s.lanes c,
    let x (f : Nat) : Nat := operand s c b kind f (s.issueCycle c + 1 + r) r l
    let dk : DrawKey := ⟨s.cf Reg.NUM_SEED c, s.df Reg.CTRL_COURSE_NUMBER, s.issueCycle c, s.cf Reg.NUM_TAG c, 4⟩
    let draw := if vRM (bV b) = 2 then dk.draw (64 * r + l) else 0
    t.Writes c (destAt b (vDst (bV b)) r).1 (destAt b (vDst (bV b)) r).2 l (s.issueCycle c + lat + r)
      (g b draw (x (vSA (bV b))) (x (vSB (bV b))) (x (vSC (bV b))))) ∧
  (∀ w ∈ (t.core c).rowWrites, ∃ r < s.rows c, (w.t, w.row) = destAt b (vDst (bV b)) r ∧ w.cycle = s.issueCycle c + lat + r) ∧
  s.VectorFrame t c

/-- The condition under which an operation with the sources and the destination of its form meets no fault. -/
def vectorOk (s : State) (c : Nat) (b : Bundle) : Prop := s.VectorReady c b (vSources (bV b)) [vDst (bV b)]

/-- A row operation: lane l < n of destination row r takes g of the two source rows. -/
def rowOp (lat : Nat) (n : Nat → Nat) (g : Bundle → Nat → (Nat → Nat) → (Nat → Nat) → Nat → Nat) (s : State) (c : Nat) (b : Bundle) (t : State) :
    Prop :=
  (∀ r < s.rows c, ∀ l < n (s.lanes c),
    let x (f : Nat) : Nat → Nat := fun l => operand s c b .bits f (s.issueCycle c + 1 + r) r l
    t.Writes c (destAt b (vDst (bV b)) r).1 (destAt b (vDst (bV b)) r).2 l (s.issueCycle c + lat + r)
      (g b (s.lanes c) (x (vSA (bV b))) (x (vSB (bV b))) l)) ∧
  (∀ w ∈ (t.core c).rowWrites, ∃ r < s.rows c, (w.t, w.row) = destAt b (vDst (bV b)) r ∧ w.cycle = s.issueCycle c + lat + r) ∧
  s.VectorFrame t c

/-- The block a lane belongs to is named by a 2-bit code: 16, 32 or 64 lanes (R154, R158). -/
def blockOf (code : Nat) : Nat := if code = 0 then 16 else if code = 1 then 32 else 64

/-- A wide access of n bytes at byte offset `off` of a bed handle, at its address in core c's bed (R212). -/
def State.wideAt (c : Nat) (h : Handle) (off : Nat) : Nat := windowBase c + (h.base + off)

/-- Handle, offset and stride of VLD and VST (R153). -/
def vldHandle (s : State) (c : Nat) (b : Bundle) : Handle := s.handleNow c (fld (bV b) 21 16)
def vldOffset (s : State) (c : Nat) (b : Bundle) (r : Nat) : Nat :=
  fld (s.word c (fld (bV b) 26 22)).toNat 23 0 + r * fld (s.word c (fld (bV b) 26 22)).toNat 47 24

/-- VLD and VST reach their rows: offset and stride multiples of 4, every row inside the handle, and no marked word (R153, R212). -/
def vldFits (s : State) (c : Nat) (b : Bundle) : Prop :=
  vldOffset s c b 0 % 4 = 0 ∧ (vldOffset s c b 1 - vldOffset s c b 0) % 4 = 0 ∧ s.marks = [] ∧
  ∀ r < s.rows c, (vldHandle s c b).wide (vldOffset s c b r) (4 * s.lanes c) = true

/-- Registers that an export may change. -/
def exportKeys (c : Nat) : List Nat :=
  vectorKeys c ++ [Reg.POINT_EXPORTS.key c 0, Reg.POINT_SAT.key c 0, Reg.POINT_LAST_SAT.key c 0, Reg.POINT_SAT_COUNT.key c 0,
    Reg.POINT_VANISH_COUNT.key c 0, Reg.POINT_NAN_COUNT.key c 0, Reg.POINT_REPLAY_ROWS.key c 0, Reg.BED_CORR_ACC.key c 0] ++
  (List.range 2).flatMap (fun i => [Reg.POINT_NAN.key c i, Reg.POINT_INF.key c i, Reg.POINT_ZERO.key c i, Reg.POINT_SATURATED.key c i,
    Reg.POINT_VANISHED.key c i]) ++
  (List.range 64).flatMap fun i => [Reg.POINT_BIN0.key c i, Reg.POINT_BIN1.key c i]

/-- The export that EXPORT and PULL name (R130, R159, R193, R196). -/
def exportOf (s : State) (c : Nat) (b : Bundle) : ExportArgs :=
  exportArgs (bM b) (bExt b) (s.word c (fld (bM b) 43 39)).toNat (s.word c (fld (bM b) 48 44)).toNat

/-- Entries of a scale sidecar as bed holds them (R73): none where the export names no sidecar. -/
def State.sidecar (s : State) (c : Nat) (h : Option Nat) (first n : Nat) : List Val :=
  match h with
  | none => []
  | some h =>
    let at_ := windowBase c + (s.handleNow c h).base
    let d := Sidecar.ofHeader (s.bytesAt at_ 8)
    (List.range n).map fun i => d.value (s.bytesAt (at_ + 8 + (first + i) * d.size) d.size)

/-- The scales of an export: one for each row, and one for each column of every array (R132). -/
def rowScales (s : State) (c : Nat) (p : ExportArgs) : List Val := s.sidecar c p.rh p.rbase p.m
def columnScales (s : State) (c : Nat) (p : ExportArgs) : List Val := s.sidecar c p.ch p.cbase (p.arrays * p.n)

/-- Every sidecar of an export has kind FP32 or E8M0 and holds its entries (R73, R145). -/
def State.sidecarsOk (s : State) (c : Nat) (p : ExportArgs) : Prop :=
  ∀ x ∈ p.sidecars,
    let h := s.handleNow c x.1
    let d := Sidecar.ofHeader (s.bytesAt (windowBase c + h.base) 8)
    d.kind < 2 ∧ h.wide 8 ((x.2.1 + x.2.2) * d.size) = true ∧ x.2.1 + x.2.2 ≤ d.count

/-- An export in the bundle that opens meets no fault at issue and none at its sidecar read (R145), and finds neither a marked accumulator
word nor a marked bed word. -/
structure State.ExportReady (s : State) (c : Nat) (p : ExportArgs) (sl : Slot) (b : Bundle) : Prop where
  check : exportCheck (s.opened c sl b) c p = none
  sidecars : s.sidecarsOk c p
  acc : (s.core c).accMarks = []
  bed : s.marks = []

/-- The encoding an export gives element (i, n) of array a, of rank `rank` (R132, R138, R139), on the sources that state u holds. -/
def exportBits (u : State) (c : Nat) (p : ExportArgs) (srs scs : List Val) (i rank a n : Nat) : Nat :=
  (pointRound p.ofmt p.rm p.sw (p.draw (u.drawKey c a) i n)
    (((rowValues u c p srs scs i rank a).getD n (.num false 0 0)).scaleDown (lineK u c p srs scs i))).bits

/-- Rank a' of array a in the mask of an export. -/
def ExportArgs.ranked (p : ExportArgs) (rank a : Nat) : Prop := (maskArrays p.mask)[rank]? = some a

/-- Byte x lies in the n bytes at address a. -/
abbrev inRun (x a n : Nat) : Prop := a ≤ x ∧ x < a + n

/-- Address of byte `off` behind handle h of core c as a bundle that issues resolves it. -/
def State.behind (s : State) (c h off : Nat) : Nat := windowBase c + ((s.handleNow c h).base + off)

/-- Header and entry addresses of an output sidecar (R73, R139). -/
def State.outSidecar (s : State) (c h : Nat) : Sidecar := Sidecar.ofHeader (s.bytesAt (s.behind c h 0) 8)
def outEntry (s : State) (c : Nat) (p : ExportArgs) (h i : Nat) : Nat := s.behind c h (8 + (p.rbase + i) * (s.outSidecar c h).size)

/-- The bytes of bed that an export writes: destination rows and images (R133, R141), statistics (R142), and output sidecar entries (R139). -/
def tensorByte (s : State) (c : Nat) (p : ExportArgs) (x : Nat) : Prop :=
  (p.dest = 1 ∧ p.mode ≠ 2 ∧ ∃ i < p.m, ∃ r < p.arrays, inRun x (s.behind c p.dh (p.dOff + p.rowAt p.ofmt.width i r)) (rowLen p.n p.ofmt.width)) ∨
  (p.mode = 2 ∧ ∃ r < p.arrays, inRun x (s.behind c p.dh (p.dOff + 5120 * r)) 5120)
def statsByte (s : State) (c : Nat) (p : ExportArgs) (x : Nat) : Prop :=
  p.stats ≠ 0 ∧ ∃ r < p.arrays, ∃ i < p.m, inRun x (s.behind c p.sh (p.sOff + (r * p.m + i) * 8)) 8
def outByte (s : State) (c : Nat) (p : ExportArgs) (x : Nat) : Prop :=
  ∃ h, p.oh = some h ∧ ∃ i < p.m, inRun x (outEntry s c p h i) (s.outSidecar c h).size

/-- The bytes of bed that an export reads while it writes: the fused operand and the header of the output sidecar. -/
def readByte (s : State) (c : Nat) (p : ExportArgs) (x : Nat) : Prop :=
  (p.fop ≠ 0 ∧ ∃ i < p.m, ∃ r < p.arrays, inRun x (s.behind c p.fh (p.fOff + p.rowAt p.ffmt.width i r)) (rowLen p.n p.ffmt.width)) ∨
  (∃ h, p.oh = some h ∧ inRun x (s.behind c h 0) 8)

/-- No byte is written twice, and none is read and written. -/
def Apart (s : State) (c : Nat) (p : ExportArgs) : Prop :=
  ∀ x, ¬(tensorByte s c p x ∧ statsByte s c p x) ∧ ¬(tensorByte s c p x ∧ outByte s c p x) ∧ ¬(statsByte s c p x ∧ outByte s c p x) ∧
    ¬(readByte s c p x ∧ (tensorByte s c p x ∨ statsByte s c p x ∨ outByte s c p x))

/-- What every export keeps: the rest of the die and of the core, scalar registers, tile rows already stored, and every byte of memory it
does not write. -/
def State.ExportFrame (s t : State) (c : Nat) (p : ExportArgs) : Prop :=
  s.InCore t c (exportKeys c) ∧ (t.core c).sreg = (s.core c).sreg ∧ (t.core c).lc = (s.core c).lc ∧ (t.core c).rest = (s.core c).rest ∧
  s.TilesKeptUnder t c ∧ ∀ x, ¬ tensorByte s c p x → ¬ statsByte s c p x → ¬ outByte s c p x → t.byteAt x = s.byteAt x

/-- What every export leaves beside its elements: the count of exports, its statistics, its output sidecar entries, and the frame; u is
the state in which its bundle opened. -/
def ExportEffect (u s t : State) (c : Nat) (p : ExportArgs) : Prop :=
  t.cf Reg.POINT_EXPORTS c = min (s.cf Reg.POINT_EXPORTS c + 1) (2 ^ 32 - 1) ∧
  (p.stats ≠ 0 → ∀ rank a, p.ranked rank a → ∀ i < p.m,
    let w := rowStats p.stats p.ofmt (rowValues u c p (rowScales s c p) (columnScales s c p) i rank a)
      ((List.range p.n).map fun n => exportBits u c p (rowScales s c p) (columnScales s c p) i rank a n)
    t.bytesAt (s.behind c p.sh (p.sOff + (rank * p.m + i) * 8)) 8 = toBytes 4 w.1 ++ toBytes 4 w.2) ∧
  (∀ h, p.oh = some h → ∀ i < p.m,
    let k := lineK u c p (rowScales s c p) (columnScales s c p) i
    t.bytesAt (outEntry s c p h i) (s.outSidecar c h).size =
      toBytes (s.outSidecar c h).size (if (s.outSidecar c h).kind = 0 then (127 + k) * 2 ^ 23 else 127 + k)) ∧
  s.ExportFrame t c p

/-- The elements of an export to tile register or hod-queue entry q: where they land and when (R133, R135, R161). -/
def TileElements (u s t : State) (c : Nat) (p : ExportArgs) (q lane0 : Nat) : Prop :=
  ∀ rank a, p.ranked rank a → ∀ i < p.m, ∀ n < p.n,
    let k := lineK u c p (rowScales s c p) (columnScales s c p) i
    let late := if p.mode = 1 then (if k = 0 then i else p.m + i) else if p.stats = 1 then 2 * i else i
    t.Writes c q i (lane0 + rank * p.n + n) (p.base (s.issueCycle c) + 5 + late)
      (exportBits u c p (rowScales s c p) (columnScales s c p) i rank a n)

/-! Template commands (R166–R180). -/

/-- Registers that a template command may change. -/
def templateKeys (c : Nat) : List Nat :=
  vectorKeys c ++ [Reg.TPL_EVALS.key c 0, Reg.TPL_TABLE_BUSY.key c 0, Reg.TPL_REFUSED.key c 0]

/-- What a template, fill or mover command leaves unchanged: the other cores, registers outside a list, memory, scalar registers, loop
counters, stored tile rows where none is on its way, and whatever a function of the core keeps. -/
structure State.UnitFrame (s t : State) (c : Nat) (keys : List Nat) (keep : Core → Core) : Prop where
  others : ∀ d, d ≠ c → t.core d = s.core d
  regs : s.RegsBut t keys
  bytes : ∀ a, t.byteAt a = s.byteAt a
  sreg : (t.core c).sreg = (s.core c).sreg
  lc : (t.core c).lc = (s.core c).lc
  tiles : s.TilesKeptUnder t c
  rest : (keep (t.core c)).rest = (keep (s.core c)).rest

/-- Scalar register r of core c as a number. -/
def State.amount (s : State) (c r : Nat) : Nat := (s.word c r).toNat

/-! Sync commands (R231–R260). -/

/-- Registers that a command of the Y slot may change. -/
def syncKeys (c : Nat) : List Nat :=
  issueKeys c ++ [Reg.SYNC_ADDS_SENT.key c 0, Reg.SYNC_WAITS.key c 0, Reg.SYNC_ARRIVED.key c 0, Reg.SEQ_RUN.key c 0, Reg.DEBUG_TRACE_DROPPED.key 0 0,
    Reg.ARCH_PLANE_STALL.key 0 0] ++
  (List.range 8).flatMap fun a => [Reg.ARCH_OPEN.key 0 a, Reg.ARCH_ARRIVED_COUNT.key 0 a]

/-- What a command of the Y slot leaves unchanged beside the sync plane, the packets on their way and the trace. -/
structure State.SyncFrame (s t : State) (c : Nat) (keep : Core → Core) : Prop where
  unit : s.UnitFrame t c (syncKeys c) keep
  rest : { t with sync := s.sync, net := s.net, dbg := s.dbg, detected := s.detected }.rest = s.rest

/-- Neither sync plane nor packets nor events change. -/
def State.Quiet (s t : State) : Prop := t.sync = s.sync ∧ t.net = s.net ∧ t.detected = s.detected

/-- The sync plane is that of s but for what its links carry, and for what `f` does. -/
def State.Plane (s t : State) (f : Sync → Sync) : Prop := { t.sync with links := [] } = { f s.sync with links := [] }

/-- Core c sends an update to tie k of core h in the cycle with count x, and nothing else: it is delivered in cycle x + 2 + h where no other
message is on the plane (R233, R241). -/
def State.Sends (s t : State) (c h k : Nat) (dec : Bool) (amount x : Nat) : Prop :=
  ∃ due, s.Plane t (fun y => { y with updates := y.updates ++ [⟨h, k, dec, amount, c, s.stampOf x, s.peer c, due, none⟩] }) ∧
    (s.sync.links = [] → due = x + 2 + transit c h) ∧ t.net = s.net ∧ t.detected = s.detected ∧
    t.cf Reg.SYNC_ADDS_SENT c = min (s.cf Reg.SYNC_ADDS_SENT c + 1) (2 ^ 32 - 1)

/-- Fields that the steps of R239 of a tie of core h may change. -/
def tieKeys (h : Nat) : List Nat :=
  [Reg.SYNC_ADDS_APPLIED, Reg.SYNC_OVERFLOWS, Reg.SYNC_UNDERFLOWS].map (·.key h 0) ++
  [Reg.DEBUG_TRACE_DROPPED, Reg.CTRL_TIMESTAMP, Reg.ARCH_PLANE_STALL].map (·.key 0 0)

/-- By the cycle with count x no wait registers at core h, and no wait of its tie k has passed its deadline (R237, R238). -/
def State.TieCalm (s : State) (h k x : Nat) : Prop := (∀ q ∈ s.sync.registering, q.home = h → x < q.at_) ∧
  ∀ y ∈ s.sync.slots, y.req.home = h → y.req.tie = k → ∀ d, y.req.deadline = some d → x < d

/-- Core c issues packet p: the mesh takes it under a credit of its lane, or it waits and the core holds (R48, R274). -/
def State.Issued (s t : State) (c : Nat) (p : Packet) : Prop :=
  ((s.core c).outQ = [] → 0 < s.meshFree c (pVl p) → t.net.mesh = s.net.mesh ++ [p] ∧ (t.core c).outQ = [] ∧ t.run c = 1) ∧
  ((s.core c).outQ ≠ [] ∨ s.meshFree c (pVl p) = 0 → t.net = s.net ∧ (t.core c).outQ = (s.core c).outQ ++ [p] ∧ t.heldFor c .credit = true)

/-- Nothing of the core but its sequencing changes. -/
def keepAll (k : Core) : Core := k

/-! Commands of the die. -/

/-- The other sparse stores of a state are listed with rising keys. -/
structure State.Tidy (s : State) : Prop where
  force : Sparse.sorted s.force
  marks : Sparse.sorted s.marks
  scrubs : Sparse.sorted s.scrubs
  ports : Sparse.sorted s.ports
  arches : Sparse.sorted s.sync.arches
  links : Sparse.sorted s.sync.links
  portUsed : Sparse.sorted s.net.portUsed
  meshUsed : Sparse.sorted s.net.meshUsed
  forced : Sparse.sorted s.net.forced
  hubs : Sparse.sorted s.ring.hubs
  stretched : Sparse.sorted s.power.stretched
  window : Sparse.sorted s.power.window
  slots : Sparse.sorted s.ledger.slots
  counts : Sparse.sorted s.ledger.counts
  muted : Sparse.sorted s.ledger.muted
  trace : Sparse.sorted s.dbg.trace
  staging : Sparse.sorted s.boot.staging
  sites : Sparse.sorted s.boot.sites
  stores : Sparse.sorted s.boot.stores
  fused : Sparse.sorted s.boot.fused
  fusedSpares : Sparse.sorted s.boot.fusedSpares
  owed : ∀ p, Sparse.sorted (s.port p).owed
  owners : ∀ r, s.ops.rebond = some r → Sparse.sorted r.owners

/-- Every sparse store is in canonical form, as every step leaves it. -/
structure State.Good (s : State) : Prop where
  canon : s.Canon
  tidy : s.Tidy
  cores : ∀ c, (s.core c).Canon

/-- In every state in canonical form that meets P the command completes, and Q relates the states before and after. -/
def Does (i : Instr) (P : State → Prop) (Q : State → State → Prop) : Prop :=
  ∀ s : State, s.Good → P s → ∃ t, exec i s = .next t ∧ Q s t

/-- Register fields outside a list and everything that `keep` leaves in place are unchanged. -/
structure State.Keeps (s t : State) (keys : List Nat) (keep : State → State) : Prop where
  rest : keep { t with regs := [] } = keep { s with regs := [] }
  regs : s.RegsBut t keys

/-- Nothing but registers changes. -/
def keepState (s : State) : State := s

/-- Detected events may change. -/
def exceptEvents (s : State) : State := { s with detected := [] }

/-- Keys of die fields that are not repeated. -/
def dieKeys (l : List Row) : List Nat := l.map fun r => r.key 0 0

/-- Keys of the first n copies of fields of a unit. -/
def copyKeys (l : List Row) (u n : Nat) : List Nat := l.flatMap fun r => (List.range n).map fun i => r.key u i

/-- The die detects one event, which stops no task, and no other. -/
def State.Notes (s t : State) (code unit : Nat) (data : List Nat) : Prop :=
  ∃ e : Event, t.detected = s.detected ++ [e] ∧ e.code = code ∧ e.unit = unit ∧ e.data = data ∧ e.sev = sevOf code ∧ e.stop = false

/-- The die detects an event among others. -/
def State.Detects (t : State) (code unit : Nat) (data : List Nat) : Prop :=
  ∃ e : Event, e ∈ t.detected ∧ e.code = code ∧ e.unit = unit ∧ e.data = data

/-- A counter of the die goes up by n, to its maximum at most. -/
def State.Counts (s t : State) (r : Row) (u i n : Nat) : Prop := t.rd r u i = min (s.rd r u i + n) (2 ^ r.width - 1)

/-- Registers that the start of phase 1 may change. -/
def romKeys : List Nat :=
  dieKeys [Reg.BOOT_PHASE, Reg.POWER_VID_REQ, Reg.DIR_DOM_ON_HI, Reg.DIR_DOM_CHANGES, Reg.LEDGER_HOURS, Reg.LEDGER_MINUTES, Reg.LEDGER_HOURS_SAT] ++
  [4, 5, 6, 7].flatMap fun p => [Reg.LINK_FEC_CORR, Reg.LINK_FEC_UNCORR, Reg.LINK_REPLAYS, Reg.LINK_LOST, Reg.LINK_TX_FLITS, Reg.LINK_RX_FLITS,
    Reg.LINK_TX_WIDTH, Reg.LINK_RX_WIDTH, Reg.LINK_TX_LANES, Reg.LINK_RX_LANES, Reg.LINK_DOWN_CAUSE, Reg.LINK_STATE].map fun r => r.key p 0

/-- Phase 1 has started, with the POWER_ON record that was due in front of every other event (R373, R437, R444). -/
structure State.RomStarted (s t : State) : Prop where
  phase : t.df Reg.BOOT_PHASE = 1
  plinth : t.domainOn 79 = true
  vid : t.df Reg.POWER_VID_REQ = min 100 (s.df Reg.POWER_VID_BASE + s.df Reg.POWER_MARGIN)
  rail : (⟨0, vidSetting (t.df Reg.POWER_VID_REQ)⟩ : RailReq) ∈ t.side.rails
  hubs : ∀ p, 4 ≤ p → p < 8 → t.rd Reg.LINK_STATE p 0 = 1
  powerOn : ∀ c, s.boot.cause = some c → ∃ e : Event, t.detected = e :: s.detected ∧ e.code = 0 ∧ e.data = [c]
  once : t.boot.cause = none

/-- A whole-die reset: everything but antifuse, straps, pins and the ledger is as after reset (R348, R373, R418); `keys` are registers that
what follows the reset changes. -/
structure State.WholeReset (s t : State) (keys : List Nat) : Prop where
  pending : t.pending = s.pending
  mem : t.mem = [] ∧ t.marks = []
  cores : t.cores = []
  task : t.task = Task.init
  planes : t.sync = Sync.init ∧ t.net = Net.init ∧ t.slip = Slip.init ∧ t.ops = Ops.init ∧ t.ring = Ring.init
  lists : t.repairs = [] ∧ t.scrubs = [] ∧ t.force = [] ∧ t.attest = none
  plinth : t.boot.plinth = s.boot.plinth ∧ t.boot.risen = s.boot.risen
  fresh : ∀ d k, wholeKeeps k = false → k ∉ keys → Sparse.get d t.regs k = d
  kept : ∀ d k, wholeKeeps k = true → keyPage k ≠ some 12 → k ∉ keys → Sparse.get d t.regs k = Sparse.get d s.regs k
  hours : t.ledger.steps = s.ledger.steps

/-- Registers that a compute-part reset sets. -/
def partKeys : List Nat :=
  dieKeys [Reg.BOOT_PHASE, Reg.POWER_STOPPED, Reg.DIR_DOM_ON_LO, Reg.DIR_DOM_CHANGES, Reg.CMD_CAUSE, Reg.REBOND_STATE, Reg.REBOND_CAUSE] ++
  copyKeys [Reg.CMD_OPS_STATE] 0 6

/-- A compute-part reset: cores, memories, mesh, sync plane and operations are as after reset, plinth-held fields keep their values, and
phase 3 begins (R348, R349, R425); `keys` are further registers of the command that asks for it. -/
structure State.PartReset (s t : State) (keys : List Nat) : Prop where
  phase : t.df Reg.BOOT_PHASE = 3
  boot : t.boot.part = true ∧ t.boot.ready = false ∧ t.boot.stores = []
  mem : t.mem = [] ∧ t.marks = []
  cores : t.cores = []
  planes : t.sync = Sync.init ∧ t.slip = Slip.init ∧ t.repairs = [] ∧ t.scrubs = []
  net : t.net.mesh = keptPackets s.net.mesh ∧ t.net.accesses = [] ∧ t.net.signals = [] ∧ t.net.meshUsed = []
  task : t.task.parts = [] ∧ t.task.suspend = none ∧ t.task.cancel = none
  ops : ∀ k < 6, s.opLive k = true → t.opState k = 6
  fresh : ∀ d k, partKeeps k = false → Sparse.get d t.regs k = d
  kept : ∀ d k, partKeeps k = true → k ∉ partKeys → k ∉ keys → Sparse.get d t.regs k = Sparse.get d s.regs k
  same : t.pending = s.pending ∧ t.ledger = s.ledger ∧ t.side = s.side ∧ t.ring.hubs = s.ring.hubs ∧ t.ports = s.ports

/-- A packet that arrives on a port and that the checks let through: no earlier one of its flow waits there (R280), and it is neither stale nor
malformed (R272, R273, R293). -/
def State.hears (s : State) (port : Nat) (p : Packet) : Prop :=
  s.inTurn port p = true ∧ (s.take port p).isStale p = false ∧ (s.take port p).malformed p = false

/-- Packet p is on its way out of a port: sent, or waiting for credits. -/
def State.Out (s : State) (port : Nat) (p : Packet) : Prop := (∃ f ∈ s.net.sent, f.port = port ∧ f.packet = p) ∨ (port, p) ∈ s.net.waiting

/-- An ENUM packet of a subtype with a payload is on its way out of a port (R271, R283). -/
def State.OutEnum (s : State) (port sub : Nat) (payload : List Byte) : Prop :=
  ∃ p : Packet, s.Out port p ∧ pType p = 7 ∧ pSub p = sub ∧ pVl p = 3 ∧ pLen p = 32 ∧ p.payload = payload

/-- Fields of a port that its going DOWN or its training changes. -/
def linkKeys (p : Nat) : List Nat :=
  [Reg.LINK_FEC_CORR, Reg.LINK_FEC_UNCORR, Reg.LINK_REPLAYS, Reg.LINK_LOST, Reg.LINK_TX_FLITS, Reg.LINK_RX_FLITS, Reg.LINK_TX_WIDTH,
    Reg.LINK_RX_WIDTH, Reg.LINK_TX_LANES, Reg.LINK_RX_LANES, Reg.LINK_DOWN_CAUSE, Reg.LINK_STATE, Reg.LINK_TRAIN_US].map fun r => r.key p 0

/-- Flit counters of the eight ports. -/
def flitKeys : List Nat := (List.range 8).map fun p => Reg.LINK_TX_FLITS.key p 0

/-- What ports, packets, ring and events hold may change; the rest stays. -/
def exceptLinks (s : State) : State := { s with ports := [], net := Net.init, ring := Ring.init, detected := [] }

/-- Port p of the die goes DOWN with a cause: its state, widths and role clear, what it kept and what waited for it is lost and counted
(R266, R267); `keys` are further registers that change. -/
structure State.WentDown (s t : State) (p cause : Nat) (keys : List Nat) : Prop where
  state : t.rd Reg.LINK_STATE p 0 = 6
  reason : t.rd Reg.LINK_DOWN_CAUSE p 0 = cause
  widths : t.rd Reg.LINK_TX_WIDTH p 0 = 0 ∧ t.rd Reg.LINK_RX_WIDTH p 0 = 0
  port : t.port p = { Port.init with tx := 6, rx := 6 }
  lost : s.Counts t Reg.LINK_LOST p 0 ((s.port p).kept.length + (s.net.waiting.filter fun w => decide (w.1 = p)).length)
  waiting : ∀ x, (p, x) ∉ t.net.waiting
  role : p < 8 → t.role p = 0 ∧ t.peerOf p = 0
  event : t.Detects 0x0801 p [cause]
  frame : s.Keeps t (linkKeys p ++ flitKeys ++ dieKeys [Reg.PLACE_ROLE, Reg.PLACE_PEER, Reg.RING_LINKS] ++ keys) exceptLinks

/-- Every field of the register word at an address reads as a number of its width. -/
def State.WordFits (s : State) (a : Nat) : Prop :=
  match pageAt a with
  | some (.core c n o) => ∀ x ∈ wordFields (Reg.corePage n) o, s.field x.1 (x.1.unitOf c n) x.2.1 < 2 ^ x.1.width
  | some (.die n o) => ∀ x ∈ wordFields (Reg.diePage n) o, s.field x.1 (x.1.unitOf 0 n) x.2.1 < 2 ^ x.1.width
  | none => True

/-- A field is written by command: on a path that R422 accepts, while the die is not frozen, in a word whose fields fit. -/
def State.Writable (s : State) (path : Path) (r : Row) (u i : Nat) : Prop :=
  s.frozen = false ∧ path ≠ .other ∧ s.WordFits (r.addr u i / 8 * 8)

/-- The fields of the register word at an address: field, unit, copy, and lowest bit. -/
def fieldsAt (a : Nat) : List (Row × Nat × Nat × Nat) :=
  match pageAt a with
  | some (.core c n o) => (wordFields (Reg.corePage n) o).map fun x => (x.1, x.1.unitOf c n, x.2.1, x.2.2)
  | some (.die n o) => (wordFields (Reg.diePage n) o).map fun x => (x.1, x.1.unitOf 0 n, x.2.1, x.2.2)
  | none => []

/-- Fields whose write does more than store the value (R162, R292, R378, R409, R429). -/
def actingRows : List Row :=
  [Reg.DRESS_BEYLER, Reg.DIR_DOM_OFF, Reg.DIR_DOM_OFF_YQ, Reg.PLACE_PACKAGE_ID, Reg.RING_CURRENT, Reg.LEDGER_ACK_SEQ, Reg.DEBUG_MODE]

/-- The register word at an address is judged field by field, and a write of it does nothing but store values (R420): no header, no trigger,
none of `actingRows`, and not the words of the envelope, COMMAND and TRACE. -/
def plainWord (a : Nat) : Prop :=
  a % 8 = 0 ∧ fieldsAt a ≠ [] ∧ (∀ x ∈ fieldsAt a, x.1.acc ≠ .wo ∧ x.1 ∉ actingRows) ∧
  (∀ c n o, pageAt a = some (.core c n o) → 0x40 ≤ o) ∧
  ∀ n o, pageAt a = some (.die n o) → 0x40 ≤ o ∧ ¬ (n = 9 ∧ o = 0x40) ∧ ¬ (n = 10 ∧ o = 0x60) ∧ ¬ (n = 24 ∧ o = 0x50)

/-- A field of a word written with v, as the die judges it. -/
def fieldWrite (x : Row × Nat × Nat × Nat) (v : Nat) : FieldWrite := ⟨x.1, x.2.1, x.2.2.1, fld v (x.2.2.2 + x.1.width - 1) x.2.2.2⟩

/-- REFUSED of the page at an address. -/
def refusedAt (a : Nat) : Nat :=
  match pageAt a with
  | some (.core c n _) => (Reg.refused true n).key c 0
  | some (.die n _) => (Reg.refused false n).key 0 0
  | none => 0

/-- The page at an address belongs to the die or to a live core. -/
def State.reaches (s : State) (a : Nat) : Prop := ∀ c n o, pageAt a = some (.core c n o) → s.coreAlive c = true

/-- A write that is refused counts once in REFUSED of its page (R416, R420). -/
def State.Refuses (s t : State) (core : Bool) (u page : Nat) : Prop := s.Counts t (Reg.refused core page) u 0 1

/-- A packet for this die arrives in the form that its command fixes, and passes the checks (R20, R272, R273, R293). -/
def State.Gets (s : State) (port : Nat) (p : Packet) : Prop := s.frozen = false ∧ s.hop port p = .own ∧ s.hears port p

/-- The die forms a COMPLETE (0) or NACK (1) in answer to a packet, and no other packet; u is the state that has taken the packet up. -/
def State.Answers (u t : State) (p : Packet) (sub status : Nat) : Prop :=
  ∃ a : Packet, t.net = { u.net with mesh := u.net.mesh ++ [a] } ∧ pType a = 5 ∧ pSub a = sub ∧ pVl a = answerVl p ∧ pTag a = pTag p ∧
    pDpkg a = (answerTo p).pkg ∧ pDdie a = (answerTo p).die ∧ pDnode a = (answerTo p).node ∧ pDkind a = (answerTo p).kind ∧
    pAddr a = status + (if pWin p then pWindow p * 256 + 2 ^ 13 else 0)

/-- The die forms a READ_RSP with a status and data in answer to a packet, and no other packet. -/
def State.Responds (u t : State) (p : Packet) (status : Nat) (data : List Byte) : Prop :=
  ∃ a : Packet, t.net = { u.net with mesh := u.net.mesh ++ [a] } ∧ pType a = 3 ∧ pSub a = status ∧ pVl a = answerVl p ∧ pTag a = pTag p ∧
    pDpkg a = (answerTo p).pkg ∧ pDdie a = (answerTo p).die ∧ pAddr a = pAddr p ∧ a.payload = data

/-- A memory access joins those that wait for grants, as the youngest; u is the state that has taken the packet up. -/
def State.Queues (u t : State) (o : Owner) (a n : Nat) (data : Option (List Byte)) : Prop :=
  ∃ x : Access, t.net = { u.net with serial := u.net.serial + 1, accesses := u.net.accesses ++ [x] } ∧ x.owner = o ∧ x.base = a ∧ x.data = data ∧
    x.pieces = piecesOf a n ∧ x.bad = false ∧ x.since = u.lin ∧ x.serial = u.net.serial

/-- Packets and their accesses may change, and nothing else. -/
def exceptNet (s : State) : State := { s with net := Net.init }

/-- Packets and events may change. -/
def exceptNetEvents (s : State) : State := { s with net := Net.init, detected := [] }

/-- A message frame of the sideband (R442). -/
def messageFrame (op tag : Nat) (p : List Byte) : List Byte :=
  let f := toBytes 1 op ++ toBytes 1 tag ++ toBytes 2 p.length ++ p
  f ++ [checkByte f]

/-- The sideband takes a message: bring-up has begun, the OP takes the payload, and the frame is within the write limit (R441–R443). -/
def State.Receives (s : State) (op tag : Nat) (p : List Byte) : Prop :=
  s.frozen = false ∧ s.df Reg.BOOT_PHASE ≠ 0 ∧ lenFits op p.length = true ∧ p.length + 5 ≤ s.side.mwl ∧ tag < 256

/-- Sideband and events may change. -/
def exceptSide (s : State) : State := { s with side := Sideband.init, detected := [] }

/-- Every setting that takes effect at a tick is in force (R38). -/
def State.Settled (s : State) : Prop := { s with regs := [] } = { s.applyPending with regs := [] }

/-! The frozen die (R404). -/

/-- Commands of the supply and reset pins, which end a freeze or reset what it holds. -/
def breaksFreeze : Instr → Bool
  | .vddPlinthUp | .vddPlinthLoss | .pwrgoodRise .. | .pwrgoodLow | .resetNLow | .resetNRelease | .freezeNHigh _ => true
  | _ => false

/-- Commands that act on a frozen die: pins, the freeze watch, the TAP, and the trowel, whose freeze and thaw the watch answers. -/
def worksFrozen : Instr → Bool
  | .vddPlinthUp | .vddPlinthLoss | .pwrgoodRise .. | .pwrgoodLow | .resetNLow | .resetNRelease | .compResetNLow | .compResetNRelease
  | .freezeNLow | .freezeNHigh _ | .syncTickEdge _ | .coolantOkFall | .coolantStop | .coolantRestored
  | .idcode | .ijtag | .bypass _ | .tapReset | .freezeCtl _ | .corescan _ | .memrd _
  | .trowelPeek _ | .trowelPoke _ | .trowelFloor _ | .trowelLedger _ | .trowelTies _ | .trowelArches _ | .trowelPorts _ | .trowelPower _
  | .trowelFreeze _ | .trowelThaw .. | .trowelDump _ | .trowelSetTie _ => true
  | _ => false

/-- Everything that the stopped clocks hold is as it was, and the die is frozen: memory, cores, sync plane, packets, task, operations, ports,
repairs, ledger, identity and the timestamp. -/
structure State.Still (s t : State) : Prop where
  frozen : s.frozen = true ∧ t.frozen = true
  now : t.now = s.now
  mem : t.mem = s.mem ∧ t.marks = s.marks
  cores : t.cores = s.cores
  planes : t.sync = s.sync ∧ t.net = s.net ∧ t.slip = s.slip ∧ t.ports = s.ports
  work : t.task = s.task ∧ t.ops = s.ops ∧ t.repairs = s.repairs ∧ t.scrubs = s.scrubs
  rest : t.ledger = s.ledger ∧ t.side = s.side ∧ t.attest = s.attest ∧ t.force = s.force

end Sys2Proof.Machine
end

