-- ==== Sys2Proof/Certificates/Slice0/Obligations.lean ====
section
/-!
DEFINITION. The statements for the provers.
-/

open Sys2Proof Sys2Proof.Machine

/-- A step runs the command at the front of the queue on the state with the queue's rest. The queue is the model's (notes/assumptions/1.md). -/
def Obligations.StepRunsFront : Prop :=
  ∀ (s : State) (c : Instr) (rest : List Instr), s.pending = c :: rest → step s = exec c { s with pending := rest }

/-- The register operations of the S slot (R188).
exec answers a next state for every state that meets the conditions: add, sub, mul, sAnd, sOr, sXor, shl, shr, sar, slt, sltu. -/
def Obligations.ScalarRegisterOps : Prop :=
  Completes .add .s 0x01 (regOp fun x y => x + y) ∧
  Completes .sub .s 0x02 (regOp fun x y => x - y) ∧
  Completes .mul .s 0x03 (regOp fun x y => x * y) ∧
  Completes .sAnd .s 0x04 (regOp fun x y => x &&& y) ∧
  Completes .sOr .s 0x05 (regOp fun x y => x ||| y) ∧
  Completes .sXor .s 0x06 (regOp fun x y => x ^^^ y) ∧
  Completes .shl .s 0x07 (regOp fun x y => x <<< (y.toNat % 64)) ∧
  Completes .shr .s 0x08 (regOp fun x y => x >>> (y.toNat % 64)) ∧
  Completes .sar .s 0x09 (regOp fun x y => x.sshiftRight (y.toNat % 64)) ∧
  Completes .slt .s 0x0A (regOp fun x y => if x.toInt < y.toInt then 1#64 else 0#64) ∧
  Completes .sltu .s 0x0B (regOp fun x y => if x.toNat < y.toNat then 1#64 else 0#64)

/-- The immediate operations of the S slot: ADDI, ANDI, ORI, LIQ (R188).
exec answers a next state for every state that meets the conditions: addi, andi, ori, liq. -/
def Obligations.ScalarImmediateOps : Prop :=
  Completes .addi .s 0x10 (immOp fun x i => x + i.signExtend 64) ∧
  Completes .andi .s 0x11 (immOp fun x i => x &&& i.zeroExtend 64) ∧
  Completes .ori .s 0x12 (immOp fun x i => x ||| i.zeroExtend 64) ∧
  Completes .liq .s 0x13 fun s c b t =>
    (∀ j < 64, (t.word c (sRd b)).getLsbD j =
      if j / 16 = fld (bS b) 12 11 then (BitVec.ofNat 16 (sImm16 b)).getLsbD (j % 16) else (s.word c (sRd b)).getLsbD j) ∧
    s.SregsBut t c [sRd b] ∧ (t.core c).lc = (s.core c).lc ∧ s.ScalarFrame t c (issueKeys c)

/-- Branches, jumps and loops (R190).
exec answers a next state for every state that meets the conditions: beq, bne, blt, bge, jmp, jr. -/
def Obligations.Branches : Prop :=
  let ok (p : Word → Word → Bool) (s : State) (c : Nat) (b : Bundle) : Prop :=
    p (s.word c (sBa b)) (s.word c (sBb b)) = true → s.branchable c (s.next c + signedOf 16 (sImm16 b))
  CompletesIf .beq .s 0x20 (ok fun x y => x == y) (branchOp fun x y => x == y) ∧
  CompletesIf .bne .s 0x21 (ok fun x y => x != y) (branchOp fun x y => x != y) ∧
  CompletesIf .blt .s 0x22 (ok fun x y => decide (x.toInt < y.toInt)) (branchOp fun x y => decide (x.toInt < y.toInt)) ∧
  CompletesIf .bge .s 0x23 (ok fun x y => decide (y.toInt ≤ x.toInt)) (branchOp fun x y => decide (y.toInt ≤ x.toInt)) ∧
  CompletesIf .jmp .s 0x24 (fun s c b => s.branchable c (s.next c + signedOf 16 (sImm16 b)))
    (fun s c b t => (t.next c : Int) = s.next c + signedOf 16 (sImm16 b) ∧ (t.core c).lc = (s.core c).lc ∧ s.BranchFrame t c) ∧
  CompletesIf .jr .s 0x25 (fun s c b => s.branchable c (s.word c (sBa b)).toNat)
    (fun s c b t => t.next c = (s.word c (sBa b)).toNat ∧ (t.core c).lc = (s.core c).lc ∧ s.BranchFrame t c)

/-- Loop counters: LSET, LSETI and BLOOP (R190).
exec answers a next state for every state that meets the conditions: lset, lseti, bloop. -/
def Obligations.LoopCounters : Prop :=
  let others (s t : State) (c i : Nat) : Prop := ∀ j, j ≠ i → t.lc c j = s.lc c j
  Completes .lset .s 0x26 (fun s c b t => t.lc c (sLc b) = (s.word c (sRa b)).setWidth 32 ∧ others s t c (sLc b) ∧ t.next c = s.next c + 1 ∧
    (t.core c).sreg = (s.core c).sreg ∧ s.ScalarFrame t c (issueKeys c)) ∧
  Completes .lseti .s 0x27 (fun s c b t => t.lc c (sLc b) = BitVec.ofNat 32 (sImm16 b) ∧ others s t c (sLc b) ∧ t.next c = s.next c + 1 ∧
    (t.core c).sreg = (s.core c).sreg ∧ s.ScalarFrame t c (issueKeys c)) ∧
  CompletesIf .bloop .s 0x28
    (fun s c b => 1 < (s.lc c (sLc b)).toNat → s.branchable c (s.next c + signedOf 16 (sImm16 b)))
    (fun s c b t =>
      (1 < (s.lc c (sLc b)).toNat → t.lc c (sLc b) = s.lc c (sLc b) - 1#32 ∧ (t.next c : Int) = s.next c + signedOf 16 (sImm16 b)) ∧
      ((s.lc c (sLc b)).toNat ≤ 1 → t.lc c (sLc b) = 0#32 ∧ t.next c = s.next c + 1) ∧
      others s t c (sLc b) ∧ s.BranchFrame t c)

/-- LD and ST (R189).
exec answers a next state for every state that meets the conditions: ld, st. -/
def Obligations.ScalarMemory : Prop :=
  CompletesIf .ld .s 0x14 (fun s c b => ldFits s c b ∧ s.ueWords (ldAddress s c b) 8 = [])
    (fun s c b t => t.word c (sRd b) = BitVec.ofNat 64 (ofBytes (s.bytesAt (ldAddress s c b) 8)) ∧ s.SregsBut t c [sRd b] ∧
      (t.core c).lc = (s.core c).lc ∧ s.ScalarFrame t c (bedKeys c)) ∧
  CompletesIf .st .s 0x15 (fun s c b => ldFits s c b ∧ s.writable c (ldHandle s c b) = true)
    (fun s c b t => s.Stored t (ldAddress s c b) (toBytes 8 (s.word c (sRd b)).toNat) ∧ (t.core c).sreg = (s.core c).sreg ∧
      (t.core c).lc = (s.core c).lc ∧ s.InCore t c (bedKeys c) ∧ (t.core c).rest = (s.core c).rest)

/-- RDSYS: the system values (R40, R188).
exec answers a next state for every state that meets the conditions: rdsys. -/
def Obligations.SystemValues : Prop :=
  Completes .rdsys .s 0x16 fun s c b t =>
    let sel := fld (bS b) 15 11
    (sel = 0 → t.word c (sRd b) = BitVec.ofNat 64 (t.coreStamp c)) ∧
    (sel = 1 → t.word c (sRd b) = BitVec.ofNat 64 (s.df Reg.CTRL_COURSE_NUMBER)) ∧
    (sel = 2 → t.word c (sRd b) = BitVec.ofNat 64 c) ∧
    (sel = 3 → t.word c (sRd b) = BitVec.ofNat 64 (s.cf Reg.NUM_TAG c)) ∧
    (sel = 4 → t.word c (sRd b) = BitVec.ofNat 64 (s.df Reg.PLACE_DIE_ID)) ∧
    (sel = 5 → t.word c (sRd b) = BitVec.ofNat 64 (s.df Reg.PLACE_PACKAGE_ID)) ∧
    (sel = 6 → t.word c (sRd b) = BitVec.ofNat 64 (s.df Reg.RING_CURRENT)) ∧
    s.SregsBut t c [sRd b] ∧ (t.core c).lc = (s.core c).lc ∧ s.ScalarFrame t c (issueKeys c)

/-- HSET: handle h takes its four registers (R211).
exec answers a next state for every state that meets the conditions: hset. -/
def Obligations.HandleSet : Prop :=
  Completes .hset .s 0x17 fun s c b t =>
    let h := fld (bS b) 11 6
    let w0 := (s.word c (fld (bS b) 16 12)).toNat
    let w1 := (s.word c (fld (bS b) 16 12 + 1)).toNat
    t.rd Reg.HANDLE_BASE c h = w0 ∧ t.rd Reg.HANDLE_EXTENT c h = fld w1 39 0 ∧ t.rd Reg.HANDLE_KIND c h = fld w1 43 40 ∧
    t.rd Reg.HANDLE_VIEW c h = fld w1 45 44 ∧ t.rd Reg.HANDLE_INDEX c h = fld w1 55 48 ∧ t.rd Reg.HANDLE_ASSOC c h = fld w1 56 56 ∧
    (t.core c).sreg = (s.core c).sreg ∧ (t.core c).lc = (s.core c).lc ∧
    s.ScalarFrame t c (issueKeys c ++ [Reg.HANDLE_BASE.key c h, Reg.HANDLE_EXTENT.key c h, Reg.HANDLE_KIND.key c h, Reg.HANDLE_VIEW.key c h,
      Reg.HANDLE_INDEX.key c h, Reg.HANDLE_ASSOC.key c h])

/-- DELAYI, COURSE_END, the NOPs of the six slots, and PHASE_HINT, which takes a free slot, else the slot whose span ends first
(R46, R183, R184, R188, R328).
exec answers a next state for every state that meets the conditions: nop, delayi, phaseHint, courseEnd. -/
def Obligations.SequencerOps : Prop :=
  let same (s : State) (c : Nat) (_ : Bundle) (t : State) : Prop :=
    (t.core c).sreg = (s.core c).sreg ∧ (t.core c).lc = (s.core c).lc ∧ s.ScalarFrame t c (issueKeys c) ∧ t.next c = s.next c + 1
  let after (s t : State) (c n : Nat) : Prop := (t.core c).seq.nextCycle = (s.core c).seq.nextCycle + 1 + n
  Completes .delayi .s 0x29 (fun s c b t => same s c b t ∧ after s t c (bDelay b + fld (bS b) 31 12)) ∧
  CompletesIf .courseEnd .s 0x2B
    (fun s c b => laterSlot b 1 = false ∧ (s.core c).seq.drainAt ≤ (s.core c).seq.nextCycle ∧ s.drained c = true ∧
      (s.opened c .s b).coreLin c ≤ s.deadlineLin)
    (fun s c b t => t.run c = 0 ∧ t.cf Reg.SEQ_DONE c = 1 ∧ t.cf Reg.SEQ_ENTRY c = fld (bS b) 19 6 ∧ (t.core c).seq.inCourse = false ∧
      (t.core c).sreg = (s.core c).sreg ∧ (t.core c).lc = (s.core c).lc ∧ (∀ a, t.byteAt a = s.byteAt a) ∧
      s.InCore t c (issueKeys c ++ [Reg.SEQ_RUN.key c 0, Reg.SEQ_DONE.key c 0, Reg.SEQ_ENTRY.key c 0, Reg.SEQ_LAST_HOLD.key c 0,
        Reg.SEQ_MAX_HOLD.key c 0, Reg.SEQ_LAST_SLACK.key c 0, Reg.SEQ_MIN_SLACK.key c 0])) ∧
  (∀ sl : Slot, Completes (fun c b => .nop c sl b) sl 0 fun s c b t => same s c b t ∧ after s t c (bDelay b)) ∧
  Completes .phaseHint .s 0x2A fun s c b t =>
    let n := s.df Reg.CTRL_COURSE_NUMBER
    let h : HintSlot := ⟨n + fld (bS b) 13 6, fld (bS b) 31 20, fld (bS b) 19 14⟩
    let k := s.core c
    (hintFree n k.hint0 = true → (t.core c).hint0 = some h ∧ (t.core c).hint1 = k.hint1) ∧
    (hintFree n k.hint0 = false → hintFree n k.hint1 = true → (t.core c).hint1 = some h ∧ (t.core c).hint0 = k.hint0) ∧
    (∀ x y, k.hint0 = some x → k.hint1 = some y → n ≤ x.last → n ≤ y.last →
      (x.last ≤ y.last → (t.core c).hint0 = some h ∧ (t.core c).hint1 = some y) ∧
      (y.last < x.last → (t.core c).hint1 = some h ∧ (t.core c).hint0 = some x)) ∧
    (t.core c).sreg = k.sreg ∧ (t.core c).lc = k.lc ∧ s.InCore t c (issueKeys c) ∧ (∀ a, t.byteAt a = s.byteAt a) ∧
    { t.core c with hint0 := none, hint1 := none }.rest = { k with hint0 := none, hint1 := none }.rest

/-- MM on integer operands with OW = 1: each element takes the exact sum of its products (R104, R110, R118).
exec answers a next state for every state that meets the conditions: mm. -/
def Obligations.MatrixIntegers : Prop :=
  CompletesIf .mm .m 1
    (fun s c b => s.MatrixReady c (mmArgs (bM b)) ∧ (mmArgs (bM b)).fa.isInt = true ∧ (mmArgs (bM b)).fw.isInt = true ∧ (mmArgs (bM b)).ow = true)
    (fun s c b t =>
      let p := mmArgs (bM b)
      let k := s.core c
      let base := (s.handleNow c p.ah).base
      let act (i x : Nat) : Int :=
        signedOf p.fa.width (k.feedBits 0 (base + (p.aoff + x) * padRow p.m p.fa.width) (i * p.fa.width) p.fa.width)
      let weight (a j x : Nat) : Int :=
        signedOf p.fw.width (k.feedBits (wBuf a (k.bankAt p a x)) (x % p.bankRows * padRow p.n p.fw.width) (j * p.fw.width) p.fw.width)
      ∀ a i j, p.covers a i j →
        ((t.core c).elem a (p.acc + j / 16) i (j % 16)).v =
          BitVec.ofInt 128 (((List.range p.k).map fun x => act i x * weight a j x).foldl (· + ·) 0))

/-- MM of every form: the elements of the tile take what promotion leaves, the others keep their values, and the weight banks advance
(R98, R104, R117–R121).
exec answers a next state for every state that meets the conditions: mm. -/
def Obligations.MatrixMultiply : Prop :=
  CompletesIf .mm .m 1
    (fun s c b => s.MatrixReady c (mmArgs (bM b)) ∧ ∀ a i j, (mmArgs (bM b)).covers a i j →
      ((s.core c).mmElem (mmArgs (bM b)) (s.handleNow c (mmArgs (bM b)).ah).base a i j).mismatch = false)
    (fun s c b t =>
      let p := mmArgs (bM b)
      let k := s.core c
      (∀ a i j, p.covers a i j →
        (t.core c).elem a (p.acc + j / 16) i (j % 16) = (k.mmElem p (s.handleNow c p.ah).base a i j).elem) ∧
      (∀ a e i j, a < 4 → e < 12 → i < 16 → j < 16 → ¬ (p.acc ≤ e ∧ p.covers a i (16 * (e - p.acc) + j)) →
        (t.core c).elem a e i j = k.elem a e i j) ∧
      (t.core c).tm.mmNext = s.issueCycle c + (p.k - 1) * p.step + p.digits ∧ s.MatrixFrame t c)

/-- KADD: the image's elements replace or add to the entry's, array by array (R124, R125).
exec answers a next state for every state that meets the conditions: kadd. -/
def Obligations.KeystoneAdd : Prop :=
  let handle (s : State) (c : Nat) (b : Bundle) : Handle := s.handleNow c (fld (bM b) 18 13)
  let offset (s : State) (c : Nat) (b : Bundle) : Nat := fld (s.word c (fld (bM b) 23 19)).toNat 19 0
  let image (s : State) (c : Nat) (b : Bundle) (i j : Nat) : Elem :=
    let at_ := windowBase c + ((handle s c b).base + offset s c b)
    ⟨BitVec.ofNat 128 (ofBytes (s.bytesAt (at_ + 256 * i + 16 * j) 16)), BitVec.ofNat 32 (ofBytes (s.bytesAt (at_ + 4096 + 64 * i + 4 * j) 4))⟩
  let named (b : Bundle) (a i j : Nat) : Prop := a < 4 ∧ bit (fld (bM b) 7 4) a = true ∧ i < 16 ∧ j < 16
  CompletesIf .kadd .m 3
    (fun s c b => s.maskBad c (fld (bM b) 7 4) = false ∧ fld (bM b) 11 8 ≤ 11 ∧ (s.core c).tm.promos = [] ∧ (s.core c).accMarks = [] ∧
      s.marks = [] ∧ offset s c b % 16 = 0 ∧ (handle s c b).wide (offset s c b) 5120 = true ∧
      ∀ a i j, named b a i j → (kaddElem (bit (bM b) 12) ((s.core c).elem a (fld (bM b) 11 8) i j) (image s c b i j)).mismatch = false)
    (fun s c b t =>
      (∀ a i j, named b a i j → (t.core c).elem a (fld (bM b) 11 8) i j =
        (kaddElem (bit (bM b) 12) ((s.core c).elem a (fld (bM b) 11 8) i j) (image s c b i j)).elem) ∧
      (∀ a e i j, a < 4 → e < 12 → i < 16 → j < 16 → ¬ (e = fld (bM b) 11 8 ∧ named b a i j) → (t.core c).elem a e i j = (s.core c).elem a e i j) ∧
      s.MatrixFrame t c)

/-- Floating-point operations of the dresser (R74, R75, R83, R151).
exec answers a next state for every state that meets the conditions: fadd, fsub, fmul, fma, fms, fmax, fmin, fabs, fneg, fcmp, cvt. -/
def Obligations.VectorFloat : Prop :=
  let rm (b : Bundle) : Rm := vRm b
  let f (g : Rm → Nat → Nat → Nat → Nat → FpRes) := laneOp 4 .float fun b d x y z => (g (rm b) d x y z).bits
  CompletesIf .fadd .v 0x01 vectorOk (f fun rm d x y _ => fpAdd rm d x y) ∧
  CompletesIf .fsub .v 0x02 vectorOk (f fun rm d x y _ => fpSub rm d x y) ∧
  CompletesIf .fmul .v 0x03 vectorOk (f fun rm d x y _ => fpMul rm d x y) ∧
  CompletesIf .fma .v 0x04 vectorOk (f fun rm d x y z => fpFma rm d false x y z) ∧
  CompletesIf .fms .v 0x05 vectorOk (f fun rm d x y z => fpFma rm d true x y z) ∧
  CompletesIf .fmax .v 0x06 vectorOk (f fun _ _ x y _ => fpMax false x y) ∧
  CompletesIf .fmin .v 0x07 vectorOk (f fun _ _ x y _ => fpMax true x y) ∧
  CompletesIf .fabs .v 0x08 vectorOk (laneOp 4 .float fun _ _ x _ _ => if (fp32 x).isNan then nan32 else x % 2 ^ 31) ∧
  CompletesIf .fneg .v 0x09 vectorOk (laneOp 4 .float fun _ _ x _ _ => if (fp32 x).isNan then nan32 else (x + 2 ^ 31) % 2 ^ 32) ∧
  CompletesIf .fcmp .v 0x20 vectorOk (laneOp 2 .float fun b _ x y _ => (fpCmp (vSUB (bV b)) x y).bits) ∧
  CompletesIf .cvt .v 0x30 vectorOk (laneOp 4 .bits fun b d x _ _ =>
    (cvt (vFmt (fld (bV b) 23 20)) (rm b) d (bit (bV b) 29) (vSW (bV b)) ((vFmt (fld (bV b) 19 16)).decode x)).bits)

/-- Integer and bit operations of the dresser (R82, R151).
exec answers a next state for every state that meets the conditions: iadd, isub, imul, imax, imin, vShl, vShr, vSar, vAnd, vOr, vXor, andn, mov,
icmp, sel. -/
def Obligations.VectorInteger : Prop :=
  let clamp (sw : Bool) (x : Int) : Nat :=
    (BitVec.ofInt 32 (if sw then x else if x < -2147483648 then -2147483648 else if 2147483647 < x then 2147483647 else x)).toNat
  let i (g : Bool → Int → Int → Nat) := fun (b : Bundle) (_ x y _ : Nat) => g (vSW (bV b)) (BitVec.ofNat 32 x).toInt (BitVec.ofNat 32 y).toInt
  let w (g : Lane → Lane → Lane → Lane) := fun (_ : Bundle) (_ x y z : Nat) => (g (BitVec.ofNat 32 x) (BitVec.ofNat 32 y) (BitVec.ofNat 32 z)).toNat
  CompletesIf .iadd .v 0x10 vectorOk (laneOp 2 .int (i fun sw x y => clamp sw (x + y))) ∧
  CompletesIf .isub .v 0x11 vectorOk (laneOp 2 .int (i fun sw x y => clamp sw (x - y))) ∧
  CompletesIf .imul .v 0x12 vectorOk (laneOp 4 .int (i fun sw x y => clamp sw (x * y))) ∧
  CompletesIf .imax .v 0x13 vectorOk (laneOp 2 .int (i fun _ x y => (BitVec.ofInt 32 (if x ≤ y then y else x)).toNat)) ∧
  CompletesIf .imin .v 0x14 vectorOk (laneOp 2 .int (i fun _ x y => (BitVec.ofInt 32 (if x ≤ y then x else y)).toNat)) ∧
  CompletesIf .vShl .v 0x15 vectorOk (laneOp 2 .int (w fun x y _ => x <<< (y.toNat % 32))) ∧
  CompletesIf .vShr .v 0x16 vectorOk (laneOp 2 .int (w fun x y _ => x >>> (y.toNat % 32))) ∧
  CompletesIf .vSar .v 0x17 vectorOk (laneOp 2 .int (w fun x y _ => x.sshiftRight (y.toNat % 32))) ∧
  CompletesIf .vAnd .v 0x18 vectorOk (laneOp 2 .bits (w fun x y _ => x &&& y)) ∧
  CompletesIf .vOr .v 0x19 vectorOk (laneOp 2 .bits (w fun x y _ => x ||| y)) ∧
  CompletesIf .vXor .v 0x1A vectorOk (laneOp 2 .bits (w fun x y _ => x ^^^ y)) ∧
  CompletesIf .andn .v 0x1B vectorOk (laneOp 2 .bits (w fun x y _ => x &&& ~~~y)) ∧
  CompletesIf .mov .v 0x1C vectorOk (laneOp 2 .bits (w fun x _ _ => x)) ∧
  CompletesIf .icmp .v 0x21 vectorOk (laneOp 2 .int fun b _ x y _ =>
    if ccHolds (vSUB (bV b)) ((BitVec.ofNat 32 x).toInt - (BitVec.ofNat 32 y).toInt) then 0xFFFFFFFF else 0) ∧
  CompletesIf .sel .v 0x22 vectorOk (laneOp 2 .bits (w fun x y m => if m = 0#32 then y else x))

/-- CVT.S applies the block scale before its one rounding; SPLIT2 and SPLIT3 cut FP32 values into BF16 pieces (R85, R154, R155).
exec answers a next state for every state that meets the conditions: cvtS, split2, split3. -/
def Obligations.VectorScaledConversions : Prop :=
  let lane (s : State) (c : Nat) (b : Bundle) (f r l : Nat) : Nat := operand s c b .bits f (s.issueCycle c + 1 + r) r l
  let ts (b : Bundle) : Nat := fld (bV b) 38 36
  let at_ (b : Bundle) (l : Nat) : Nat := fld (bV b) 46 41 + l / blockOf (fld (bV b) 40 39)
  let scaled (e : Nat) : Val → Val
    | .num g m x => if e = 255 then .nan false else .num g m (x + (127 - (e : Int)))
    | v => if e = 255 then .nan false else v
  let cut (x : Nat) : Nat := x - x % 65536
  let less (x y : Nat) : Nat := (fpSub .rtz 0 x y).bits
  let piece (p x : Nat) : Nat :=
    match fp32 x with
    | .nan _ => if p = 0 then 0x7FC0 else 0
    | .inf g => if p = 0 then (if g then 0xFF80 else 0x7F80) else 0
    | _ => match p with
      | 0 => cut x / 65536
      | 1 => less x (cut x) / 65536
      | _ => less (less x (cut x)) (cut (less x (cut x))) / 65536
  let split (n : Nat) (s : State) (c : Nat) (b : Bundle) (t : State) : Prop :=
    (∀ p < n, ∀ r < s.rows c, ∀ l < s.lanes c,
      t.Writes c (vDst (bV b) + p) r l (s.issueCycle c + 4 + r) (piece p (operand s c b .float (vSA (bV b)) (s.issueCycle c + 1 + r) r l))) ∧
    s.VectorFrame t c
  let room (n : Nat) (s : State) (c : Nat) (b : Bundle) : Prop :=
    s.VectorReady c b (vSources (bV b)) [] ∧ vDst (bV b) + n ≤ if s.cf Reg.DRESS_BEYLER c = 1 then 4 else 8
  CompletesIf .cvtS .v 0x31
    (fun s c b => s.VectorReady c b (vSources (bV b) ++ [ts b]) [vDst (bV b)] ∧ (0 < s.lanes c → at_ b (s.lanes c - 1) ≤ 63))
    (fun s c b t =>
      (∀ r < s.rows c, ∀ l < s.lanes c,
        let dk : DrawKey := ⟨s.cf Reg.NUM_SEED c, s.df Reg.CTRL_COURSE_NUMBER, s.issueCycle c, s.cf Reg.NUM_TAG c, 4⟩
        let draw := if vRM (bV b) = 2 then dk.draw (64 * r + l) else 0
        let e := lane s c b (ts b) r (at_ b l) % 256
        t.Writes c (destAt b (vDst (bV b)) r).1 (destAt b (vDst (bV b)) r).2 l (s.issueCycle c + 4 + r)
          (cvt (vFmt (fld (bV b) 23 20)) (vRm b) draw (bit (bV b) 29) (vSW (bV b))
            (scaled e ((vFmt (fld (bV b) 19 16)).decode (lane s c b (vSA (bV b)) r l)))).bits) ∧
      s.VectorFrame t c) ∧
  CompletesIf .split2 .v 0x32 (room 2) (split 2) ∧
  CompletesIf .split3 .v 0x33 (room 3) (split 3)

/-- PERM, SHUF, PACK and UNPACK (R151, R156).
exec answers a next state for every state that meets the conditions: perm, shuf, pack, unpack. -/
def Obligations.VectorPermutes : Prop :=
  let bits (w : Nat) (f : Nat → Bool) : Nat := ((List.range w).map fun j => if f j then 2 ^ j else 0).sum
  let w (b : Bundle) : Nat := match vSUB (bV b) with | 0 => 4 | 1 => 6 | 2 => 8 | _ => 16
  CompletesIf .perm .v 0x23 vectorOk (rowOp 3 id fun _ _ a idx l =>
    let v := (BitVec.ofNat 32 (idx l)).toInt
    if 0 ≤ v ∧ v ≤ 63 then a v.toNat else 0) ∧
  CompletesIf .shuf .v 0x24 vectorOk (rowOp 3 id fun b vl a z l =>
    let p := vSUB (bV b)
    let imm := vImm16 (bV b) % 64
    if p = 0 then a (vl - 1 - l)
    else if p = 1 then a (if l % 2 = 0 then l + 1 else l - 1)
    else if p = 2 then (if l % 2 = 0 then a else z) (l / 2)
    else if p = 3 then (if l % 2 = 0 then a else z) (32 + l / 2)
    else if p = 4 then (if l < 32 then a (2 * l) else z (2 * l - 64))
    else if p = 5 then (if l < 32 then a (2 * l + 1) else z (2 * l - 63))
    else if p = 6 then a ((l + imm) % 64)
    else a imm) ∧
  (∀ n : Nat, CompletesIf .pack .v 0x28 (fun s c b => vectorOk s c b ∧ w b = n) (rowOp 3 (fun vl => (vl * n + 31) / 32) fun _ vl a _ l =>
    bits 32 fun j => decide ((32 * l + j) / n < vl) && bit (a ((32 * l + j) / n)) ((32 * l + j) % n))) ∧
  CompletesIf .unpack .v 0x29 vectorOk (rowOp 3 id fun b _ a _ l =>
    bits (w b) fun j => bit (a ((l * w b + j) / 32)) ((l * w b + j) % 32))

/-- The reductions over the tree of R127, on either axis (R157).
exec answers a next state for every state that meets the conditions: rsum, rmax, rmin, rssq, rmv. -/
def Obligations.VectorReductions : Prop :=
  let axisR (b : Bundle) : Bool := bit (bV b) 16
  let at_ (b : Bundle) : Nat := fld (bV b) 22 17
  let src (s : State) (c : Nat) (b : Bundle) (y r l : Nat) : Nat := operand s c b .float (vSA (bV b)) y r l
  let add (b : Bundle) (x y : Nat) : Nat := (fpAdd (vRm b) 0 x y).bits
  let fixNaN (x : Nat) : Nat := if (fp32 x).isNan then nan32 else x
  let one (mk : Nat → Bundle → Instr) (op : Nat) (f : Bundle → List Nat → Nat) : Prop :=
    CompletesIf mk .v op vectorOk fun s c b t =>
      let n := s.issueCycle c
      (axisR b = false → ∀ r < s.rows c, 0 < s.lanes c →
        t.Writes c (destAt b (vDst (bV b)) r).1 (destAt b (vDst (bV b)) r).2 (at_ b) (n + 12 + r)
          (f b ((List.range (s.lanes c)).map fun l => src s c b (n + 1 + r) r l))) ∧
      (axisR b = true → ∀ l < s.lanes c,
        t.Writes c (destAt b (vDst (bV b)) 0).1 (destAt b (vDst (bV b)) 0).2 l (n + s.rows c + 8)
          (f b ((List.range (s.rows c)).map fun r => src s c b (n + 1 + r) r l))) ∧
      s.VectorFrame t c
  let mean (b : Bundle) (x : List Nat) : Nat := (fpDivN (vRm b) (tree (add b) 0 x) x.length).bits
  let square (b : Bundle) (mu z : Nat) : Nat :=
    let d := (fpSub (vRm b) 0 z mu).bits
    (fpMul (vRm b) 0 d d).bits
  let spread (b : Bundle) (x z : List Nat) : Nat :=
    (fpDivN (vRm b) (tree (add b) 0 (z.map (square b (mean b x)))) z.length).bits
  one .rsum 0x38 (fun b x => fixNaN (tree (add b) 0 x)) ∧
  one .rmax 0x39 (fun _ x => fixNaN (tree (fun a b => (fpMax false a b).bits) 0 x)) ∧
  one .rmin 0x3A (fun _ x => fixNaN (tree (fun a b => (fpMax true a b).bits) 0 x)) ∧
  one .rssq 0x3B (fun b x => fixNaN (tree (add b) 0 (x.map fun y => (fpMul (vRm b) 0 y y).bits))) ∧
  CompletesIf .rmv .v 0x3C (fun s c b => vectorOk s c b ∧ (axisR b = false → at_ b ≤ 62)) fun s c b t =>
    let n := s.issueCycle c
    (axisR b = false → ∀ r < s.rows c, 0 < s.lanes c →
      let x := (List.range (s.lanes c)).map fun l => src s c b (n + 1 + 2 * r) r l
      let z := (List.range (s.lanes c)).map fun l => src s c b (n + 2 + 2 * r) r l
      let d := destAt b (vDst (bV b)) r
      t.Writes c d.1 d.2 (at_ b) (n + 24 + 2 * r) (mean b x) ∧ t.Writes c d.1 d.2 (at_ b + 1) (n + 24 + 2 * r) (spread b x z)) ∧
    (axisR b = true → ∀ l < s.lanes c,
      let x := (List.range (s.rows c)).map fun r => src s c b (n + 1 + r) r l
      t.Writes c (destAt b (vDst (bV b)) 0).1 (destAt b (vDst (bV b)) 0).2 l (n + s.rows c + 8) (mean b x) ∧
      t.Writes c (destAt b (vDst (bV b)) 1).1 (destAt b (vDst (bV b)) 1).2 l (n + s.rows c + 8) (spread b x x)) ∧
    s.VectorFrame t c

/-- AMAXS: the scale of each block (R158).
exec answers a next state for every state that meets the conditions: amaxs. -/
def Obligations.VectorScales : Prop :=
  let axisR (b : Bundle) : Bool := bit (bV b) 16
  let lane0 (b : Bundle) : Nat := fld (bV b) 22 17
  let bs (b : Bundle) : Nat := blockOf (fld (bV b) 41 40)
  let src (s : State) (c : Nat) (b : Bundle) (r l : Nat) : Nat := operand s c b .float (vSA (bV b)) (s.issueCycle c + 1 + r) r l
  let out (b : Bundle) (x : List Nat) : Nat :=
    let se := (amaxExp (vFmt (fld (bV b) 39 36)) (vRm b) x).getD 0
    if bit (bV b) 42 then (se + 127).toNat else (Format.fp32.round .rne 0 false 1 1 se).bits
  CompletesIf .amaxs .v 0x3D
    (fun s c b => vectorOk s c b ∧ (axisR b = false → 0 < s.lanes c → lane0 b + (s.lanes c - 1) / bs b ≤ 63))
    fun s c b t =>
      let n := s.issueCycle c
      (axisR b = false → ∀ r < s.rows c, ∀ i, i * bs b < s.lanes c →
        t.Writes c (destAt b (vDst (bV b)) r).1 (destAt b (vDst (bV b)) r).2 (lane0 b + i) (n + 12 + r)
          (out b ((List.range (min (bs b) (s.lanes c - i * bs b))).map fun j => src s c b r (i * bs b + j)))) ∧
      (axisR b = true → ∀ l < s.lanes c,
        t.Writes c (destAt b (vDst (bV b)) 0).1 (destAt b (vDst (bV b)) 0).2 l (n + s.rows c + 8)
          (out b ((List.range (s.rows c)).map fun r => src s c b r l))) ∧
      s.VectorFrame t c

/-- VLD and VST: rows of a tile from and to bed; where rows of a VST overlap, the later row stands (R153).
exec answers a next state for every state that meets the conditions: vld, vst. -/
def Obligations.VectorMemory : Prop :=
  let at_ (s : State) (c : Nat) (b : Bundle) (r : Nat) : Nat := State.wideAt c (vldHandle s c b) (vldOffset s c b r)
  CompletesIf .vld .v 0x40
    (fun s c b => s.VectorReady c b [] [vDst (bV b)] ∧ vldFits s c b)
    (fun s c b t =>
      (∀ r < s.rows c, ∀ l < s.lanes c,
        t.Writes c (destAt b (vDst (bV b)) r).1 (destAt b (vDst (bV b)) r).2 l (s.issueCycle c + 41 + r)
          (ofBytes (s.bytesAt (at_ s c b r + 4 * l) 4))) ∧
      s.VectorFrame t c) ∧
  CompletesIf .vst .v 0x41
    (fun s c b => s.VectorReady c b [vSA (bV b)] [] ∧ vldFits s c b ∧ s.writable c (vldHandle s c b) = true)
    (fun s c b t =>
      let covers (r x : Nat) : Prop := r < s.rows c ∧ at_ s c b r ≤ x ∧ x < at_ s c b r + 4 * s.lanes c
      (∀ r x, covers r x → (∀ q, r < q → ¬ covers q x) →
        t.byteAt x = (toBytes 4 (operand s c b .bits (vSA (bV b)) (s.issueCycle c + 1 + r) r ((x - at_ s c b r) / 4))).getD
          ((x - at_ s c b r) % 4) 0#8) ∧
      (∀ x, (∀ r, ¬ covers r x) → t.byteAt x = s.byteAt x) ∧
      s.InCore t c (vectorKeys c) ∧ (t.core c).sreg = (s.core c).sreg ∧ (t.core c).lc = (s.core c).lc ∧
      (t.core c).rest = (s.core c).rest ∧ (t.core c).tile = (s.core c).tile ∧ (t.core c).rowWrites = [])

/-- SETVL and its register form set the loop shape; row writes of earlier instructions still on their way stay as they are (R149).
exec answers a next state for every state that meets the conditions: setvl, setvlR. -/
def Obligations.LoopShape : Prop :=
  let shaped (s : State) (c vl rl : Nat) (t : State) : Prop :=
    t.cf Reg.DRESS_VL c = vl ∧ t.cf Reg.DRESS_RL c = rl ∧ s.InCore t c (vectorKeys c ++ [Reg.DRESS_VL.key c 0, Reg.DRESS_RL.key c 0]) ∧
    (∀ a, t.byteAt a = s.byteAt a) ∧ (t.core c).sreg = (s.core c).sreg ∧ (t.core c).lc = (s.core c).lc ∧
    (t.core c).rest = (s.core c).rest ∧ (t.core c).tile = (s.core c).tile ∧ (t.core c).rowWrites = (s.core c).rowWrites
  let free (s : State) (c : Nat) : Prop := (s.core c).tm.vNext ≤ s.issueCycle c
  let ahead (s : State) (c : Nat) : Prop := ∀ w ∈ (s.core c).rowWrites, s.issueCycle c < w.cycle
  CompletesIf .setvl .v 0x48
    (fun s c b => free s c ∧ ahead s c ∧ fld (bV b) 13 7 ≤ 64 ∧ 1 ≤ fld (bV b) 18 14 ∧ fld (bV b) 18 14 ≤ 16)
    (fun s c b t => shaped s c (fld (bV b) 13 7) (fld (bV b) 18 14) t) ∧
  CompletesIf .setvl .v 0x48
    (fun s c b => free s c ∧ (64 < fld (bV b) 13 7 ∨ fld (bV b) 18 14 = 0 ∨ 16 < fld (bV b) 18 14))
    (fun s c _ t => t.Detects 0x0405 c [s.issueCycle c] ∧ t.run c = 3 ∧ t.cf Reg.DRESS_VL c = s.cf Reg.DRESS_VL c ∧
      t.cf Reg.DRESS_RL c = s.cf Reg.DRESS_RL c ∧ (s.taskRuns = true → t.taskState = 7) ∧ ∀ a, t.byteAt a = s.byteAt a) ∧
  CompletesIf .setvlR .v 0x49 (fun s c _ => free s c ∧ ahead s c)
    (fun s c b t => shaped s c (min (s.word c (fld (bV b) 11 7)).toNat 64) (max 1 (min (s.word c (fld (bV b) 16 12)).toNat 16)) t)

/-- EXPORT to bed, element and gradient class: every row of every array stands packed in its place (R130–R133, R138–R140, R142).
exec answers a next state for every state that meets the conditions: exportTile. -/
def Obligations.ExportToBed : Prop :=
  CompletesIf .exportTile .m 2
    (fun s c b => let p := exportOf s c b; p.mode ≠ 2 ∧ p.dest = 1 ∧ s.ExportReady c p .m b ∧ Apart s c p)
    (fun s c b t =>
      let p := exportOf s c b
      let u := s.opened c .m b
      (∀ rank a, p.ranked rank a → ∀ i < p.m,
        t.bytesAt (s.behind c p.dh (p.dOff + p.rowAt p.ofmt.width i rank)) (rowLen p.n p.ofmt.width) =
          packBits p.ofmt.width ((List.range p.n).map fun n => exportBits u c p (rowScales s c p) (columnScales s c p) i rank a n)) ∧
      ExportEffect u s t c p)

/-- EXPORT in raw mode writes the keystone image of each array (R124, R141).
exec answers a next state for every state that meets the conditions: exportTile. -/
def Obligations.ExportRaw : Prop :=
  CompletesIf .exportTile .m 2
    (fun s c b => let p := exportOf s c b; p.mode = 2 ∧ p.dest = 1 ∧ s.ExportReady c p .m b)
    (fun s c b t =>
      let p := exportOf s c b
      (∀ rank a, p.ranked rank a → ∀ i < 16, ∀ j < 16,
        let at_ := s.behind c p.dh (p.dOff + 5120 * rank)
        let e := (s.core c).elem a p.acc i j
        t.bytesAt (at_ + 256 * i + 16 * j) 16 = toBytes 16 e.v.toNat ∧ t.bytesAt (at_ + 4096 + 64 * i + 4 * j) 4 = toBytes 4 e.md.toNat) ∧
      ExportEffect (s.opened c .m b) s t c p)

/-- EXPORT to a tile register and to the hod queue, and PULL (R133, R134, R159–R161).
exec answers a next state for every state that meets the conditions: exportTile, pull. -/
def Obligations.ExportToTile : Prop :=
  CompletesIf .exportTile .m 2
    (fun s c b => let p := exportOf s c b; p.mode ≠ 2 ∧ p.dest = 2 ∧ s.ExportReady c p .m b ∧ Apart s c p)
    (fun s c b t =>
      let p := exportOf s c b
      TileElements (s.opened c .m b) s t c p p.treg p.lane0 ∧ ExportEffect (s.opened c .m b) s t c p) ∧
  CompletesIf .exportTile .m 2
    (fun s c b => let p := exportOf s c b; p.mode ≠ 2 ∧ p.dest = 0 ∧ s.ExportReady c p .m b ∧ Apart s c p)
    (fun s c b t =>
      let p := exportOf s c b
      let u := s.opened c .m b
      ∃ e < 4, (u.core c).freeHod = some e ∧ (t.core c).hod = (u.core c).hod ++ [⟨e, p.final (s.issueCycle c), none⟩] ∧
        TileElements u s t c p (8 + e) 0 ∧ ExportEffect u s t c p) ∧
  CompletesIf .pull .v 0x50 (fun s c b => s.ExportReady c (pullArgs (bV b)) .v b)
    (fun s c b t =>
      let p := pullArgs (bV b)
      TileElements (s.opened c .v b) s t c p p.treg p.lane0 ∧ ExportEffect (s.opened c .v b) s t c p)

/-- TEVAL: each lane of a row takes the template function of the source lane, group by group (R166–R170, R178, R179).
exec answers a next state for every state that meets the conditions: teval. -/
def Obligations.TemplateEval : Prop :=
  let src (b : Bundle) : Nat := fld (bT b) 8 6
  let dst (b : Bundle) : Nat := fld (bT b) 11 9
  let f (b : Bundle) : TFun := TFun.ofCode (fld (bT b) 5 3)
  let slow (s : State) (c : Nat) (b : Bundle) : Bool := decide (s.cf Reg.NUM_VSTRICT c = 1) && (f b = .rcp || f b = .sqrt)
  CompletesIf .teval .t 1
    (fun s c b => (s.core c).tm.tNext ≤ s.issueCycle c ∧ (s.core c).tm.swapAt = none ∧ s.cf Reg.TPL_LOADING c ≠ 1 ∧
      (s.core c).rowWrites = [] ∧ (s.cf Reg.DRESS_BEYLER c = 1 → src b < 4 ∧ dst b < 4))
    (fun s c b t =>
      let groups := (s.lanes c + 15) / 16
      let step := if slow s c b then 8 else 1
      (∀ r < s.rows c, ∀ l < s.lanes c,
        let q := r * groups + l / 16
        t.Writes c (dst b) r l (s.issueCycle c + (if slow s c b then 16 else 9) + step * q)
          (templateEval (decide (s.cf Reg.DRESS_BEYLER c = 1)) (decide (s.cf Reg.NUM_VSTRICT c = 1))
            ((s.core c).segment (s.cf Reg.TPL_ACTIVE c)) (f b) ((Rm.ofCode (fld (bT b) 13 12)).getD .rne)
            (Sparse.get 0#32 (s.core c).tile (laneKey (src b) r l)).toNat).bits) ∧
      t.cf Reg.TPL_EVALS c = min (s.cf Reg.TPL_EVALS c + s.rows c * s.lanes c) (2 ^ 32 - 1) ∧
      (t.core c).tm.tNext = s.issueCycle c + max 1 (step * (s.rows c * groups)) ∧
      t.rest = s.rest ∧ s.UnitFrame t c (templateKeys c) keepAll)

/-- TLOAD and TSWAP, and their refusal in Beyler mode (R174, R175, R177).
exec answers a next state for every state that meets the conditions: tload, tswap. -/
def Obligations.TemplateBanks : Prop :=
  let first (b : Bundle) : Nat := match fld (bT b) 5 3 with | 0 => 0 | 1 => 256 | 2 => 512 | 3 => 768 | _ => 0
  let count (b : Bundle) : Nat := match fld (bT b) 5 3 with | 0 => 256 | 1 => 256 | 2 => 256 | 3 => 512 | _ => 1280
  let off (s : State) (c : Nat) (b : Bundle) : Nat := fld (s.amount c (fld (bT b) 16 12)) 23 0
  let h (s : State) (c : Nat) (b : Bundle) : Handle := s.handleNow c (fld (bT b) 11 6)
  let refused (s : State) (c : Nat) (_ : Bundle) (t : State) : Prop :=
    t.cf Reg.TPL_TABLE_BUSY c = 1 ∧ t.cf Reg.TPL_REFUSED c = min (s.cf Reg.TPL_REFUSED c + 1) (2 ^ 32 - 1) ∧
    (∃ e : Event, e.code = 0x0505 ∧ e.unit = c ∧ e.data = [s.issueCycle c] ∧ t.rest = { s with detected := s.detected ++ [e] }.rest) ∧
    s.UnitFrame t c (templateKeys c) keepAll ∧ (t.core c).tm.swapAt = none
  CompletesIf .tload .t 2
    (fun s c b => s.cf Reg.DRESS_BEYLER c ≠ 1 ∧ (s.core c).tm.tloadNext ≤ s.issueCycle c ∧ (s.core c).tm.swapAt = none ∧ s.marks = [] ∧
      off s c b % 16 = 0 ∧ (h s c b).wide (off s c b) (16 * count b) = true)
    (fun s c b t =>
      let bank := 1 - s.cf Reg.TPL_ACTIVE c
      (∀ i < count b, (t.core c).segment bank (first b + i) =
        ofBytes (s.bytesAt (State.wideAt c (h s c b) (off s c b) + 16 * i) 16) % 2 ^ 97) ∧
      (∀ k i, i < 1280 → ¬(k = bank ∧ first b ≤ i ∧ i < first b + count b) → (t.core c).segment k i = (s.core c).segment k i) ∧
      (t.core c).tm.tloadNext = s.issueCycle c + count b / 4 ∧ s.issueCycle c + 40 + count b / 4 ∈ (t.core c).tm.tloads ∧
      t.rest = s.rest ∧ s.UnitFrame t c (bedKeys c) fun k => { k with segs := [] }) ∧
  CompletesIf .tswap .t 3
    (fun s c _ => s.cf Reg.DRESS_BEYLER c ≠ 1 ∧ (s.core c).tm.swapAt = none)
    (fun s c _ t =>
      (t.core c).tm.swapAt =
        some (max (s.issueCycle c + 1) (max ((s.core c).tm.lastLookup + 1) ((s.core c).tm.lastShadow + 1))) ∧
      t.rest = s.rest ∧ s.UnitFrame t c (templateKeys c) keepAll) ∧
  CompletesIf .tload .t 2 (fun s c _ => s.cf Reg.DRESS_BEYLER c = 1 ∧ (s.core c).tm.swapAt = none)
    refused ∧
  CompletesIf .tswap .t 3 (fun s c _ => s.cf Reg.DRESS_BEYLER c = 1 ∧ (s.core c).tm.swapAt = none) refused

/-- FILLA, FILLW and FILLB: the feed and bundle buffers take bytes of bed, or the data of a fill done ahead (R57, R59, R191, R198, R199).
exec answers a next state for every state that meets the conditions: filla, fillw, fillb. -/
def Obligations.Fills : Prop :=
  let held (k : Core) : Core := { k with fbuf := [], shadow := [] }
  let fill (mk : Nat → Bundle → Instr) (op size : Nat) (buf dst len so h : Nat → Nat) (ok : State → Nat → Nat → Prop) : Prop :=
    let off (s : State) (c x : Nat) : Nat := fld (s.amount c (so x)) 23 0
    let src (s : State) (c x : Nat) : Nat := (s.handleNow c (h x)).base + off s c x
    let ahead (s : State) (c : Nat) (b : Bundle) (f : ShadowFill) : Prop :=
      f.index = s.next c ∧ f.bundle = b ∧ f.depth = 0 ∧ f.src = src s c (bX b) ∧ s.aheadFresh c f.src f.data = true
    let good (s : State) (c : Nat) (b : Bundle) : Prop :=
      ok s c (bX b) ∧ off s c (bX b) % 16 = 0 ∧ dst (bX b) + len (bX b) ≤ size ∧
      (s.handleNow c (h (bX b))).wide (off s c (bX b)) (len (bX b)) = true
    let takes (s : State) (c : Nat) (b : Bundle) (t : State) (bs : List Byte) : Prop :=
      ∀ x, Sparse.get 0#8 (t.core c).fbuf x =
        if inRun x (buf (bX b) * 8192 + dst (bX b)) (len (bX b)) then bs.getD (x - (buf (bX b) * 8192 + dst (bX b))) 0#8
        else Sparse.get 0#8 (s.core c).fbuf x
    CompletesIf mk .x op (fun s c b => good s c b ∧ s.marks = [] ∧ ∀ f ∈ (s.core c).shadow, ¬ ahead s c b f)
      (fun s c b t => takes s c b t (s.bytesAt (windowBase c + src s c (bX b)) (len (bX b))) ∧ (t.core c).shadow = (s.core c).shadow ∧
        t.rest = s.rest ∧ s.UnitFrame t c (bedKeys c) held) ∧
    CompletesIf mk .x op
      (fun s c b => good s c b ∧ ∃ f rest, (s.core c).shadow = f :: rest ∧ ahead s c b f ∧ f.data.length = len (bX b))
      (fun s c b t => (∀ f rest, (s.core c).shadow = f :: rest → takes s c b t f.data ∧ (t.core c).shadow = rest) ∧
        t.cf Reg.SEQ_COMMITS c = min (s.cf Reg.SEQ_COMMITS c + 1) (2 ^ 32 - 1) ∧
        t.rest = s.rest ∧ s.UnitFrame t c (issueKeys c ++ [Reg.SEQ_COMMITS.key c 0]) held)
  fill .filla 1 8192 (fun _ => 0) (fun x => 16 * fld x 24 16) (fun x => 16 * (fld x 33 25 + 1)) (fun x => fld x 15 11) (fun x => fld x 10 5)
    (fun _ _ _ => True) ∧
  fill .fillw 2 4096 (fun x => 1 + 2 * fld x 6 5 + fld x 7 7) (fun x => 16 * fld x 26 19) (fun x => 16 * (fld x 34 27 + 1)) (fun x => fld x 18 14)
    (fun x => fld x 13 8) (fun s c x => s.arrayGood c (fld x 6 5) = true) ∧
  CompletesIf .fillb .x 3
    (fun s c b =>
      let p := fld (bX b) 18 5
      let n := fld (bX b) 25 19 + 1
      p + n ≤ 12288 ∧ 32 * s.cf Reg.SEQ_ENTRY c + 32 + 32 * p + 32 * n ≤ bedSize ∧ s.marks = [])
    (fun s c b t =>
      let p := fld (bX b) 18 5
      let n := fld (bX b) 25 19 + 1
      (∀ i < n, Sparse.get emptySlot (t.core c).bbuf ((p + i) % 128) =
        (p + i, BitVec.ofNat 256 (ofBytes (s.bytesAt (windowBase c + (32 * s.cf Reg.SEQ_ENTRY c + 32 + 32 * (p + i))) 32)))) ∧
      (∀ q, (∀ i < n, q ≠ (p + i) % 128) → Sparse.get emptySlot (t.core c).bbuf q = Sparse.get emptySlot (s.core c).bbuf q) ∧
      t.rest = s.rest ∧ s.UnitFrame t c (bedKeys c) fun k => { k with bbuf := [] })

/-- MOVE queues a job in the local mover; one of length 0 completes at once (R200, R213, R249, R297).
exec answers a next state for every state that meets the conditions: moveCopy. -/
def Obligations.Moves : Prop :=
  let len (s : State) (c : Nat) (b : Bundle) : Nat := fld (s.amount c (fld (bX b) 26 22)) 23 0
  let so (s : State) (c : Nat) (b : Bundle) : Nat := s.amount c (fld (bX b) 21 17)
  let keys (c : Nat) : List Nat := issueKeys c ++ [Reg.MOVER_MOVES.key c 0, Reg.MOVER_OUTSTANDING.key c 0, Reg.SYNC_ADDS_SENT.key c 0,
    Reg.ARCH_PLANE_STALL.key 0 0]
  let ready (s : State) (c : Nat) (b : Bundle) : Prop :=
    moveAdmits s c (s.handleNow c (fld (bX b) 10 5)) (s.handleNow c (fld (bX b) 16 11)) (fld (so s c b) 23 0) (fld (so s c b) 47 24)
      (len s c b) (bit (bX b) 27) = true ∧ (s.core c).moves.length < 8
  CompletesIf .moveCopy .x 4 (fun s c b => ready s c b ∧ len s c b ≠ 0)
    (fun s c b t =>
      (∃ j : MoveJob, (t.core c).moves = (s.core c).moves ++ [j] ∧ j.serial = (s.core c).moveSerial ∧
        j.srcHandle = s.handleNow c (fld (bX b) 10 5) ∧ j.dstHandle = s.handleNow c (fld (bX b) 16 11) ∧
        j.srcOff = fld (so s c b) 23 0 ∧ j.dstOff = fld (so s c b) 47 24 ∧ j.len = len s c b ∧ j.sig = bit (bX b) 27 ∧
        j.cte = bit (bX b) 28 ∧ j.ct = fld (bX b) 36 29 ∧ j.begun = false ∧ j.failed = false) ∧
      t.cf Reg.MOVER_MOVES c = min (s.cf Reg.MOVER_MOVES c + 1) (2 ^ 32 - 1) ∧
      t.cf Reg.MOVER_OUTSTANDING c = (s.core c).moves.length + 1 ∧ (t.core c).moveSerial = (s.core c).moveSerial + 1 ∧
      t.rest = s.rest ∧ s.UnitFrame t c (keys c) fun k => { k with moves := [], moveSerial := 0 }) ∧
  CompletesIf .moveCopy .x 4
    (fun s c b => ready s c b ∧ len s c b = 0 ∧ (bit (bX b) 28 = true → s.coreAlive (s.home c (fld (bX b) 36 29)).1 = true))
    (fun s c b t =>
      (bit (bX b) 28 = false → t.rest = s.rest) ∧
      (bit (bX b) 28 = true →
        s.Sends t c (s.home c (fld (bX b) 36 29)).1 (s.home c (fld (bX b) 36 29)).2 false 1 (t.issueLin c + 1) ∧
        { t with sync := s.sync }.rest = s.rest) ∧
      t.cf Reg.MOVER_MOVES c = min (s.cf Reg.MOVER_MOVES c + 1) (2 ^ 32 - 1) ∧ s.UnitFrame t c (keys c) keepAll)

/-- SIGNAL, TIE_ADD, TIE_ADD.L and DEC (R233, R234).
exec answers a next state for every state that meets the conditions: signal, tieAdd, tieAddL, dec. -/
def Obligations.TieUpdates : Prop :=
  let named (mk : Nat → Bundle → Instr) (op : Nat) (amt : State → Nat → Bundle → Nat) : Prop :=
    let h (s : State) (c : Nat) (b : Bundle) : Handle := s.handleNow c (fld (bY b) 9 4)
    CompletesIf mk .y op (fun s c b => ∃ k, (h s c b).tieCore = some k)
      (fun s c b t =>
        let hd := h s c b
        (amt s c b = 0 → s.Quiet t) ∧
        (amt s c b ≠ 0 → s.isOwn hd.base = true → ∀ k, hd.tieCore = some k →
          s.Sends t c k hd.index false (amt s c b) (t.issueLin c) ∧ t.run c = 1) ∧
        (amt s c b ≠ 0 → s.isOwn hd.base = false → ∀ k, hd.tieCore = some k →
          ∃ p : Packet, pDpkg p = gPkg hd.base ∧ pDdie p = gDie hd.base ∧ pDnode p = k ∧ pDkind p = 0 ∧ pVl p = 2 ∧ pType p = 4 ∧
            pSub p = hd.index ∧ pAddr p = amt s c b ∧ p.payload = [] ∧ s.Issued t c p ∧
            t.sync = s.sync ∧ t.detected = s.detected) ∧
        s.SyncFrame t c fun k => { k with outQ := [] })
  let loc (mk : Nat → Bundle → Instr) (op : Nat) (dec : Bool) (amt : State → Nat → Bundle → Nat) : Prop :=
    CompletesIf mk .y op (fun s c b => s.coreAlive (s.home c (fld (bY b) 11 4)).1 = true)
      (fun s c b t =>
        let to_ := s.home c (fld (bY b) 11 4)
        (amt s c b = 0 → s.Quiet t) ∧
        (amt s c b ≠ 0 → s.Sends t c to_.1 to_.2 dec (amt s c b) (t.issueLin c)) ∧
        t.run c = 1 ∧ s.SyncFrame t c keepAll)
  named .signal 1 (fun _ _ _ => 1) ∧
  named .tieAdd 2 (fun s c b => s.amount c (fld (bY b) 14 10)) ∧
  loc .tieAddL 3 false (fun _ _ b => fld (bY b) 23 12) ∧
  loc .dec 4 true (fun s c b => s.amount c (fld (bY b) 16 12))

/-- WAIT and WAIT.TAKE: a bound wait goes to its home over the plane; an unbound one registers at issue, where it is met or waits, shown with no
other update, wait or registration at its core (R234, R237, R238, R240, R241).
exec answers a next state for every state that meets the conditions: waitTie, waitTake. -/
def Obligations.Waits : Prop :=
  let tie (b : Bundle) : Nat := fld (bY b) 11 4
  let thr (s : State) (c : Nat) (b : Bundle) : Nat := s.amount c (fld (bY b) 16 12)
  let limit (s t : State) (c : Nat) (b : Bundle) (at_ : Nat) : Option Nat :=
    let x := fld (s.amount c (fld (bY b) 21 17)) 31 0
    if x = 0 then none else some (max (t.issueLin c + x) at_)
  let req (take : Bool) (s t : State) (c : Nat) (b : Bundle) (at_ : Nat) : WaitReq :=
    ⟨c, tie b, (s.home c (tie b)).1, (s.home c (tie b)).2, take, thr s c b, limit s t c b at_, at_⟩
  let alone (s : State) (c : Nat) (b : Bundle) : Prop := s.coreAlive c = true ∧ s.bound c (tie b) = false ∧
    (∀ u ∈ s.sync.updates, u.home ≠ c) ∧ (∀ q ∈ s.sync.registering, q.home ≠ c) ∧ (∀ x ∈ s.sync.slots, x.req.home = c → x.req.tie ≠ tie b) ∧
    (∀ r ∈ s.sync.results, r.core ≠ c) ∧ s.sync.freed = []
  let wait (mk : Nat → Bundle → Instr) (op : Nat) (take : Bool) : Prop :=
    CompletesIf mk .y op (fun s c b => s.coreAlive (s.home c (tie b)).1 = true ∧ s.bound c (tie b) = true)
      (fun s c b t => ∃ at_, s.Plane t (fun y => { y with registering := y.registering ++ [req take s t c b at_] }) ∧
        (s.sync.links = [] → at_ = t.issueLin c + 2 + transit c (s.home c (tie b)).1) ∧ t.heldFor c .wait = true ∧
        t.net = s.net ∧ s.SyncFrame t c keepAll) ∧
    (∀ i, CompletesIf mk .y op
      (fun s c b => alone s c b ∧ s.freeSlot c 0 = some i ∧ s.tie c (tie b) < thr s c b)
      (fun s c b t => t.sync = { s.sync with slots := s.sync.slots ++ [⟨i, req take s t c b (t.issueLin c)⟩] } ∧
        t.heldFor c .wait = true ∧ t.net = s.net ∧ s.SyncFrame t c fun k => { k with ties := [] })) ∧
    (∀ i, CompletesIf mk .y op
      (fun s c b => alone s c b ∧ s.freeSlot c 0 = some i ∧ thr s c b ≤ s.tie c (tie b))
      (fun s c b t => t.tie c (tie b) = (if take then s.tie c (tie b) - thr s c b else s.tie c (tie b)) ∧
        (∀ k, k ≠ tie b → t.tie c k = s.tie c k) ∧ t.run c = 1 ∧ t.sync = { s.sync with freed := [(c, i, t.issueLin c)] } ∧
        t.net = s.net ∧ t.detected = s.detected ∧ s.SyncFrame t c fun k => { k with ties := [] }))
  wait .waitTie 5 false ∧ wait .waitTake 6 true

/-- ARRIVE and AWAIT (R250–R253).
exec answers a next state for every state that meets the conditions: arrive, await. -/
def Obligations.Arches : Prop :=
  let a (b : Bundle) : Nat := fld (bY b) 6 4
  let idle (s : State) (b : Bundle) : Prop := (s.phase (a b)).ready = none
  let ready (s : State) (c : Nat) (b : Bundle) : Prop := idle s b ∧ s.member (a b) c = true ∧ s.arrived c (a b) = false
  let last (s : State) (c : Nat) (b : Bundle) : Prop := ∀ d, d < 1024 → d ≠ c → s.member (a b) d = true → s.arrived d (a b) = true
  let marked (s : State) (c : Nat) (b : Bundle) (t : State) : Prop :=
    t.arrived c (a b) = true ∧ (∀ k < 8, k ≠ a b → t.arrived c k = s.arrived c k) ∧ t.rd Reg.ARCH_OPEN 0 (a b) = 1 ∧
    t.rd Reg.ARCH_ARRIVED_COUNT 0 (a b) = min (s.rd Reg.ARCH_ARRIVED_COUNT 0 (a b) + 1) (2 ^ Reg.ARCH_ARRIVED_COUNT.width - 1) ∧
    t.run c = 1 ∧ s.SyncFrame t c keepAll
  let rooted (s t : State) (c : Nat) (b : Bundle) : ArchPhase :=
    { s.phase (a b) with root := true, last := max (s.phase (a b)).last (t.issueLin c + 3) }
  let phases (s t : State) (b : Bundle) (p : ArchPhase) : Prop :=
    { t.sync with arches := s.sync.arches } = s.sync ∧ t.phase (a b) = p
  CompletesIf .arrive .y 7 (fun s c b => ready s c b ∧ ¬ last s c b) (fun s c b t => marked s c b t ∧ s.Quiet t) ∧
  CompletesIf .arrive .y 7 (fun s c b => Sparse.sorted s.sync.arches ∧ ready s c b ∧ last s c b ∧ s.cross (a b) = false)
    (fun s c b t => marked s c b t ∧ phases s t b { rooted s t c b with ready := some (t.issueLin c + 4) } ∧ t.net = s.net) ∧
  CompletesIf .arrive .y 7
    (fun s c b => Sparse.sorted s.sync.arches ∧ ready s c b ∧ last s c b ∧ s.cross (a b) = true ∧ s.isMaster = false)
    (fun s c b t => marked s c b t ∧ phases s t b (rooted s t c b) ∧
      ∃ p : Packet, t.net = { s.net with mesh := s.net.mesh ++ [p] } ∧ pDdie p = 0 ∧ pDkind p = 2 ∧ pVl p = 2 ∧ pType p = 5 ∧ pSub p = 2 ∧
        pAddr p = a b) ∧
  CompletesIf .arrive .y 7
    (fun s c b => Sparse.sorted s.sync.arches ∧ ready s c b ∧ last s c b ∧ s.cross (a b) = true ∧ s.isMaster = true)
    (fun s c b t => marked s c b t ∧
      ((∀ d ∈ s.otherDies (a b), bit (s.phase (a b)).dies d = true) →
        phases s t b ⟨true, 0, 0, some (t.inTick (rooted s t c b).last + 1)⟩ ∧
        ∃ l : List Packet, t.net = { s.net with mesh := s.net.mesh ++ l } ∧ l.map pDdie = s.otherDies (a b) ∧
          ∀ p ∈ l, pType p = 5 ∧ pSub p = 3 ∧ pAddr p = a b) ∧
      ((∃ d ∈ s.otherDies (a b), bit (s.phase (a b)).dies d = false) → phases s t b (rooted s t c b) ∧ t.net = s.net)) ∧
  CompletesIf .await .y 8 (fun s c b => idle s b ∧ s.arrived c (a b) = false) (fun s c _ t => t.run c = 1 ∧ s.Quiet t ∧ s.SyncFrame t c keepAll ∧ t.next c = s.next c + 1) ∧
  CompletesIf .await .y 8 (fun s c b => idle s b ∧ s.arrived c (a b) = true)
    (fun s c b t =>
      let x := fld (s.amount c (fld (bY b) 11 7)) 31 0
      t.sync = { s.sync with awaits := s.sync.awaits ++ [⟨c, a b, if x = 0 then none else some (t.issueLin c + x)⟩] } ∧
      t.heldFor c .wait = true ∧ t.net = s.net ∧ s.SyncFrame t c keepAll)

/-- WOPEN and WCLOSE (R244, R245).
exec answers a next state for every state that meets the conditions: wopen, wclose. -/
def Obligations.Windows : Prop :=
  let w (b : Bundle) : Nat := fld (bY b) 8 4
  let others (s t : State) (c : Nat) (b : Bundle) : Prop := ∀ v i, i < 8 → v ≠ w b → t.winWord c v i = s.winWord c v i
  let words (s t : State) (c : Nat) (b : Bundle) (l : List Nat) : Prop := ∀ i < 8, i ∉ l → t.winWord c (w b) i = s.winWord c (w b) i
  let frame (s t : State) (c : Nat) : Prop := t.run c = 1 ∧ t.sync = s.sync ∧ t.net = s.net ∧ s.SyncFrame t c fun k => { k with windows := [] }
  CompletesIf .wopen .y 9 (fun s c b => s.windowOpen c (w b) = false ∧ s.winOk c (w b) = true)
    (fun s c b t => t.windowOpen c (w b) = true ∧ t.winWord c (w b) 0 / 2 = s.winWord c (w b) 0 / 2 ∧ t.winWord c (w b) 2 = 0 ∧
      fld (t.winWord c (w b) 3) 31 0 = 0 ∧ t.winWord c (w b) 3 / 2 ^ 32 = s.winWord c (w b) 3 / 2 ^ 32 ∧
      (∀ i, bit (t.winWord c (w b) 4) i = (bit (s.winWord c (w b) 4) i && decide (i ≠ 30))) ∧
      words s t c b [0, 2, 3, 4] ∧ others s t c b ∧
      (s.winLate c (w b) ≤ 1 → t.detected = s.detected) ∧
      (1 < s.winLate c (w b) → ∃ e : Event, e.code = 0x0705 ∧ e.unit = c ∧ e.data = [w b, s.winLate c (w b)] ∧ t.detected = s.detected ++ [e]) ∧
      frame s t c) ∧
  CompletesIf .wopen .y 9 (fun s c b => s.windowOpen c (w b) = true)
    (fun s c b t => words s t c b [] ∧ others s t c b ∧ t.detected = s.detected ∧ frame s t c) ∧
  CompletesIf .wopen .y 9 (fun s c b => s.windowOpen c (w b) = false ∧ s.winOk c (w b) = false)
    (fun s c b t => words s t c b [] ∧ others s t c b ∧ t.Detects 0x0707 c [s.issueCycle c, w b] ∧ t.run c = 3 ∧
      (s.taskRuns = true → t.taskState = 7 ∧ t.df Reg.CMD_CAUSE = 2) ∧ t.mem = s.mem ∧
      t.cf Reg.SYNC_FAULT c = (if s.cf Reg.SYNC_FAULT c = 0 then 5 else s.cf Reg.SYNC_FAULT c)) ∧
  Completes .wclose .y 10
    (fun s c b t => t.windowOpen c (w b) = false ∧ t.winWord c (w b) 0 / 2 = s.winWord c (w b) 0 / 2 ∧ words s t c b [0] ∧ others s t c b ∧
      t.detected = s.detected ∧ frame s t c)

/-- Power and reset pins (R373, R381, R436, R437, R439). What memory reads as after a reset is the model's (notes/assumptions/2.md).
exec answers a next state for every state that meets the conditions: vddPlinthUp, vddPlinthLoss, pwrgoodRise, pwrgoodLow, resetNLow, resetNRelease,
compResetNLow, compResetNRelease. -/
def Obligations.Pins : Prop :=
  let up (s : State) : Prop := s.boot.plinth = true
  Does .vddPlinthUp (fun s => s.boot.plinth = false)
    (fun s t => t.df Reg.LEDGER_HEAD_SEQ = 0 ∧ t.df Reg.LEDGER_ACK_SEQ = 0 ∧ t.ledger = { Ledger.init with steps := s.ledger.steps } ∧
      t.boot = { s.boot with plinth := true, risen := false, cause := some 0 } ∧
      s.Keeps t (dieKeys [Reg.LEDGER_HEAD_SEQ, Reg.LEDGER_ACK_SEQ, Reg.LEDGER_HOURS, Reg.LEDGER_MINUTES, Reg.LEDGER_HOURS_SAT])
        fun s => { s with ledger := Ledger.init, boot := Boot.init }) ∧
  Does .vddPlinthLoss (fun _ => True)
    (fun s t => { t with regs := [], ledger := Ledger.init } = { State.reset with pending := s.pending } ∧
      t.ledger = { Ledger.init with steps := s.ledger.steps } ∧
      ∀ d k, Sparse.get d t.regs k = if antifuse.any (fun r => r.has k) then Sparse.get d s.regs k else d) ∧
  (∀ pos master,
    Does (.pwrgoodRise pos master) (fun s => up s ∧ s.boot.pwrgood = false ∧ s.df Reg.BOOT_PHASE = 0)
      (fun s t => t.df Reg.PLACE_POS_STRAP = pos % 8 ∧ t.df Reg.PLACE_MASTER = b2n master ∧ t.boot.pwrgood = true ∧ t.boot.risen = true ∧
        (s.boot.risen = true → t.df Reg.LEDGER_CYCLES = s.df Reg.LEDGER_CYCLES) ∧
        (s.boot.risen = false → s.df Reg.LEDGER_CYCLES < 8192 → t.df Reg.LEDGER_CYCLES = s.df Reg.LEDGER_CYCLES + 1) ∧
        (s.boot.resetN = true → s.boot.risen = true ∨ s.df Reg.LEDGER_CYCLES < 8192 → s.RomStarted t) ∧
        (s.boot.resetN = false → s.Keeps t
          (dieKeys [Reg.PLACE_POS_STRAP, Reg.PLACE_MASTER, Reg.LEDGER_CYCLES, Reg.LEDGER_CYCLES_SAT]) fun s => { s with boot := Boot.init, detected := [] }))) ∧
  Does .pwrgoodLow (fun s => up s ∧ s.boot.pwrgood = true)
    (fun s t => s.WholeReset t [] ∧ t.df Reg.BOOT_PHASE = 0 ∧ t.boot.pwrgood = false ∧ t.boot.cause = some (s.boot.cause.getD 1)) ∧
  Does .resetNLow (fun s => up s ∧ s.boot.resetN = true)
    (fun s t => s.WholeReset t [] ∧ t.df Reg.BOOT_PHASE = 0 ∧ t.boot.resetN = false ∧ t.boot.cause = some (s.boot.cause.getD 2)) ∧
  Does .resetNRelease (fun s => up s ∧ s.boot.pwrgood = true ∧ s.df Reg.BOOT_PHASE = 0)
    (fun s t => s.RomStarted t ∧ t.boot.resetN = true ∧ t.mem = s.mem ∧ t.cores = s.cores ∧ s.RegsBut t romKeys) ∧
  Does .compResetNLow (fun s => s.frozen = false ∧ s.df Reg.BOOT_PHASE = 7)
    (fun s t => s.PartReset t [] ∧ t.boot.compResetN = false) ∧
  Does .compResetNLow (fun s => s.df Reg.BOOT_PHASE ≠ 0 ∧ (s.frozen = true ∨ s.df Reg.BOOT_PHASE < 7))
    (fun s t => t = { s with boot := { s.boot with compResetN := false, compHeld := true } }) ∧
  Does .compResetNRelease (fun s => s.boot.compHeld = false)
    (fun s t => t = { s with boot := { s.boot with compResetN := true } }) ∧
  Does .compResetNRelease (fun s => s.boot.compHeld = true ∧ s.frozen = false ∧ s.df Reg.BOOT_PHASE = 7)
    (fun s t => s.PartReset t [] ∧ t.boot.compResetN = true ∧ t.boot.compHeld = false)

/-- RESET by command: the scopes whole die, compute part, and core group, whose refusal is BUSY (R348, R349). What memory reads as after a reset is
the model's (notes/assumptions/2.md).
exec answers a next state for every state that meets the conditions: wholeDieReset, computePartReset, coreGroupReset. -/
def Obligations.ResetCommands : Prop :=
  let given (path : Path) (a0 : Nat) (s : State) : Prop := path ≠ .other ∧ a0 < 256 ∧ s.frozen = false ∧ s.df Reg.CMD_BUSY ≠ 1
  let cmdKeys := dieKeys [Reg.CMD_ARG0, Reg.CMD_ARG1, Reg.CMD_ARG2, Reg.CMD_ARG3, Reg.CMD_BUSY]
  let answered (t : State) (status seq op : Nat) : Prop := t.df Reg.CMD_BUSY = 1 ∧ t.ops.result = some ⟨status, seq % 2 ^ 16, op⟩
  ∀ path seq target a0,
    Does (.wholeDieReset path seq target a0 0 0 0)
      (fun s => given path a0 s ∧ s.boot.plinth = true ∧ s.boot.pwrgood = true ∧ s.boot.resetN = true)
      (fun s t => s.WholeReset t romKeys ∧ t.df Reg.BOOT_PHASE = 1 ∧ t.df Reg.CMD_BUSY = 0 ∧
        ∃ e : Event, t.detected = [e] ∧ e.code = 0 ∧ e.data = [s.boot.cause.getD 3]) ∧
    Does (.computePartReset path seq target a0 0 0 0) (given path a0)
      (fun s t => s.PartReset t cmdKeys ∧ answered t 0 seq 0) ∧
    Does (.coreGroupReset path seq target a0 0 0 0) (fun s => given path a0 s ∧ s.groupBusy (fld a0 7 2) = false)
      (fun s t =>
        let g := fld a0 7 2
        answered t 0 seq 0 ∧ t.ops.group = (if s.ops.group.contains g then s.ops.group else s.ops.group ++ [g]) ∧
        (∀ c, c ∈ coresOf g → t.core c = Core.init) ∧ (∀ c, c ∉ coresOf g → t.core c = s.core c) ∧
        (∀ a, t.byteAt a = if inBeds (coresOf g) a then Memory.blank else s.byteAt a) ∧
        (∀ d k c, keyCore k = some c → c ∈ coresOf g → (coreKept.any fun r => r.has k) = false → Sparse.get d t.regs k = d) ∧
        (∀ d k, (∀ c, keyCore k = some c → c ∉ coresOf g ∨ (coreKept.any fun r => r.has k) = true) → k ∉ cmdKeys →
          Sparse.get d t.regs k = Sparse.get d s.regs k) ∧
        t.task = s.task ∧ t.detected = s.detected ∧ t.power = s.power ∧ t.ledger = s.ledger ∧ t.ports = s.ports) ∧
    Does (.coreGroupReset path seq target a0 0 0 0)
      (fun s => given path a0 s ∧ s.groupBusy (fld a0 7 2) = true)
      (fun s t => answered t 3 seq 0 ∧ s.Keeps t cmdKeys fun s => { s with ops := { s.ops with result := none } })

/-- The end of a bring-up phase, and what the next phase begins with (R339, R341, R345, R346, R391, R399).
exec answers a next state for every state that meets the conditions: bootPhase. -/
def Obligations.BringUpPhases : Prop :=
  let at_ (n : Nat) (s : State) : Prop := s.frozen = false ∧ s.df Reg.BOOT_PHASE = n ∧ s.boot.ready = false ∧ s.phaseOver = true ∧ s.boot.part = false
  let ended (r : PhaseResult) (t : State) (n next : Nat) : Prop := t.df Reg.BOOT_PHASE = next ∧ t.Detects 0x0B00 noUnit [n, r.ms]
  ∀ r : PhaseResult,
    Does (.bootPhase r) (at_ 1)
      (fun s t => ended r t 1 2 ∧ (r.puf = true → t.df Reg.MARK_PUF_OK = 1) ∧ (r.puf = false → t.Detects 0x0C04 noUnit [1, s.df Reg.ATTEST_REPORT_SEQ]) ∧
        s.Keeps t (dieKeys [Reg.BOOT_PHASE, Reg.MARK_PUF_OK, Reg.BOOT_ELAPSED_MS]) exceptEvents) ∧
    Does (.bootPhase r) (at_ 2)
      (fun s t => ended r t 2 3 ∧ s.Keeps t (dieKeys [Reg.BOOT_PHASE, Reg.BOOT_ELAPSED_MS]) exceptEvents) ∧
    Does (.bootPhase r) (fun s => at_ 3 s ∧ r.pll = true ∧ s.df Reg.BOOT_WARM = 0)
      (fun s t => ended r t 3 4 ∧ (∀ d < 64, t.domainOn d = true) ∧ t.opState 1 = 2 ∧
        t.ops.memtest = some ⟨false, 1, 0, 0⟩ ∧ t.mem = s.mem ∧ t.cores = s.cores) ∧
    Does (.bootPhase r) (fun s => at_ 3 s ∧ r.pll = false ∧ s.df Reg.BOOT_STATUS = 0)
      (fun s t => ended r t 3 5 ∧ t.df Reg.BOOT_STATUS = 5 ∧ (∀ c < 1024, (t.classify c).1 = 0) ∧ t.mem = s.mem) ∧
    Does (.bootPhase r) (at_ 4)
      (fun s t => ended r t 4 5 ∧ (∀ p < 4, t.rd Reg.LINK_STATE p 0 = 1) ∧ t.mem = s.mem ∧ t.cores = s.cores) ∧
    Does (.bootPhase r) (fun s => at_ 5 s ∧ s.df Reg.BOOT_STATUS ≠ 5)
      (fun s t => ended r t 5 6 ∧ t.opState 2 = 2 ∧ (∀ l, t.ops.load = some l → l.why = 6 ∧ l.round = 0 ∧
        l.cores = (List.range 1024).filter s.loadable) ∧ t.ops.load ≠ none ∧ t.mem = s.mem ∧ t.cores = s.cores) ∧
    Does (.bootPhase r) (fun s => at_ 6 s ∧ s.boot.compHeld = false)
      (fun s t => ended r t 6 7 ∧ t.df Reg.MARK_LOCKED = 1 ∧ (s.df Reg.MARK_LOCKED ≠ 1 → t.Detects 0x0C03 noUnit []) ∧
        s.Keeps t (dieKeys [Reg.BOOT_PHASE, Reg.MARK_LOCKED, Reg.BOOT_ELAPSED_MS]) exceptEvents) ∧
    Does (.bootPhase r) (at_ 7)
      (fun s t => ended r t 7 7 ∧ t.boot.ready = true ∧ (∀ c < 1024, t.floorState c = (s.classify c).1 % 4 ∧ t.arrays c = (s.classify c).2.1 % 16) ∧
        t.df Reg.FLOOR_SOURCE = (if s.df Reg.BOOT_WARM_TAKEN = 1 then 2 else 1) ∧
        t.df Reg.FLOOR_GEN = (s.df Reg.FLOOR_GEN + 2) % 2 ^ Reg.FLOOR_GEN.width ∧ t.mem = s.mem ∧ t.cores = s.cores)

/-- Deliveries into staging, ENUM_GO, and a manifest that fails its checks (R340, R344, R345, R394).
exec answers a next state for every state that meets the conditions: stageWrite, delivered, enumGo. -/
def Obligations.Deliveries : Prop :=
  let taken (path : Path) (s : State) : Prop := s.frozen = false ∧ (path = .sideband ∨ path = .trowel ∨ (path = .hub ∧ s.ring.placed = true))
  let warm (s : State) : Prop := s.df Reg.BOOT_WARM < 2
  ∀ path,
    (∀ off data, off + data.length ≤ 0x400000 →
      Does (.stageWrite path off data) (fun s => taken path s ∧ s.df Reg.BOOT_PHASE = 2)
        (fun s t => (∀ x, Sparse.get 0#8 t.boot.staging x =
            if inRun x off data.length then data.getD (x - off) 0#8 else Sparse.get 0#8 s.boot.staging x) ∧
          s.Keeps t [] fun s => { s with boot := { s.boot with staging := [] } })) ∧
    (∀ off data, Does (.stageWrite path off data) (fun s => taken path s ∧ s.df Reg.BOOT_PHASE ≠ 2)
      (fun s t => s.Notes t 0x0B02 noUnit [] ∧ s.Keeps t [] exceptEvents)) ∧
    Does (.delivered path)
      (fun s => taken path s ∧ warm s ∧ s.df Reg.BOOT_PHASE = 2 ∧ s.df Reg.MARK_VERIFIED = 0 ∧ s.manifestCheck = none)
      (fun s t => t.df Reg.MARK_VERIFIED = 1 ∧ t.df Reg.MARK_ACTIVE_SLOT = s.stagedNum 7 1 % 4 ∧
        t.df Reg.MARK_DEBUG_ALLOW = b2n (bit (s.stagedNum 0xA 1) 1) ∧ t.df Reg.BOOT_SEGMENTS = s.stagedNum 0xB 1 % 16 ∧
        t.boot.image = s.staged (s.stagedNum 0x14 4) (4096 * s.stagedNum 0xB 1) ∧ t.boot.digests = s.staged 0x60 (32 * s.stagedNum 0xB 1) ∧
        (∀ k < 4, bit (s.stagedNum 9 1) k = true → bit (t.df Reg.MARK_REVOKED) k = true) ∧
        t.df Reg.MARK_SVN = (if bit (s.stagedNum 0xA 1) 0 = true then s.stagedNum 8 1 else s.df Reg.MARK_SVN) ∧
        t.Detects 0x0C00 noUnit [s.stagedNum 7 1, s.stagedNum 8 1] ∧ t.mem = s.mem ∧ t.cores = s.cores) ∧
    (∀ k, Does (.delivered path)
      (fun s => taken path s ∧ warm s ∧ s.df Reg.BOOT_PHASE = 2 ∧ s.df Reg.MARK_VERIFIED = 0 ∧ s.manifestCheck = some k ∧ s.df Reg.BOOT_STATUS = 0)
      (fun s t => t.df Reg.BOOT_STATUS = checkStatus k ∧ t.Detects 0x0C01 noUnit [k] ∧ s.Keeps t (dieKeys [Reg.BOOT_STATUS]) exceptEvents)) ∧
    Does (.enumGo path) (fun s => taken path s ∧ warm s ∧ s.df Reg.BOOT_ENUM_WAIT = 0)
      (fun s t => s.Keeps t [] (fun s => { s with boot := { s.boot with goHeld := false } }) ∧ t.boot.goHeld = true) ∧
    Does (.enumGo path) (fun s => taken path s ∧ warm s ∧ s.df Reg.BOOT_ENUM_WAIT = 1 ∧ s.df Reg.PLACE_MASTER = 0)
      (fun s t => t.df Reg.BOOT_ENUM_WAIT = 0 ∧ t.df Reg.RING_ENUM_STATE = 2 ∧
        s.Keeps t (dieKeys [Reg.BOOT_ENUM_WAIT, Reg.RING_ENUM_STATE]) fun s => { s with boot := { s.boot with goHeld := false } })

/-- Enumeration: its start, hub replies, the token at a die and at the master, DONE, HELLO, and the timeouts (R15, R17, R281, R282, R284).
exec answers a next state for every state that meets the conditions: enumerationStart, hubQueryTimeout, hubReply, token, tokenReturnTimeout,
tokenWaitTimeout, enumDone, hello. -/
def Obligations.Enumeration : Prop :=
  let quiet (s t : State) (keys : List Nat) : Prop := s.Keeps t (keys ++ flitKeys) exceptLinks
  let failed (s t : State) (st code event : Nat) : Prop := t.df Reg.RING_ENUM_STATE = st ∧ t.df Reg.PLACE_VALID = 0 ∧ t.df Reg.BOOT_ENUM_WAIT = 0 ∧
    (s.df Reg.BOOT_STATUS = 0 → t.df Reg.BOOT_STATUS = code) ∧ t.Detects event noUnit [] ∧
    quiet s t (dieKeys [Reg.RING_ENUM_STATE, Reg.PLACE_VALID, Reg.BOOT_ENUM_WAIT, Reg.BOOT_STATUS])
  let enum (sub : Nat) (p : Packet) : Packet := asSub 5 sub (asType 7 p)
  let tok (p : Packet) (sub : Nat) : Token := Token.ofPayload (enum sub p).payload
  let asked (s : State) (port : Nat) (p : Packet) : Prop :=
    s.frozen = false ∧ s.portActive port = true ∧ port ∈ s.ring.queries ∧ s.hears port (enum 4 p)
  let starts (s : State) : Prop := s.frozen = false ∧ s.df Reg.BOOT_PHASE = 5 ∧ s.trained = true ∧ s.ring.placed = true ∧ s.df Reg.RING_ENUM_STATE = 0
  Does .enumerationStart (fun s => starts s ∧ (s.df Reg.PLACE_MASTER ≠ 1 ∨ s.df Reg.PLACE_POS_STRAP = 0) ∧ s.boot.goHeld = false)
    (fun s t => t.df Reg.RING_ENUM_STATE = 1 ∧ t.df Reg.BOOT_ENUM_WAIT = 1 ∧
      (∀ p, 4 ≤ p → p < 8 → s.portActive p = true →
        t.OutEnum p 3 (toBytes 2 (s.df Reg.PLACE_PACKAGE_ID) ++ toBytes 1 s.dieId ++ List.replicate 29 0#8)) ∧
      quiet s t (dieKeys [Reg.RING_ENUM_STATE, Reg.BOOT_ENUM_WAIT])) ∧
  Does .enumerationStart (fun s => starts s ∧ s.df Reg.PLACE_MASTER = 1 ∧ s.df Reg.PLACE_POS_STRAP ≠ 0) (fun s t => failed s t 4 9 0x0804) ∧
  (∀ port, 4 ≤ port → port < 8 →
    Does (.hubQueryTimeout port) (fun s => s.frozen = false ∧ port ∈ s.ring.queries)
      (fun s t => t.role port = 0 ∧ t.peerOf port = 0 ∧ (∀ q < 8, q ≠ port → t.role q = s.role q ∧ t.peerOf q = s.peerOf q) ∧
        t.ring = { s.ring with queries := s.ring.queries.filter (· ≠ port) } ∧
        s.Keeps t (dieKeys [Reg.PLACE_ROLE, Reg.PLACE_PEER]) fun s => { s with ring := Ring.init, detected := [] }) ∧
    Does (.hubQueryTimeout port) (fun s => s.frozen = false ∧ port ∉ s.ring.queries) (fun s t => t = s) ∧
    ∀ p, let id := fld (ofBytes (enum 4 p).payload) 23 16
      Does (.hubReply port p)
        (fun s => asked s port p ∧ 8 ≤ id ∧ id < 16 ∧ enumPkg (enum 4 p) = s.df Reg.PLACE_PACKAGE_ID ∧
          ∀ x ∈ s.ring.reported, x.1 ≠ port → x.2 ≠ id)
        (fun s t => t.role port = 3 ∧ t.peerOf port = id ∧ t.hubOf (s.df Reg.PLACE_POS_STRAP) port = id ∧
          t.ring.reported = s.ring.reported ++ [(port, id)] ∧ port ∉ t.ring.queries ∧
          (∀ q < 8, q ≠ port → t.role q = s.role q ∧ t.peerOf q = s.peerOf q) ∧ quiet s t (dieKeys [Reg.PLACE_ROLE, Reg.PLACE_PEER])) ∧
      (∀ q, 4 ≤ q → q < 8 → q ≠ port → Does (.hubReply port p)
        (fun s => asked s port p ∧ 8 ≤ id ∧ id < 16 ∧ enumPkg (enum 4 p) = s.df Reg.PLACE_PACKAGE_ID ∧ s.ring.reported = [(q, id)] ∧
          s.portActive q = true)
        (fun _ t => (∀ x ∈ [port, q], t.role x = 0 ∧ t.rd Reg.LINK_STATE x 0 = 6 ∧ t.domainOn (64 + x) = false ∧ t.Detects 0x0801 x [6]) ∧
          t.Detects 0x0003 (min port q) [max port q, id])) ∧
      Does (.hubReply port p)
        (fun s => s.frozen = false ∧ s.portActive port = true ∧ port ∉ s.ring.queries ∧ s.hears port (enum 4 p))
        (fun s t => t = s.take port (enum 4 p)) ∧
      Does (.hubReply port p)
        (fun s => asked s port p ∧
          (id < 8 ∨ 16 ≤ id ∨ enumPkg (enum 4 p) ≠ s.df Reg.PLACE_PACKAGE_ID))
        (fun s t => t.role port = 0 ∧ t.peerOf port = 0 ∧ quiet s t (dieKeys [Reg.PLACE_ROLE, Reg.PLACE_PEER]))) ∧
  (∀ port p, port < 4 →
    Does (.token port p)
      (fun s => s.frozen = false ∧ s.hears port (enum 0 p) ∧ s.df Reg.PLACE_MASTER = 0 ∧
        (s.df Reg.RING_ENUM_STATE = 1 ∨ s.df Reg.RING_ENUM_STATE = 2 ∨ s.df Reg.RING_ENUM_STATE = 5) ∧
        (tok p 0).pkg = s.df Reg.PLACE_PACKAGE_ID ∧ (tok p 0).next = s.df Reg.PLACE_POS_STRAP ∧ (tok p 0).next < 8 ∧ s.portActive 0 = true)
      (fun s t => t.df Reg.PLACE_DIE_ID = (tok p 0).next ∧ t.df Reg.PLACE_VALID = 1 ∧ t.ring.seen = true ∧
        t.OutEnum 0 0 (Token.payload { s.enter (tok p 0).next (tok p 0) with next := (tok p 0).next + 1 }) ∧
        quiet s t (dieKeys [Reg.PLACE_DIE_ID, Reg.PLACE_VALID])) ∧
    Does (.token port p)
      (fun s => s.frozen = false ∧ s.hears port (enum 0 p) ∧ s.df Reg.PLACE_MASTER = 0 ∧
        (s.df Reg.RING_ENUM_STATE = 1 ∨ s.df Reg.RING_ENUM_STATE = 2) ∧ (tok p 0).next ≠ s.df Reg.PLACE_POS_STRAP)
      (fun s t => failed s t 5 8 0x0806 ∧ t.ring.seen = true) ∧
    Does (.token port p)
      (fun s => s.frozen = false ∧ s.hears port (enum 0 p) ∧ s.df Reg.PLACE_MASTER = 1 ∧ s.df Reg.RING_ENUM_STATE = 2 ∧
        s.ownToken port (tok p 0) = true ∧ (s.portActive 0 = true ∨ s.portActive 1 = true))
      (fun s t => t.df Reg.PLACE_DIE_ID = 0 ∧ t.df Reg.PLACE_VALID = 1 ∧ t.df Reg.RING_ENUM_STATE = 3 ∧ t.ring.go = true ∧
        t.df Reg.PLACE_RING_SIZE = ((tok p 0).next - if port = 3 then 1 else 0) % 16 ∧ t.mem = s.mem ∧ t.cores = s.cores) ∧
    Does (.token port p)
      (fun s => s.frozen = false ∧ s.hears port (enum 0 p) ∧ s.df Reg.PLACE_MASTER = 1 ∧ s.df Reg.RING_ENUM_STATE ≠ 3 ∧
        s.ownToken port (tok p 0) = false)
      (fun s t => failed s t 4 10 0x0805) ∧
    Does (.enumDone port p)
      (fun s => s.frozen = false ∧ s.hears port (enum 1 p) ∧ s.df Reg.PLACE_MASTER = 0 ∧ s.df Reg.PLACE_VALID = 1 ∧ s.df Reg.RING_ENUM_STATE = 2)
      (fun s t => t.df Reg.PLACE_RING_SIZE = (tok p 1).n % 16 ∧ t.df Reg.RING_EXCL = (tok p 1).excl % 256 ∧
        t.df Reg.RING_LINKS = (tok p 1).links % 2 ^ 16 ∧ t.df Reg.RING_ENUM_STATE = 3 ∧ t.df Reg.BOOT_ENUM_WAIT = 0 ∧
        t.ring.hubs = (tok p 1).hubMap ∧ t.ring.downs = [] ∧ t.OutEnum s.onward 1 (tok p 1).payload ∧ t.mem = s.mem ∧ t.cores = s.cores)) ∧
  (∀ port p, port = 2 ∨ port = 3 →
    let sender := fld (ofBytes (enum 2 p).payload) 23 16
    Does (.hello port p)
      (fun s => s.frozen = false ∧ s.hears port (enum 2 p) ∧ s.portActive port = true ∧ s.df Reg.RING_ENUM_STATE = 3 ∧
        sender = ringPeer (max 1 s.ringSize) s.dieId port)
      (fun s t => t = s.take port (enum 2 p)) ∧
    Does (.hello port p)
      (fun s => s.frozen = false ∧ s.hears port (enum 2 p) ∧ s.portActive port = true ∧ s.df Reg.RING_ENUM_STATE = 3 ∧
        sender ≠ ringPeer (max 1 s.ringSize) s.dieId port)
      (fun s t => s.WentDown t port 5 [] ∧ t.Detects 0x0808 port [])) ∧
  Does .tokenReturnTimeout
    (fun s => s.frozen = false ∧ s.df Reg.RING_ENUM_STATE = 2 ∧ s.df Reg.PLACE_MASTER = 1 ∧ s.ring.tokens < 4)
    (fun s t => t.ring.tokens = s.ring.tokens + 1 ∧ (∃ bs, t.OutEnum s.onward 0 bs) ∧ quiet s t []) ∧
  Does .tokenReturnTimeout
    (fun s => s.frozen = false ∧
      ((s.df Reg.RING_ENUM_STATE = 2 ∧ s.df Reg.PLACE_MASTER = 1 ∧ 4 ≤ s.ring.tokens) ∨
       ((s.df Reg.RING_ENUM_STATE = 2 ∨ s.df Reg.RING_ENUM_STATE = 5) ∧ s.df Reg.PLACE_MASTER = 0 ∧ s.ring.seen = true)))
    (fun s t => failed s t 4 7 0x0807) ∧
  Does .tokenWaitTimeout
    (fun s => s.frozen = false ∧ s.df Reg.RING_ENUM_STATE = 2 ∧ s.df Reg.PLACE_MASTER = 0 ∧ s.ring.seen = false)
    (fun s t => failed s t 4 7 0x0807)

/-- Tick alignment: the edges, the start by command, and ALIGN (R285–R287, R405).
exec answers a next state for every state that meets the conditions: syncTickEdge, goAlign, align. -/
def Obligations.TickAlignment : Prop :=
  let al (p : Packet) : Packet := asSub 1 0 (asType 6 p)
  (∀ refs,
    Does (.syncTickEdge refs) (fun s => s.frozen = true) (fun s t => t = { s with ring := { s.ring with refs := s.ring.refs + refs } }) ∧
    (∀ v, v < 2 ^ 64 → Does (.syncTickEdge refs) (fun s => s.frozen = false ∧ s.ring.align = some v ∧ s.ring.go = false)
      (fun s t => t.df Reg.CTRL_TIMESTAMP = v ∧ t.df Reg.RING_ALIGNED = 1 ∧ t.df Reg.RING_LAG = 0 ∧ t.df Reg.RING_EDGES = 0 ∧
        t.ring = { s.ring with align := none, base := t.lin, refs := 0 } ∧
        s.Keeps t (dieKeys [Reg.CTRL_TIMESTAMP, Reg.RING_ALIGNED, Reg.RING_LAG, Reg.RING_EDGES])
          fun s => { s with ring := Ring.init, task := Task.init, sync := Sync.init, net := Net.init })) ∧
    Does (.syncTickEdge refs)
      (fun s => s.frozen = false ∧ s.ring.align = none ∧ s.ring.go = false ∧ s.df Reg.RING_ALIGNED = 1)
      (fun s t => t.df Reg.RING_LAG = (refCycles (s.ring.refs + refs) - (s.lin - s.ring.base)) % 2 ^ 32 ∧ s.Counts t Reg.RING_EDGES 0 0 1 ∧
        t.ring = { s.ring with refs := s.ring.refs + refs } ∧
        s.Keeps t (dieKeys [Reg.RING_LAG, Reg.RING_EDGES]) fun s => { s with ring := Ring.init }) ∧
    Does (.syncTickEdge refs)
      (fun s => s.frozen = false ∧ s.ring.align = none ∧ s.ring.go = true ∧ s.df Reg.PLACE_MASTER = 1 ∧ s.df Reg.RING_ALIGNED ≠ 1)
      (fun s t =>
        let v := s.stampIn (refCycles refs)
        t.ring = { s.ring with go := false, align := some v, aligns := [v] } ∧
        (∀ p < 2, s.portActive p = true → ∃ x, t.Out p x ∧ pType x = 6 ∧ pSub x = 0 ∧ pVl x = 2 ∧ pAddr x = v % 2 ^ 64) ∧
        s.Keeps t flitKeys exceptLinks)) ∧
  (∀ path,
    Does (.goAlign path) (fun s => s.Writable path Reg.RING_ALIGN_GO 0 0 ∧ s.df Reg.PLACE_MASTER = 1 ∧ s.taskRuns = false)
      (fun s t => t.ring = { s.ring with go := true } ∧ s.Keeps t [] fun s => { s with ring := Ring.init }) ∧
    Does (.goAlign path) (fun s => s.Writable path Reg.RING_ALIGN_GO 0 0 ∧ (s.df Reg.PLACE_MASTER ≠ 1 ∨ s.taskRuns = true))
      (fun s t => s.Refuses t false 0 7 ∧ s.Keeps t [(Reg.refused false 7).key 0 0] keepState)) ∧
  (∀ port p, port < 4 →
    Does (.align port p)
      (fun s => s.frozen = false ∧ s.hears port (al p) ∧ s.taskRuns = false ∧ pAddr (al p) ∉ s.ring.aligns)
      (fun s t => t.ring = { s.ring with aligns := [pAddr (al p)], align := some (pAddr (al p)) } ∧
        (∀ q < 4, q ≠ port → s.portActive q = true → t.Out q (al p)) ∧ s.Keeps t flitKeys exceptLinks) ∧
    Does (.align port p)
      (fun s => s.frozen = false ∧ s.hears port (al p) ∧ s.taskRuns = true ∧ pAddr (al p) ∉ s.ring.aligns)
      (fun s t => t.df Reg.RING_ALIGNED = 0 ∧ t.ring = { s.ring with aligns := [pAddr (al p)] } ∧ s.Notes t 0x0809 noUnit [] ∧
        (∀ q < 4, q ≠ port → s.portActive q = true → t.Out q (al p)) ∧ s.Keeps t (flitKeys ++ dieKeys [Reg.RING_ALIGNED]) exceptLinks))

/-- Training of a port, its timeout, retraining, and a loss of frame (R264–R267).
exec answers a next state for every state that meets the conditions: trainingStateExit, trainingTimeout, retrain, lossOfFrame. -/
def Obligations.LinkTraining : Prop :=
  let dir (s : State) (port : Nat) (tx : Bool) : Nat := if tx then (s.port port).tx else (s.port port).rx
  let good (s : State) (port : Nat) (tx : Bool) (mask : Nat) : Nat :=
    (if tx then (s.port port).txSeen else (s.port port).rxSeen) &&& mask % 2 ^ 32
  let only (s t : State) (port : Nat) : Prop := (∀ q, q ≠ port → t.port q = s.port q) ∧
    s.Keeps t (linkKeys port) fun s => { s with ports := [], detected := [] }
  (∀ port tx mask us, port < 8 →
    (∀ k, 1 ≤ k → k < 4 → Does (.trainingStateExit port tx mask us)
      (fun s => s.frozen = false ∧ s.taskRuns = false ∧ dir s port tx = k ∧ (k = 1 → mask % 2 ^ 32 ≠ 0))
      (fun s t => dir t port tx = k + 1 ∧ dir t port (!tx) = dir s port (!tx) ∧ t.rd Reg.LINK_STATE port 0 = (t.port port).shown % 8 ∧
        (k = 1 → (if tx then (t.port port).txSeen else (t.port port).rxSeen) = mask % 2 ^ 32) ∧ t.detected = s.detected ∧ only s t port)) ∧
    Does (.trainingStateExit port tx mask us) (fun s => s.frozen = false ∧ s.taskRuns = true) (fun s t => t = s) ∧
    Does (.trainingStateExit port tx mask us)
      (fun s => s.frozen = false ∧ s.taskRuns = false ∧ dir s port tx = 0 ∧ s.domainOn (64 + port) = true)
      (fun s t => dir t port tx = 1 ∧ only s t port) ∧
    Does (.trainingStateExit port tx mask us)
      (fun s => s.frozen = false ∧ s.taskRuns = false ∧ dir s port tx = 4 ∧ 8 ≤ lanes (good s port tx mask))
      (fun s t => dir t port tx = 5 ∧ t.rd (if tx then Reg.LINK_TX_LANES else Reg.LINK_RX_LANES) port 0 = good s port tx mask ∧
        t.rd (if tx then Reg.LINK_TX_WIDTH else Reg.LINK_RX_WIDTH) port 0 = min 32 (lanes (good s port tx mask) / 8 * 8) ∧
        (lanes (good s port tx mask) < 32 → s.Notes t 0x0800 port [t.rd Reg.LINK_TX_LANES port 0, t.rd Reg.LINK_RX_LANES port 0]) ∧
        (32 ≤ lanes (good s port tx mask) → t.detected = s.detected) ∧ only s t port) ∧
    Does (.trainingStateExit port tx mask us)
      (fun s => s.frozen = false ∧ s.taskRuns = false ∧ dir s port tx = 4 ∧ lanes (good s port tx mask) < 8)
      (fun s t => s.WentDown t port 2 [])) ∧
  (∀ port, port < 8 →
    Does (.trainingTimeout port) (fun s => s.frozen = false ∧ ∃ tx, 1 ≤ dir s port tx ∧ dir s port tx ≤ 4) (fun s t => s.WentDown t port 1 []) ∧
    Does (.lossOfFrame port) (fun s => s.frozen = false ∧ s.portActive port = true) (fun s t => s.WentDown t port 3 []) ∧
    ∀ path,
      Does (.retrain path port) (fun s => s.Writable path Reg.LINK_RETRAIN port 0 ∧ s.taskRuns = false)
        (fun s t => t.port port = { Port.init with tx := 1, rx := 1 } ∧ t.rd Reg.LINK_STATE port 0 = 1 ∧ t.rd Reg.LINK_DOWN_CAUSE port 0 = 0 ∧
          t.rd Reg.LINK_FEC_CORR port 0 = 0 ∧ t.rd Reg.LINK_REPLAYS port 0 = 0 ∧ t.rd Reg.LINK_LOST port 0 = 0 ∧ t.domainOn (64 + port) = true ∧
          (∀ q, q ≠ port → t.port q = s.port q) ∧
          s.Keeps t (linkKeys port ++ dieKeys [Reg.DIR_DOM_ON_HI, Reg.DIR_DOM_CHANGES]) fun s => { s with ports := [], net := Net.init }) ∧
      Does (.retrain path port) (fun s => s.Writable path Reg.LINK_RETRAIN port 0 ∧ s.taskRuns = true)
        (fun s t => s.Refuses t false 0 (16 + port) ∧ s.Keeps t [(Reg.refused false (16 + port)).key 0 0] keepState))

/-- Frames: an accepted one, a NAK, and an uncorrectable one (R262, R263, R267).
exec answers a next state for every state that meets the conditions: frame. -/
def Obligations.Frames : Prop :=
  let idle (s : State) (port : Nat) : Prop := s.frozen = false ∧ s.portActive port = true ∧ ∀ x, (port, x) ∉ s.net.waiting
  let keys (port : Nat) : List Nat := linkKeys port
  let sum (l : List Nat) : Nat := l.foldl (· + ·) 0
  ∀ port (f : Frame), port < 8 →
    Does (.frame port f)
      (fun s => idle s port ∧ f.fseq % 4096 = (s.port port).expect ∧ (∀ e ∈ f.errors, e ≤ 4))
      (fun s t =>
        let x := s.port port
        t.port port = { x with expect := (x.expect + 1) % 4096, dropping := false, nakRun := 0, kept := ackFrames (f.ack % 4096) x.kept } ∧
        t.net.arrived = s.net.arrived ++ f.packets.map (fun q => (port, q)) ∧
        t.net.sent = s.net.sent ++ (if f.nak then (ackFrames (f.ack % 4096) x.kept).map (fun y => ⟨port, y.1, f.fseq % 4096, false, List.replicate 8 0, y.2⟩) else []) ∧
        s.Counts t Reg.LINK_FEC_CORR port 0 (sum f.errors) ∧ s.Counts t Reg.LINK_RX_FLITS port 0 (sum (f.packets.map flits)) ∧
        (f.nak = true → s.Counts t Reg.LINK_REPLAYS port 0 1) ∧
        (∀ vl cls, vl < 4 → cls < 2 → Sparse.get 0 t.net.portUsed (portKey port vl cls) =
          Sparse.get 0 s.net.portUsed (portKey port vl cls) - f.credits.getD (2 * vl + cls) 0 % 256) ∧
        s.Keeps t (keys port) fun s => { s with ports := [], net := Net.init }) ∧
    Does (.frame port f)
      (fun s => idle s port ∧ (f.fseq % 4096 = (s.port port).expect → ∃ e ∈ f.errors, 4 < e) ∧
        (f.fseq % 4096 ≠ (s.port port).expect → (s.port port).dropping = false) ∧
        ((s.port port).nakSeq = (s.port port).expect → (s.port port).nakRun < 7))
      (fun s t =>
        let x := s.port port
        t.port port = { x with dropping := true, nakSeq := x.expect, nakRun := if x.nakSeq = x.expect ∧ 0 < x.nakRun then x.nakRun + 1 else 1 } ∧
        s.Counts t Reg.LINK_FEC_UNCORR port 0 (f.errors.filter (4 < ·)).length ∧ t.net = s.net ∧
        s.Keeps t (keys port) fun s => { s with ports := [] }) ∧
    Does (.frame port f)
      (fun s => idle s port ∧ f.fseq % 4096 = (s.port port).expect ∧ (∃ e ∈ f.errors, 4 < e) ∧ (s.port port).nakSeq = (s.port port).expect ∧
        7 ≤ (s.port port).nakRun)
      (fun _ t => t.rd Reg.LINK_STATE port 0 = 6 ∧ t.rd Reg.LINK_DOWN_CAUSE port 0 = 4 ∧ t.port port = { Port.init with tx := 6, rx := 6 } ∧
        t.Detects 0x0801 port [4]) ∧
    Does (.frame port f)
      (fun s => idle s port ∧ f.fseq % 4096 ≠ (s.port port).expect ∧ (s.port port).dropping = true)
      (fun s t => s.Counts t Reg.LINK_FEC_UNCORR port 0 (f.errors.filter (4 < ·)).length ∧ s.Keeps t (keys port) keepState)

/-- The live graph, the routing tables, credits, and forwarding (R272, R274, R277, R278, R289).
exec answers a next state for every state that meets the conditions: linkDown, routeTableInstall, creditReturn, packetForward. -/
def Obligations.Routing : Prop :=
  let down (p : Packet) : Packet := asSub 5 5 (asType 7 p)
  let cls (s : State) (m : Nat) (p : Packet) : Packet := withClass p (s.hopClass m p)
  let leaves (s t : State) (port : Nat) (x : Packet) : Prop :=
    t.net.sent = s.net.sent ++ [(s.port port).frameOf port (s.port port).fseq x] ∧ (t.port port).fseq = ((s.port port).fseq + 1) % 4096
  (∀ port p, port < 4 →
    let w := ofBytes (down p).payload
    let i := 2 * (fld w 31 24 % 8) + fld w 31 24 / 8 % 2
    Does (.linkDown port p)
      (fun s => s.frozen = false ∧ s.hears port (down p) ∧ (down p).payload ∉ s.ring.downs)
      (fun s t => t.ring.downs = s.ring.downs ++ [(down p).payload] ∧ t.ring.stale = true ∧ s.Counts t Reg.RING_LINK_DOWNS 0 0 1 ∧
        (bit (fld w 39 32) 2 = false → bit (t.df Reg.RING_LINKS) i = false) ∧
        (bit (fld w 39 32) 2 = true → t.hubOf (fld w 23 16) (4 + fld w 39 32 % 4) = 0 ∧ t.df Reg.RING_LINKS = s.df Reg.RING_LINKS) ∧
        (∀ q < 4, q ≠ port → s.portActive q = true → t.OutEnum q 5 (down p).payload) ∧
        s.Keeps t (flitKeys ++ dieKeys [Reg.RING_LINKS, Reg.RING_LINK_DOWNS]) exceptLinks) ∧
    Does (.linkDown port p)
      (fun s => s.frozen = false ∧ s.hears port (down p) ∧ (down p).payload ∈ s.ring.downs)
      (fun s t => t = s.take port (down p))) ∧
  Does .routeTableInstall (fun s => s.frozen = false ∧ s.ring.stale = true)
    (fun s t => (∀ d < 8, fld (t.df Reg.RING_NEXT_HOP) (4 * d + 3) (4 * d) = s.hopEntry d) ∧
      (∀ j < 8, fld (t.df Reg.RING_HUB_HOP) (4 * j + 3) (4 * j) = s.hubEntry (8 + j)) ∧ t.ring = { s.ring with stale := false } ∧
      s.Keeps t (dieKeys [Reg.RING_NEXT_HOP, Reg.RING_HUB_HOP]) fun s => { s with ring := Ring.init }) ∧
  (∀ port c vl k n, port < 8 → vl < 4 → k < 2 →
    Does (.creditReturn port c vl k n) (fun s => s.frozen = false ∧ ∀ x, (port, x) ∉ s.net.waiting)
      (fun s t => Sparse.get 0 t.net.portUsed (portKey port vl k) = Sparse.get 0 s.net.portUsed (portKey port vl k) - n ∧
        (∀ x, x ≠ portKey port vl k → Sparse.get 0 t.net.portUsed x = Sparse.get 0 s.net.portUsed x) ∧
        { t.net with portUsed := [] } = { s.net with portUsed := [] } ∧ s.Keeps t [] fun s => { s with net := Net.init }) ∧
    ∀ x, pVl x = vl → pClass x = k →
      Does (.creditReturn port c vl k n)
        (fun s => s.frozen = false ∧ s.net.waiting = [(port, x)] ∧
          Sparse.get 0 s.net.portUsed (portKey port vl k) - n + flits x ≤ portCapacity vl)
        (fun s t => t.net.waiting = [] ∧ leaves s t port x ∧ s.Counts t Reg.LINK_TX_FLITS port 0 (flits x) ∧
          s.Keeps t flitKeys fun s => { s with net := Net.init, ports := [] })) ∧
  (∀ c vl k n, vl < 4 →
    Does (.creditReturn 8 c vl k n) (fun s => s.clocksRun = true ∧ (s.core c).outQ = [] ∧ s.heldFor c .credit = false)
      (fun s t => Sparse.get 0 t.net.meshUsed (4 * c + vl) = Sparse.get 0 s.net.meshUsed (4 * c + vl) - n ∧
        (∀ x, x ≠ 4 * c + vl → Sparse.get 0 t.net.meshUsed x = Sparse.get 0 s.net.meshUsed x) ∧ { t.net with meshUsed := [] } = { s.net with meshUsed := [] } ∧
        s.Keeps t [] fun s => { s with net := Net.init }) ∧
    ∀ x, pVl x = vl →
      Does (.creditReturn 8 c vl k n)
        (fun s => s.clocksRun = true ∧ (s.core c).outQ = [x] ∧ s.heldFor c .credit = true ∧ (s.core c).seq.endEntry = none ∧
          (s.core c).moveIn = [] ∧ Sparse.get 0 s.net.meshUsed (4 * c + vl) - n < 8)
        (fun s t => (t.core c).outQ = [] ∧ t.net.mesh = s.net.mesh ++ [x] ∧ t.run c = 1 ∧ ∀ d, d ≠ c → t.core d = s.core d)) ∧
  (∀ port p m, pType p ≠ 6 → pType p ≠ 7 →
    Does (.packetForward port p)
      (fun s => s.frozen = false ∧ s.goesOn port p = true ∧ s.hop port p = .port m ∧ s.portActive m = true ∧ flits p ≤ 32 ∧
        s.portFree m (cls s m p) = true ∧ ∀ x, (m, x) ∉ s.net.waiting)
      (fun s t => leaves (s.take port p) t m (cls s m p) ∧ t.net.waiting = s.net.waiting ∧
        t.net.arrived = (s.take port p).net.arrived ∧ t.net.mesh = (s.take port p).net.mesh ∧
        s.Keeps t flitKeys fun s => { s with net := Net.init, ports := [] }) ∧
    Does (.packetForward port p) (fun s => s.frozen = false ∧ s.goesOn port p = true ∧ s.hop port p = .none_ ∧ (pType p = 0 ∨ pType p = 1 ∨ pType p = 4))
      (fun s t => s.Counts t Reg.RING_UNROUTABLE 0 0 1 ∧ s.Notes t 0x0803 noUnit [] ∧
        (∃ x, t.net.mesh = (s.take port p).net.mesh ++ [x] ∧ pType x = 5 ∧ pSub x = 1 ∧ pTag x = pTag p ∧ pAddr x % 256 = 7) ∧
        s.Keeps t (dieKeys [Reg.RING_UNROUTABLE]) fun s => { s with net := Net.init, ports := [], detected := [] }))

/-- WRITE, WRITE.S, READ_REQ: memory accesses are queued, closed windows and locked beds answer a NACK, registers answer at once
(R20, R232, R246, R272, R273, R419, R422).
exec answers a next state for every state that meets the conditions: pktWrite, pktWriteS, pktReadReq. -/
def Obligations.MemoryPackets : Prop :=
  ∀ port p,
    (let q := asType 0 p;
      let a := pAddr q
      let plain (s : State) : Prop := s.Gets port q ∧ pWin q = false ∧ s.accessStatus a (pLen q) = 0
      Does (.pktWrite port p)
        (fun s => plain s ∧ (placeOf a = .yard ∨ ∃ c o, placeOf a = .bed c o ∧ s.running c = false))
        (fun s t => (s.take port q).Queues t (.packet q) a (pLen q) (some q.payload) ∧ (s.take port q).Keeps t [] exceptNet) ∧
      Does (.pktWrite port p) (fun s => plain s ∧ ∃ c o, placeOf a = .bed c o ∧ s.running c = true)
        (fun s t => (s.take port q).Answers t q 1 6 ∧ (s.take port q).Keeps t [] exceptNet) ∧
      Does (.pktWrite port p)
        (fun s => plain s ∧ ∃ c o, placeOf a = .sync c o ∧ (s.running c = true ∨ ∃ w ∈ accessWords o (pLen q), syncLoadable w = false))
        (fun s t => (s.take port q).Answers t q 1 3 ∧ (∀ c o, placeOf a = .sync c o → s.Notes t 0x0700 c []) ∧ (s.take port q).Keeps t [] exceptNetEvents) ∧
      Does (.pktWrite port p)
        (fun s => plain s ∧ pLen q = 8 ∧ ∃ c t, placeOf a = .sync c (8 * t) ∧ t < 256 ∧ s.running c = false ∧ Sparse.sorted (s.core c).ties)
        (fun s u => ∀ c t, placeOf a = .sync c (8 * t) → u.tie c t = ofBytes q.payload ∧ (∀ k, k ≠ t → u.tie c k = s.tie c k) ∧
          (∀ d, d ≠ c → u.core d = s.core d) ∧ { u.core c with ties := [] } = { s.core c with ties := [] } ∧
          (s.take port q).Keeps u [] fun s => { s with net := Net.init, cores := [] }) ∧
      Does (.pktWrite port p) (fun s => s.Gets port q ∧ pWin q = false ∧ s.accessStatus a (pLen q) = 1)
        (fun s t => State.Answers { s.take port q with net := { (s.take port q).net with rejections := s.net.rejections + 1 } } t q 1 1 ∧
          s.Notes t 0x0001 noUnit [] ∧ (s.take port q).Keeps t [] exceptNetEvents)) ∧
    (let q := asType 1 p;
      let c := pDnode q
      let w := pWindow q
      let alive (s : State) : Prop := s.Gets port q ∧ s.resetting c = false ∧ s.coreAlive c = true ∧ Sparse.sorted (s.core c).windows
      let counted (s t : State) : Prop := (∀ v i, i < 8 → (v, i) ≠ (w, 2) → t.winWord c v i = s.winWord c v i) ∧ (∀ d, d ≠ c → t.core d = s.core d) ∧
        { t.core c with windows := [] } = { s.core c with windows := [] }
      Does (.pktWriteS port p)
        (fun s => alive s ∧ s.windowOpen c w = true ∧ pOffset q + pLen q ≤ s.winExtent c w)
        (fun s t => (s.take port q).Queues t (.window c w q) (windowBase c + s.winBase c w + pOffset q) (pLen q) (some q.payload) ∧
          fld (t.winWord c w 2) 31 0 = min (fld (s.winWord c w 2) 31 0 + 1) (2 ^ 32 - 1) ∧ counted s t ∧
          (s.take port q).Keeps t [] fun s => { s with net := Net.init, cores := [] }) ∧
      Does (.pktWriteS port p)
        (fun s => alive s ∧ s.windowOpen c w = true ∧ s.winExtent c w < pOffset q + pLen q)
        (fun s t => (s.take port q).Answers t q 1 5 ∧ s.Notes t 0x0706 c [w, pOffset q, pLen q] ∧ (s.take port q).Keeps t [] exceptNetEvents) ∧
      Does (.pktWriteS port p)
        (fun s => alive s ∧ s.windowOpen c w = false ∧ bit (s.winWord c w 4) 30 = true ∧ s.traced c = false)
        (fun s t => (s.take port q).Answers t q 1 4 ∧ t.winLate c w = min (s.winLate c w + 1) (2 ^ 32 - 1) ∧ s.Counts t Reg.SYNC_LATE_WRITES c 0 1 ∧ counted s t ∧
          (s.take port q).Keeps t [Reg.SYNC_LATE_WRITES.key c 0] fun s => { s with net := Net.init, cores := [] }) ∧
      Does (.pktWriteS port p) (fun s => s.Gets port q ∧ s.resetting c = true)
        (fun s t => (s.take port q).Answers t q 1 8 ∧ (s.take port q).Keeps t [] exceptNet)) ∧
    (let q := asType 2 p;
      let a := pAddr q
      Does (.pktReadReq port p) (fun s => s.Gets port q ∧ s.accessStatus a (pLen q) = 0 ∧ inMemory a = true)
        (fun s t => (s.take port q).Queues t (.packet q) a (pLen q) none ∧ (s.take port q).Keeps t [] exceptNet) ∧
      Does (.pktReadReq port p)
        (fun s => s.Gets port q ∧ s.accessStatus a (pLen q) = 0 ∧ inMemory a = false ∧ (∀ w ∈ accessWords a (pLen q), s.accBad w = false) ∧
          s.ledger.bad = [])
        (fun s t => (s.take port q).Responds t q 0 ((accessWords a (pLen q)).flatMap fun w => toBytes 8 (s.wordAt w)) ∧ (s.take port q).Keeps t [] exceptNet) ∧
      Does (.pktReadReq port p) (fun s => s.Gets port q ∧ s.accessStatus a (pLen q) = 8)
        (fun s t => (s.take port q).Responds t q 8 [] ∧ (s.take port q).Keeps t [] exceptNet))

/-- READ_RSP, COMPLETE and NACK at a local mover, TIE_ADD, the arch messages and SLIP (R53, R54, R234, R249, R253).
exec answers a next state for every state that meets the conditions: pktReadRsp, pktTieAdd, pktComplete, pktNack, archArrive, archRelease, slip. -/
def Obligations.ResponsesAndMessages : Prop :=
  let here (s : State) (q : Packet) (c : Nat) : Prop := pDkind q = 0 ∧ pDnode q = c ∧ s.resetting c = false ∧ s.coreAlive c = true
  let others (s t : State) (c : Nat) : Prop := (∀ d, d ≠ c → t.core d = s.core d) ∧ { t.core c with moves := [] } = { s.core c with moves := [] }
  (∀ port p c (j : MoveJob),
    (let q := asType 3 p;
      Does (.pktReadRsp port p)
        (fun s => s.Gets port q ∧ here s q c ∧ pSub q = 0 ∧ s.run c = 1 ∧ s.moverStopped c = false ∧ s.taggedJob c (pTag q) = some j ∧ s.job c j.serial = some j ∧
          j.left ≠ 0 ∧ j.dstHandle.kind = 1)
        (fun s t =>
          let r := (pAddr q - gLocal (s.moveSource c j)) / 512
          let a := windowBase c + (j.dstHandle.base + j.dstOff + 512 * r)
          (s.take port q).Queues t (.moveWrite c j.serial) a q.payload.length (some q.payload) ∧
          t.job c j.serial = some { j with left := j.left - 1, writes := j.writes + 1 } ∧
          s.Counts t Reg.MOVER_BYTES c 0 q.payload.length ∧ others s t c ∧
          (s.take port q).Keeps t [Reg.MOVER_BYTES.key c 0] fun s => { s with net := Net.init, cores := [] })) ∧
    (let q := asSub 3 0 (asType 5 p);
      Does (.pktComplete port p)
        (fun s => s.Gets port q ∧ here s q c ∧ s.moverStopped c = false ∧ s.taggedJob c (pTag q) = some j ∧ j.closing = true ∧
          (j.cte = true → s.coreAlive (s.home c j.ct).1 = true))
        (fun s t => (t.core c).moves = (s.core c).moves.filter (fun x => x.serial != j.serial) ∧
          t.cf Reg.MOVER_OUTSTANDING c = (t.core c).moves.length % 2 ^ Reg.MOVER_OUTSTANDING.width ∧
          (j.cte = false → t.sync = s.sync) ∧
          (j.cte = true → j.failed = false → (s.take port q).Sends t c (s.home c j.ct).1 (s.home c j.ct).2 false 1 s.lin) ∧
          t.net = (s.take port q).net ∧ others s t c)) ∧
    (let q := asSub 3 1 (asType 5 p);
      Does (.pktNack port p)
        (fun s => s.Gets port q ∧ here s q c ∧ s.taggedJob c (pTag q) = some j ∧ 128 ≤ pTag q ∧ s.cf Reg.SYNC_NACK_STOP c = 0)
        (fun s t => s.Counts t Reg.SYNC_NACKS_RECEIVED c 0 1 ∧ s.Notes t 0x0708 c [pAddr q % 256] ∧
          (∀ x ∈ (t.core c).moves, x.serial = j.serial → x.failed = true) ∧ others s t c ∧ t.net = (s.take port q).net ∧
          (s.take port q).Keeps t [Reg.SYNC_NACKS_RECEIVED.key c 0] fun s => { s with cores := [], detected := [] }) ∧
      Does (.pktNack port p)
        (fun s => s.Gets port q ∧ here s q c ∧ s.taggedJob c (pTag q) = some j ∧ pTag q < 128 ∧ s.cf Reg.SYNC_NACK_STOP c = 0 ∧
          s.moverStopped c = false ∧ j.closing = true ∧ j.cte = false)
        (fun s t => s.Counts t Reg.SYNC_NACKS_RECEIVED c 0 1 ∧ s.Notes t 0x0708 c [pAddr q % 256] ∧
          (t.core c).moves = (s.core c).moves.filter (fun x => x.serial != j.serial) ∧ others s t c ∧ t.net = (s.take port q).net ∧
          (s.take port q).Keeps t [Reg.SYNC_NACKS_RECEIVED.key c 0, Reg.MOVER_OUTSTANDING.key c 0]
            fun s => { s with cores := [], detected := [] }))) ∧
  (∀ port p,
    (let q := asType 4 p;
      Does (.pktTieAdd port p) (fun s => s.Gets port q ∧ s.resetting (pDnode q) = false ∧ s.coreAlive (pDnode q) = true)
        (fun s t => t = { s.take port q with sync := { s.sync with updates := s.sync.updates ++
          [⟨pDnode q, pSub q, false, pAddr q, pScore q, pTime q, pSource q, s.lin, some q⟩] } })) ∧
    (let q := asSub 3 2 (asType 5 p);
      let a := pAddr q
      Does (.archArrive port p)
        (fun s => s.Gets port q ∧ s.halted = false ∧ s.isMaster = true ∧ bit (s.rd Reg.ARCH_DIES 0 a) (pSdie q) = true ∧
          bit (s.phase a).dies (pSdie q) = false ∧ (s.phase a).root = false)
        (fun s t => t.phase a = { s.phase a with dies := (s.phase a).dies + 2 ^ pSdie q, last := max (s.phase a).last (s.lin + 2) } ∧ (∀ b, b ≠ a → t.phase b = s.phase b) ∧
          t.net = (s.take port q).net ∧ (s.take port q).Keeps t [] fun s => { s with sync := { s.sync with arches := [] } })) ∧
    (let q := asSub 3 3 (asType 5 p);
      let a := pAddr q
      Does (.archRelease port p) (fun s => s.Gets port q ∧ s.halted = false ∧ s.isMaster = false ∧ s.cross a = true)
        (fun s t => t.phase a = { s.phase a with ready := some (s.lin + 3) } ∧ (∀ b, b ≠ a → t.phase b = s.phase b) ∧
          t.net = (s.take port q).net ∧ (s.take port q).Keeps t [] fun s => { s with sync := { s.sync with arches := [] } })) ∧
    (let q := asSub 1 1 (asType 6 p);
      let heard (s : State) : Prop := s.frozen = false ∧ port < 8 ∧ s.hears port q ∧ pAddr q ∉ s.slip.seen
      let relayed (s t : State) : Prop := (∀ k, k ∈ s.usedPorts → k ≠ port → t.Out k q) ∧ pAddr q ∈ t.slip.seen
      Does (.slip port p) (fun s => heard s ∧ s.taskRuns = false)
        (fun s t => relayed s t ∧ t.slip = { s.slip with seen := s.slip.seen ++ [pAddr q] } ∧
          s.Keeps t flitKeys fun s => { s with net := Net.init, ports := [], slip := Slip.init }) ∧
      Does (.slip port p) (fun s => heard s ∧ s.taskRuns = true ∧ s.tickCount < pAddr q)
        (fun s t => relayed s t ∧ t.slip = { s.slip with seen := s.slip.seen ++ [pAddr q], due := s.slip.due ++ [(pAddr q, true)] } ∧
          s.Keeps t flitKeys fun s => { s with net := Net.init, ports := [], slip := Slip.init }) ∧
      Does (.slip port p) (fun s => heard s ∧ s.taskRuns = true ∧ pAddr q ≤ s.tickCount)
        (fun s t => relayed s t ∧ t.Detects 0x0104 port [pAddr q] ∧ t.taskState = 7 ∧ t.df Reg.CMD_CAUSE = 4 ∧ ∀ c ∈ s.task.parts, t.run c = 3)))

/-- The course tick without a task and with one participant, a retirement, and an overrun (R38, R42–R46, R50–R53); a bundle that breaks R187, shown
with a NOP in each slot, and a core whose next bundle falls after a stop reached it (R51, R368). When the stop arrives is the model's
(notes/assumptions/47.md).
exec answers a next state for every state that meets the conditions: courseTick, demandFetch, runaheadFill, courseEndRetire, courseOverrun. -/
def Obligations.Courses : Prop :=
  let tick (s : State) : Nat := (s.tickCount + 1) % 2 ^ 40
  let lenOf (s : State) (c : Nat) : Nat := fld (ofBytes (s.bytesAt (windowBase c + 32 * s.cf Reg.SEQ_ENTRY c) 32)) 23 0
  let one (s : State) (c : Nat) : Prop := s.clocksRun = true ∧ s.Settled ∧ s.taskState = 2 ∧ s.task.parts = [c] ∧ s.task.first = false ∧
    s.task.waiting = false ∧ s.task.cancel = none ∧ s.task.suspend = none ∧ (s.core c).seq.inCourse = false ∧ (s.core c).moveIn = [] ∧ c < 1024 ∧
    s.slip.due = [] ∧ s.marks = [] ∧ s.inForce Reg.POWER_TOOTH_TICK ≠ 1 ∧ s.task.halts = []
  let opens (s : State) (c : Nat) (sl : Slot) (b : Bundle) : Prop := s.issuing c = true ∧ slotBorrowed b sl = false ∧
    ¬((s.core c).seq.bundle = b ∧ (s.core c).seq.lastSlot < slotCode sl)
  let late (s : State) (c : Nat) : Prop := s.clocksRun = true ∧ s.unretired = [c] ∧ s.taskRuns = true ∧ 2 ≤ s.taskState ∧
    s.slip.overAt ≠ some s.tickCount ∧ s.tooLong s.deadlineLin c = false
  Does .courseTick (fun s => s.clocksRun = true ∧ s.taskRuns = false ∧ s.task.halts = [])
    (fun s t => t.df Reg.CTRL_TIMESTAMP = tick s * 2 ^ 24 ∧ t.slip = { s.slip with due := [], overAt := none } ∧
      (∀ r ∈ [Reg.CTRL_PERIOD, Reg.CTRL_SLIP_ENABLE, Reg.CTRL_SLACK_RESERVE, Reg.CTRL_SLIP_LEAD, Reg.POWER_TOOTH_PATTERN, Reg.POWER_TOOTH_TICK,
        Reg.POWER_TOOTH_ARCH, Reg.POWER_TOOTH_ARM_LEVEL], t.inForce r = s.df r) ∧
      s.Keeps t (dieKeys [Reg.CTRL_TIMESTAMP]) fun s => { s with slip := Slip.init, force := [], task := Task.init, ring := Ring.init, sync := Sync.init }) ∧
  (∀ c,
    Does .courseTick (fun s => one s c ∧ lenOf s c ≠ 0 ∧ s.admits c 0 (lenOf s c) = true)
      (fun s t => t.df Reg.CTRL_TIMESTAMP = tick s * 2 ^ 24 ∧ s.Counts t Reg.CTRL_COURSE_NUMBER 0 0 1 ∧ t.run c = 1 ∧
        t.cf Reg.SEQ_DONE c = 0 ∧ t.df Reg.CTRL_SLIPPING = 0 ∧ (t.core c).curBank = [] ∧ (t.core c).seq.inCourse = true ∧ (t.core c).seq.len = lenOf s c ∧ (t.core c).seq.start = 16 ∧
        t.next c = 0 ∧ (t.core c).seq.nextCycle = 0 ∧ (t.core c).seq.held = 0 ∧ (t.core c).shadow = [] ∧ (t.core c).sreg = (s.core c).sreg ∧
        (∀ i < min (min 128 (lenOf s c)) ((bedSize - s.bundleAt c 0) / 32), Sparse.sorted (s.core c).bbuf → Sparse.get emptySlot (t.core c).bbuf i =
          (i, BitVec.ofNat 256 (ofBytes (s.bytesAt (windowBase c + s.bundleAt c i) 32)))) ∧
        t.mem = s.mem ∧ t.detected = s.detected ∧ ∀ d, d ≠ c → t.core d = s.core d) ∧
    Does .courseTick (fun s => one s c ∧ lenOf s c = 0)
      (fun s t => s.Counts t Reg.CTRL_COURSE_NUMBER 0 0 1 ∧ t.run c = 0 ∧ t.cf Reg.SEQ_DONE c = 1 ∧ t.cf Reg.SEQ_LAST_HOLD c = 0 ∧
        t.cf Reg.SEQ_LAST_SLACK c = wrapTo 24 ((s.deadline : Int) - 16) ∧ (t.core c).seq.inCourse = false ∧ t.mem = s.mem ∧
        t.detected = s.detected) ∧
    Does .courseTick (fun s => one s c ∧ lenOf s c ≠ 0 ∧ s.admits c 0 (lenOf s c) = false)
      (fun s t => t.Detects 0x0101 c [lenOf s c] ∧ t.run c = 3 ∧ t.taskState = 7 ∧ t.df Reg.CMD_CAUSE = 2 ∧
        t.df Reg.CTRL_COURSE_NUMBER = s.df Reg.CTRL_COURSE_NUMBER ∧ t.mem = s.mem) ∧
    Does (.demandFetch c)
      (fun s => s.issuing c = true ∧ (s.core c).seq.endEntry = none ∧
        (Sparse.get emptySlot (s.core c).bbuf ((s.core c).seq.nextIndex % 128)).1 ≠ (s.core c).seq.nextIndex)
      (fun s t => t.heldFor c .fetch = true ∧ s.Counts t Reg.ISSUE_DEMAND c 0 1 ∧
        (let a := windowBase c + s.bundleAt c (s.core c).seq.nextIndex;
          s.Queues t (.fetch c (s.core c).seq.nextIndex) a 32 none) ∧
        (∀ d, d ≠ c → t.core d = s.core d) ∧ { t.core c with seq := Sequencer.init } = { s.core c with seq := Sequencer.init } ∧
        s.Keeps t [Reg.ISSUE_DEMAND.key c 0, Reg.SEQ_RUN.key c 0] fun s => { s with net := Net.init, cores := [] }) ∧
    (∀ index b depth (p : FillArgs) src, Does (.runaheadFill c index b depth)
      (fun s => s.issuing c = true ∧ (s.core c).seq.endEntry = none ∧ borrowsX b = false ∧
        (∃ x ∈ aheadPath s c 64 (s.aheadStart c), x.1.index = index ∧ x.1.depth = depth ∧ x.2 = b) ∧
        fillArgs s c (bX b) = some p ∧ p.source (s.handleNow c p.h) (fld (s.sregNext c p.so) 23 0) = some src ∧
        shadowUse s c p.buf + p.len ≤ 8192 ∧ s.bankWanted c src p.len = false ∧ s.marks = [])
      (fun s t => (t.core c).shadow = (s.core c).shadow ++ [⟨index, b, depth, src, s.bytesAt (windowBase c + src) p.len⟩] ∧
        { t.core c with shadow := [] } = { s.core c with shadow := [] } ∧ (∀ d, d ≠ c → t.core d = s.core d) ∧
        s.Keeps t [] fun s => { s with cores := [] })) ∧
    (∀ e, Does (.courseEndRetire c)
      (fun s => s.clocksRun = true ∧ (s.core c).seq.endEntry = some e ∧ s.heldFor c .drain = true ∧ s.drained c = true ∧ s.task.halts = [] ∧
        s.coreLin c + ((s.core c).seq.drainAt - (s.core c).seq.cycle) ≤ s.deadlineLin)
      (fun s t => t.run c = 0 ∧ t.cf Reg.SEQ_DONE c = 1 ∧ t.cf Reg.SEQ_ENTRY c = e % 2 ^ Reg.SEQ_ENTRY.width ∧ (t.core c).seq.inCourse = false ∧
        (t.core c).seq.endEntry = none ∧ (t.core c).sreg = (s.core c).sreg ∧ t.mem = s.mem ∧ ∀ d, d ≠ c → t.core d = s.core d))) ∧
  (∀ c sl b,
    let b' := coded sl 0 b
    let q (s : State) : Sequencer := (s.core c).seq
    (∀ slot reason, Does (.nop c sl b)
      (fun s => opens s c sl b' ∧ s.task.halts = [] ∧ (q s).endEntry = none ∧ (q s).nextCycle < (q s).len ∧ (s.core c).holds b' = true ∧
        (s.core c).parityBad = [] ∧ s.taskRuns = true ∧ bundleBreach b' = some (slot, reason))
      (fun s t => t.Detects 0x0105 c [(q s).nextCycle, (q s).nextIndex, slot] ∧ t.run c = 3 ∧ t.taskState = 7 ∧ t.df Reg.CMD_CAUSE = 2 ∧
        (s.cf Reg.ISSUE_FAULT c = 0 → t.cf Reg.ISSUE_FAULT c = 1 ∧ t.cf Reg.ISSUE_SLOT c = slot % 2 ^ Reg.ISSUE_SLOT.width ∧
          t.cf Reg.ISSUE_REASON c = reason % 2 ^ Reg.ISSUE_REASON.width) ∧
        (∀ d ∈ s.task.parts, d ≠ c → s.run d ≠ 3 → (d, t.coreLin c + 2 + transit c d) ∈ t.task.halts) ∧ (∀ d, d ≠ c → t.core d = s.core d ∧ t.run d = s.run d) ∧
        (t.core c).sreg = (s.core c).sreg ∧ (t.core c).lc = (s.core c).lc ∧ t.cf Reg.ISSUE_ISSUED c = s.cf Reg.ISSUE_ISSUED c ∧ t.mem = s.mem)) ∧
    Does (.nop c sl b)
      (fun s => opens s c sl b' ∧ s.stopReaches c (s.coreLin c + ((q s).nextCycle - (q s).cycle)) = true)
      (fun s t => t.run c = 3 ∧ t.task = { s.task with halts := s.task.halts.filter fun h => decide (h.1 ≠ c) } ∧ (∀ d, d ≠ c → t.run d = s.run d) ∧
        s.Keeps t [Reg.SEQ_RUN.key c 0] fun s => { s with task := Task.init })) ∧
  (∀ c, Does .courseOverrun (fun s => late s c ∧ s.inForce Reg.CTRL_SLIP_ENABLE = 0)
    (fun s t => t.df Reg.CTRL_OVERRUN_CORE = c ∧ t.df Reg.CTRL_OVERRUN_VALID = 1 ∧ t.Detects 0x0102 c [1, tick s, 0] ∧
      t.taskState = 7 ∧ t.df Reg.CMD_CAUSE = 3 ∧ (∀ d ∈ s.task.parts, t.run d = 3) ∧ t.mem = s.mem ∧ t.cores = s.cores) ∧
   Does .courseOverrun (fun s => late s c ∧ s.inForce Reg.CTRL_SLIP_ENABLE ≠ 0 ∧
      ∃ x, s.slip.overAt = some x ∧ (x + 1) % 2 ^ 40 = s.tickCount)
    (fun s t => t.df Reg.CTRL_OVERRUN_CORE = c ∧ t.df Reg.CTRL_OVERRUN_VALID = 1 ∧ t.Detects 0x0102 c [1, s.tickCount, 1] ∧
      t.taskState = 7 ∧ t.df Reg.CMD_CAUSE = 3 ∧ (∀ d ∈ s.task.parts, t.run d = 3) ∧ t.mem = s.mem ∧ t.cores = s.cores) ∧
   Does .courseOverrun (fun s => late s c ∧ s.inForce Reg.CTRL_SLIP_ENABLE ≠ 0 ∧ s.slip = Slip.init)
    (fun s t => s.Notes t 0x0103 c [] ∧ t.slip = ⟨[tick s], [(tick s, false)], some s.tickCount⟩ ∧ t.df Reg.CTRL_OVERRUN_CORE = c ∧
      (∀ p, p ∈ s.usedPorts → ∃ x, t.Out p x ∧ pType x = 6 ∧ pSub x = 1 ∧ pAddr x = tick s) ∧
      s.Keeps t (flitKeys ++ dieKeys [Reg.CTRL_OVERRUN_CORE, Reg.CTRL_OVERRUN_VALID, Reg.CTRL_TIMESTAMP])
        fun s => { s with net := Net.init, ports := [], slip := Slip.init, detected := [] }))

/-- Grants of bed banks and yard sub-banks (R204–R206, R210).
exec answers a next state for every state that meets the conditions: bedGrant, yardGrant. -/
def Obligations.MemoryGrants : Prop :=
  let oldest (s : State) (here : Nat → Bool) (x : Access) (q : Piece) : Prop := s.clocksRun = true ∧ s.marks = [] ∧
    s.net.accesses.find? (fun x => x.waits here) = some x ∧ x.pieces = [q] ∧ q.done = false ∧ x.bad = false
  let written (s t : State) (x : Access) (q : Piece) (p : Packet) : Prop :=
    (∀ d, x.data = some d → s.Stored t q.addr ((d.drop (q.addr - x.base)).take q.len)) ∧
    (pCreq p = true → State.Answers { s with net := { s.net with accesses := s.net.accesses.erase x } } t p 0 0) ∧
    (pCreq p = false → t.net = { s.net with accesses := s.net.accesses.erase x }) ∧
    s.Keeps t [] fun s => { s with net := Net.init, mem := [] }
  let read (s t : State) (x : Access) (q : Piece) (p : Packet) : Prop :=
    State.Responds { s with net := { s.net with accesses := s.net.accesses.erase x } } t p 0 (s.bytesAt q.addr q.len) ∧ s.Keeps t [] exceptNet
  ∀ (x : Access) (q : Piece) (p : Packet), x.owner = .packet p →
    (∀ c b lat,
      let none_ (s : State) : Prop := ∀ y ∈ s.net.accesses, y.scheduled = true → y.waits (inBank c b) = false
      Does (.bedGrant c b false lat) (fun s => oldest s (inBank c b) x q ∧ none_ s ∧ x.data ≠ none) (fun s t => written s t x q p) ∧
      Does (.bedGrant c b false lat) (fun s => oldest s (inBank c b) x q ∧ none_ s ∧ x.data = none) (fun s t => read s t x q p)) ∧
    (∀ u b,
      Does (.yardGrant u b) (fun s => oldest s (inSubBank u b) x q ∧ x.data ≠ none) (fun s t => written s t x q p) ∧
      Does (.yardGrant u b) (fun s => oldest s (inSubBank u b) x q ∧ x.data = none) (fun s t => read s t x q p))

/-- The scrubber and the repair windows (R219–R225, R229). The DATA words of REPAIR_DONE are the model's (notes/assumptions/31.md).
exec answers a next state for every state that meets the conditions: scrubRead, bedRepairWindow, yardRepairWindow. -/
def Obligations.ScrubAndRepair : Prop :=
  let clean (s : State) (mem u row : Nat) : Prop := s.clocksRun = true ∧ s.df Reg.YARD_SCRUB_EN ≠ 0 ∧ row ≠ lastRow mem ∧
    (∀ w ∈ rowWords mem u row, s.markAt w = 0) ∧ ((mem = 0 ∧ u < 1024 ∧ s.domainOn (groupOf u) = true) ∨ (mem = 1 ∧ u < 64))
  let counter (mem : Nat) : Row := if mem = 0 then Reg.YARD_BED_CORR else Reg.YARD_YARD_CORR
  let spare (s : State) (mem u row : Nat) : Prop := if mem = 0 then s.spareByte u (row / 64) < 64 else s.freeSpare u ≠ none
  let spent (s t : State) (mem u : Nat) : Prop := t.repairs = s.repairs ∧
    if mem = 0 then t.Detects 0x0605 u [] ∧ (t.site u).parts = false ∧ t.floorState u = s.floorState u
    else bit (t.df Reg.YARD_EXHAUSTED) u = true ∧ (bit (s.df Reg.YARD_EXHAUSTED) u = false → t.Detects 0x0606 u [])
  (∀ mem u row,
    Does (.scrubRead mem u row [] []) (fun s => clean s mem u row) (fun s t => t = s) ∧
    ∀ w, w ∈ rowWords mem u row →
      Does (.scrubRead mem u row [(w, 1)] []) (fun s => clean s mem u row)
        (fun s t => s.Counts t (counter mem) 0 0 1 ∧ (∀ x, t.markAt x = s.markAt x) ∧ t.mem = s.mem ∧
          s.Keeps t [(counter mem).key 0 0] fun s => { s with marks := [], scrubs := [] }) ∧
      Does (.scrubRead mem u row [(w, 1)] [w]) (fun s => clean s mem u row ∧ (mem, u, row) ∉ s.repairs ∧ spare s mem u row)
        (fun s t => s.Counts t (counter mem) 0 0 1 ∧ t.Detects 0x0602 u [mem, row] ∧ t.repairs = s.repairs ++ [(mem, u, row)] ∧
          (s.opLive 4 = true → t.opState 4 = s.opState 4) ∧ (s.repairs = [] → s.opLive 4 = false → t.opState 4 = 2) ∧ t.mem = s.mem ∧ t.cores = s.cores) ∧
      (row % 64 < 48 → row < 4096 → Does (.scrubRead mem u row [(w, 1)] [w]) (fun s => clean s mem u row ∧ ¬ spare s mem u row)
        (fun s t => t.Detects 0x0602 u [mem, row] ∧ spent s t mem u ∧ t.opState 4 = s.opState 4 ∧ t.mem = s.mem ∧ t.cores = s.cores)) ∧
      Does (.scrubRead mem u row [(w, 2)] []) (fun s => clean s mem u row ∧ s.taskRuns = false ∧ spare s mem u row)
        (fun s t => t.Detects 0x0601 u (if mem = 0 then bedUeData u w else yardUeData w) ∧ s.Stored t w (List.replicate 8 0#8) ∧
          (∀ x, t.markAt x = s.markAt x) ∧ (mem, u, row) ∈ t.repairs ∧ t.cores = s.cores)) ∧
  (∀ c row, row < 1024 →
    let bank := row / 64
    let ready (s : State) : Prop := s.clocksRun = true ∧ s.marks = [] ∧ s.repairing = true ∧ s.bedFree c = true ∧
      s.repairs.find? (fun x => decide (x.1 = 0) && decide (x.2.1 = c)) = some (0, c, row)
    Does (.bedRepairWindow c) (fun s => ready s ∧ s.spareByte c bank < 64)
      (fun s t => t.spareByte c bank = 64 + row % 64 ∧ t.Detects 0x0604 c [0, row, 0, 2] ∧ s.Counts t Reg.YARD_REPAIRED 0 0 1 ∧
        t.repairs = s.repairs.erase (0, c, row) ∧ t.mem = s.mem ∧ t.cores = s.cores) ∧
    Does (.bedRepairWindow c) (fun s => ready s ∧ 64 ≤ s.spareByte c bank)
      (fun s t => t.Detects 0x0605 c [] ∧ (t.site c).parts = false ∧ (t.site c).cause = 4 ∧ t.repairs = s.repairs.erase (0, c, row) ∧
        t.mem = s.mem ∧ t.cores = s.cores)) ∧
  (∀ u row, u < 64 → row < 4096 →
    let ready (s : State) : Prop := s.clocksRun = true ∧ s.marks = [] ∧ s.repairing = true ∧
      s.repairs.find? (fun x => decide (x.1 = 1) && decide (x.2.1 = u)) = some (1, u, row)
    (∀ e, Does (.yardRepairWindow u)
      (fun s => ready s ∧ s.freeSpare u = some e ∧ ∀ k < 512, s.rd Reg.YREP_VALID u k = 1 → s.rd Reg.YREP_ROW u k ≠ row)
      (fun s t => t.rd Reg.YREP_ROW u e = row ∧ t.rd Reg.YREP_VALID u e = 1 ∧ t.rd Reg.YREP_ORIGIN u e = 2 ∧
        t.rd Reg.YREP_USED u 0 = (s.rd Reg.YREP_USED u 0 + 1) % 2 ^ Reg.YREP_USED.width ∧ t.Detects 0x0604 u [1, row, e, 2] ∧
        t.repairs = s.repairs.erase (1, u, row) ∧ t.mem = s.mem ∧ t.cores = s.cores)) ∧
    Does (.yardRepairWindow u) (fun s => ready s ∧ s.freeSpare u = none)
      (fun s t => bit (t.df Reg.YARD_EXHAUSTED) u = true ∧ (bit (s.df Reg.YARD_EXHAUSTED) u = false → t.Detects 0x0606 u []) ∧ t.repairs = s.repairs.erase (1, u, row) ∧
        t.mem = s.mem ∧ t.cores = s.cores))

/-- The job epoch, forced arch closures, hand-sets, and the sync dump (R254, R256, R257, R292).
exec answers a next state for every state that meets the conditions: epochWrite, archForce, handsetTie, handsetOpen, handsetClose, dumpGo, dumpDone. -/
def Obligations.SyncRegisters : Prop :=
  let rd (s : State) (r : Row) (a : Nat) : Nat := s.rd r 0 a
  let forced (s : State) (path : Path) (a : Nat) : Prop := s.Writable path Reg.ARCH_FORCE 0 a ∧ s.clocksRun = true ∧ s.taskRuns = false ∧
    ∀ w ∈ s.sync.awaits, w.arch = a → ∀ d, w.deadline = some d → max (s.lin + 1) (s.phase a).last ≤ d
  let arrivedKeys := (List.range 1024).map fun c => Reg.SYNC_ARRIVED.key c 0
  let archFrame (s t : State) : Prop := s.Keeps t
    (dieKeys [Reg.ARCH_FORCED, Reg.DEBUG_TRACE_DROPPED, Reg.CTRL_TIMESTAMP] ++ copyKeys [Reg.ARCH_OPEN, Reg.ARCH_ARRIVED_COUNT, Reg.ARCH_CLOSURES] 0 8 ++ arrivedKeys)
    fun s => { s with sync := Sync.init, net := Net.init, dbg := Debug.init, detected := [] }
  let closed (s t : State) (a : Nat) : Prop := rd t Reg.ARCH_OPEN a = 0 ∧ rd t Reg.ARCH_ARRIVED_COUNT a = 0 ∧
    s.Counts t Reg.ARCH_CLOSURES 0 a 1 ∧ t.phase a = ArchPhase.init ∧ (∀ b, b ≠ a → t.phase b = s.phase b) ∧
    (∀ c, s.member a c = true → c < 1024 → t.arrived c a = false) ∧ (∀ c, s.member a c = false → t.cf Reg.SYNC_ARRIVED c = s.cf Reg.SYNC_ARRIVED c) ∧
    t.sync.awaits = s.sync.awaits.filter (fun x => decide (x.arch ≠ a)) ∧
    t.sync.results = s.sync.results ++ (s.sync.awaits.filter fun x => decide (x.arch = a)).map fun x => ⟨x.core, true, t.lin⟩
  let aimed (s : State) (path : Path) (c index : Nat) : Prop :=
    s.frozen = false ∧ path ≠ .other ∧ s.clocksRun = true ∧ c < 1024 ∧ index < 256 ∧ s.coreAlive c = true
  let setKeys (c : Nat) : List Nat := (Reg.refused false 6).key 0 0 :: Reg.SYNC_ADDS_APPLIED.key c 0 ::
    dieKeys [Reg.ARCH_CORE, Reg.ARCH_KIND, Reg.ARCH_INDEX, Reg.ARCH_DONE, Reg.DEBUG_TRACE_DROPPED, Reg.CTRL_TIMESTAMP]
  let handFrame (s t : State) (c : Nat) : Prop := t.df Reg.ARCH_DONE = 1 ∧ (∀ d, d ≠ c → t.core d = s.core d) ∧
    s.Keeps t (setKeys c) fun s => { s with cores := [], dbg := Debug.init, detected := [] }
  let windows (s t : State) (c w : Nat) : Prop := (∀ v i, i < 8 → v ≠ w → t.winWord c v i = s.winWord c v i) ∧
    { t.core c with windows := [] } = { s.core c with windows := [] }
  (∀ path v,
    Does (.epochWrite path v) (fun s => s.Writable path Reg.RING_CURRENT 0 0)
      (fun s t => t.df Reg.RING_CURRENT = v % 2 ^ 16 ∧ s.Notes t 0x080A noUnit [s.df Reg.RING_CURRENT, v % 2 ^ 16] ∧
        (∀ r ∈ [Reg.RING_STALE_EPOCH, Reg.RING_STALE_PKG, Reg.RING_STALE_DIE, Reg.RING_STALE_VALID], t.df r = 0) ∧
        t.net = { s.net with staleDies := [] } ∧
        s.Keeps t (dieKeys [Reg.RING_CURRENT, Reg.RING_STALE_EPOCH, Reg.RING_STALE_PKG, Reg.RING_STALE_DIE, Reg.RING_STALE_VALID]) exceptNetEvents)) ∧
  (∀ path a, a < 8 →
    Does (.archForce path a) (fun s => forced s path a ∧ s.cross a = false)
      (fun s t => s.Counts t Reg.ARCH_FORCED 0 0 1 ∧ s.Notes t 0x070D noUnit [a] ∧ closed s t a ∧ t.net = s.net ∧ archFrame s t) ∧
    Does (.archForce path a) (fun s => forced s path a ∧ s.cross a = true ∧ s.isMaster = true)
      (fun s t => s.Counts t Reg.ARCH_FORCED 0 0 1 ∧ s.Notes t 0x070D noUnit [a] ∧ closed s t a ∧
        (∀ d ∈ s.otherDies a, ∃ p ∈ t.net.mesh, pType p = 5 ∧ pSub p = 3 ∧ pDdie p = d ∧ pVl p = 2 ∧ pAddr p = a) ∧ archFrame s t) ∧
    Does (.archForce path a) (fun s => forced s path a ∧ s.cross a = true ∧ s.isMaster = false)
      (fun s t => s.Counts t Reg.ARCH_FORCED 0 0 1 ∧ s.Notes t 0x070D noUnit [a] ∧ t.phase a = { s.phase a with root := true, last := max (s.phase a).last t.lin } ∧
        (∃ p, t.net = { s.net with mesh := s.net.mesh ++ [p] } ∧ pType p = 5 ∧ pSub p = 2 ∧ pDdie p = 0 ∧ pVl p = 2 ∧ pAddr p = a) ∧
        (∀ b, b ≠ a → t.phase b = s.phase b) ∧ t.sync = { s.sync with arches := t.sync.arches } ∧ archFrame s t)) ∧
  (∀ path c index,
    Does (.handsetTie path c index)
      (fun s => aimed s path c index ∧ s.df Reg.ARCH_HANDSET_VALUE < 2 ^ 64 ∧ (∀ x ∈ s.sync.slots, ¬ (x.req.home = c ∧ x.req.tie = index)) ∧
        (∀ q ∈ s.sync.registering, q.home = c → s.lin + 1 < q.at_) ∧ ∀ u ∈ s.sync.updates, u.home = c → u.tie = index → s.lin + 1 < u.due)
      (fun s t => t.tie c index = s.df Reg.ARCH_HANDSET_VALUE ∧ (∀ k, k ≠ index → t.tie c k = s.tie c k) ∧
        s.Notes t 0x0710 c [0, index, s.tie c index, s.df Reg.ARCH_HANDSET_VALUE] ∧
        { t.core c with ties := [] } = { s.core c with ties := [] } ∧ handFrame s t c) ∧
    (let w := index % 32;
      Does (.handsetOpen path c index)
        (fun s => aimed s path c index ∧ s.windowOpen c w = false ∧ s.winOk c w = true ∧ s.winLate c w ≤ 1)
        (fun s t => t.windowOpen c w = true ∧ t.winWord c w 2 = 0 ∧ fld (t.winWord c w 3) 31 0 = 0 ∧ fld (t.winWord c w 4) 30 30 = 0 ∧
          t.winTie c w = s.winTie c w ∧ t.winBase c w = s.winBase c w ∧ t.winExtent c w = s.winExtent c w ∧
          s.Notes t 0x0710 c [1, w, 0, 1] ∧ windows s t c w ∧ handFrame s t c) ∧
      Does (.handsetOpen path c index) (fun s => aimed s path c index ∧ s.windowOpen c w = true)
        (fun s t => s.Notes t 0x0710 c [1, w, 1, 1] ∧ t.core c = s.core c ∧ handFrame s t c) ∧
      Does (.handsetOpen path c index)
        (fun s => aimed s path c index ∧ s.windowOpen c w = false ∧ s.winOk c w = false ∧ s.cf Reg.SYNC_FAULT c = 0)
        (fun s t => t.windowOpen c w = false ∧ t.cf Reg.SYNC_FAULT c = 5 ∧ t.Detects 0x0707 c [s.cyc c, w] ∧ t.run c = 3 ∧ t.core c = s.core c ∧
          t.Detects 0x0710 c [1, w, 0, 0]) ∧
      Does (.handsetClose path c index) (fun s => aimed s path c index)
        (fun s t => t.windowOpen c w = false ∧ (∀ i, 1 ≤ i → i < 8 → t.winWord c w i = s.winWord c w i) ∧
          s.Notes t 0x0710 c [2, w, b2n (s.windowOpen c w), 0] ∧ windows s t c w ∧ handFrame s t c)) ∧
    (∀ i ∈ [Instr.handsetTie path c index, .handsetOpen path c index, .handsetClose path c index],
      Does i (fun s => s.frozen = false ∧ path ≠ .other ∧ c < 1024 ∧ index < 256 ∧ s.coreAlive c = false)
        (fun s t => s.Refuses t false 0 6 ∧
          s.Keeps t ((Reg.refused false 6).key 0 0 :: dieKeys [Reg.ARCH_CORE, Reg.ARCH_KIND, Reg.ARCH_INDEX]) keepState))) ∧
  (∀ path base, base < 2 ^ 27 →
    Does (.dumpGo path base) (fun s => s.frozen = false ∧ path ≠ .other ∧ base % 4096 = 0 ∧ base + 0x600800 ≤ yardSize)
      (fun s t => t.df Reg.ARCH_DUMP_BUSY = 1 ∧ t.df Reg.ARCH_DUMP_BASE = base ∧
        s.Keeps t ((Reg.refused false 6).key 0 0 :: dieKeys [Reg.ARCH_DUMP_BUSY, Reg.ARCH_DUMP_BASE]) keepState) ∧
    Does (.dumpGo path base) (fun s => s.frozen = false ∧ path ≠ .other ∧ (base % 4096 ≠ 0 ∨ yardSize < base + 0x600800))
      (fun s t => t.df Reg.ARCH_DUMP_BUSY = s.df Reg.ARCH_DUMP_BUSY ∧ t.df Reg.ARCH_DUMP_BASE = base ∧ s.Refuses t false 0 6 ∧
        s.Keeps t ((Reg.refused false 6).key 0 0 :: dieKeys [Reg.ARCH_DUMP_BASE]) keepState)) ∧
  Does .dumpDone (fun s => s.clocksRun = true ∧ s.df Reg.ARCH_DUMP_BUSY = 1)
    (fun s t =>
      let b := s.df Reg.ARCH_DUMP_BASE
      t.df Reg.ARCH_DUMP_BUSY = 0 ∧
      (∀ c < 1024, s.coreAlive c = false → t.bytesAt (b + 6144 * c) 6144 = List.replicate 6144 0#8) ∧
      (∀ c < 1024, s.coreAlive c = true →
        (∀ k < 256, t.bytesAt (b + 6144 * c + 8 * k) 8 = toBytes 8 (s.tie c k)) ∧
        (∀ w < 32, ∀ i < 8, t.bytesAt (b + 6144 * c + 2048 + 64 * w + 8 * i) 8 = toBytes 8 (s.winWord c w i)) ∧
        (∀ k < 256, t.bytesAt (b + 6144 * c + 4096 + 4 * k) 4 = toBytes 4 (s.bindWord c k)) ∧
        (∀ i < 16, t.bytesAt (b + 6144 * c + 5120 + 16 * i) 16 = toBytes 8 (s.slotWords c i).1 ++ toBytes 8 (s.slotWords c i).2) ∧
        t.bytesAt (b + 6144 * c + 5376) 8 = toBytes 8 (s.cf Reg.SYNC_ARRIVED c) ∧
        t.bytesAt (b + 6144 * c + 5416) 8 = toBytes 8 s.now) ∧
      (∀ a < 8, t.bytesAt (b + 0x600000 + 256 * a) 8 = toBytes 8 (s.archWord a)) ∧
      (∀ x, x < b ∨ b + 0x600800 ≤ x → t.byteAt x = s.byteAt x) ∧
      s.Keeps t (dieKeys [Reg.ARCH_DUMP_BUSY]) fun s => { s with mem := [], marks := [], dbg := Debug.init })

/-- The limits of a tie: an add that would pass 2^64 − 1 leaves it there (R235), a decrement of more than its value is refused (R236).
exec answers a next state for every state that meets the conditions: tieUpdateDelivered. -/
def Obligations.TieLimits : Prop :=
  ∀ h k n,
    let us (s : State) : List TieUpdate := (takeUpdates (fun _ => true) h k n [] s.sync.updates).1
    let adds (s : State) : Nat := (((us s).filter fun u => !u.dec).map fun u => u.amount).foldl (· + ·) 0
    let live (s : State) : Prop := s.clocksRun = true ∧ s.coreAlive h = true ∧ us s ≠ [] ∧ s.TieCalm h k (((us s).map TieUpdate.due).foldl max 0)
    let noTake (s : State) : Prop := ∀ x ∈ s.sync.slots, x.req.home = h → x.req.tie = k → x.req.take = false
    let goesOn (s t : State) : Prop := t.task = s.task ∧ t.taskState = s.taskState ∧ (∀ d, t.run d = s.run d) ∧ t.mem = s.mem ∧
      (∀ d, d ≠ h → t.core d = s.core d) ∧ (∀ j, j ≠ k → t.tie h j = s.tie h j) ∧ { t.core h with ties := [] } = { s.core h with ties := [] } ∧
      s.RegsBut t (tieKeys h)
    Does (.tieUpdateDelivered h k n) (fun s => live s ∧ (∀ u ∈ us s, u.dec = false) ∧ 2 ^ 64 ≤ s.tie h k + adds s)
      (fun s t => (noTake s → t.tie h k = 2 ^ 64 - 1) ∧ s.Notes t 0x0701 h [k] ∧ s.Counts t Reg.SYNC_OVERFLOWS h 0 1 ∧ goesOn s t) ∧
    ∀ u, Does (.tieUpdateDelivered h k n)
      (fun s => live s ∧ (us s).filter (fun u => u.dec) = [u] ∧ s.tie h k + adds s < 2 ^ 64 ∧ s.tie h k + adds s < u.amount)
      (fun s t => (noTake s → t.tie h k = s.tie h k + adds s) ∧ s.Notes t 0x0702 h [k, s.tie h k + adds s, u.amount] ∧
        s.Counts t Reg.SYNC_UNDERFLOWS h 0 1 ∧ goesOn s t)

/-- Updates of a tie, waits at their home, deadlines, wakes, window signals, and the closure of an arch (R237–R242, R247, R248, R252).
exec answers a next state for every state that meets the conditions: tieUpdateDelivered, waitRegistration, waitTimeout, wake, windowSignal,
archClosure. -/
def Obligations.SyncEvents : Prop :=
  let sum (us : List TieUpdate) : Nat := (us.map fun u => u.amount).foldl (· + ·) 0
  let tieFrame (s t : State) (h k : Nat) : Prop := (∀ d, d ≠ h → t.core d = s.core d) ∧ (∀ j, j ≠ k → t.tie h j = s.tie h j) ∧
    { t.core h with ties := [] } = { s.core h with ties := [] } ∧ t.mem = s.mem ∧
    s.RegsBut t (tieKeys h)
  let ended (s t : State) (x : WaitSlot) (at_ : Nat) : Prop := (x.req.home, x.idx, at_) ∈ t.sync.freed ∧
    ∃ z, s.Plane t (fun y => { y with
        updates := t.sync.updates, registering := t.sync.registering, slots := y.slots.erase x, freed := t.sync.freed
        results := y.results ++ [⟨x.req.core, false, z⟩] }) ∧
      (x.req.home = x.req.core → z = at_) ∧ (x.req.home ≠ x.req.core → s.sync.links = [] → z = at_ - 1 + 2 + transit x.req.home x.req.core)
  let alone (s : State) (q : WaitReq) : Prop := (∀ u ∈ s.sync.updates, u.home ≠ q.home) ∧
    (s.sync.registering.filter fun r => decide (r.home = q.home)) = [q] ∧ ∀ x ∈ s.sync.slots, x.req.home = q.home → x.req.tie ≠ q.tie
  let stops (s : State) (c : Nat) : Prop := s.run c ≠ 3 ∧ s.task.halts = [] ∧ (s.taskRuns = true ∨ s.task.failed = none)
  let stopped (s t : State) (c fault : Nat) : Prop := t.run c = 3 ∧ (s.cf Reg.SYNC_FAULT c = 0 → t.cf Reg.SYNC_FAULT c = fault) ∧
    (s.taskRuns = true → t.taskState = 7 ∧ t.df Reg.CMD_CAUSE = 2) ∧ t.mem = s.mem ∧ t.cores = s.cores
  (∀ h k n,
    let us (s : State) : List TieUpdate := (takeUpdates (fun _ => true) h k n [] s.sync.updates).1
    let rest (s : State) : List TieUpdate := (takeUpdates (fun _ => true) h k n [] s.sync.updates).2
    let cyc (s : State) : Nat := ((us s).map TieUpdate.due).foldl max 0
    let here (s : State) : List WaitSlot := s.sync.slots.filter fun x => decide (x.req.home = h) && decide (x.req.tie = k)
    let live (s : State) : Prop := s.clocksRun = true ∧ s.coreAlive h = true ∧ us s ≠ [] ∧ s.TieCalm h k (cyc s)
    let adds (s : State) : Prop := live s ∧ (∀ u ∈ us s, u.dec = false) ∧ s.tie h k + sum (us s) < 2 ^ 64
    Does (.tieUpdateDelivered h k n) (fun s => adds s ∧ here s = [])
      (fun s t => t.tie h k = s.tie h k + sum (us s) ∧ t.sync = { s.sync with updates := rest s } ∧ s.Counts t Reg.SYNC_ADDS_APPLIED h 0 (us s).length ∧
        t.detected = s.detected ∧ tieFrame s t h k) ∧
    (∀ x, Does (.tieUpdateDelivered h k n) (fun s => adds s ∧ here s = [x] ∧ x.req.thr ≤ s.tie h k + sum (us s))
      (fun s t => t.tie h k = s.tie h k + sum (us s) - (if x.req.take then x.req.thr else 0) ∧
        ended s t x (max (cyc s) x.req.at_) ∧ t.sync.updates = rest s ∧ t.sync.registering = s.sync.registering ∧
        t.detected = s.detected ∧ tieFrame s t h k)) ∧
    (∀ x, Does (.tieUpdateDelivered h k n) (fun s => adds s ∧ here s = [x] ∧ s.tie h k + sum (us s) < x.req.thr)
      (fun s t => t.tie h k = s.tie h k + sum (us s) ∧ t.sync = { s.sync with updates := rest s } ∧ t.detected = s.detected ∧ tieFrame s t h k)) ∧
    (∀ u, Does (.tieUpdateDelivered h k n)
      (fun s => live s ∧ us s = [u] ∧ u.dec = true ∧ here s = [] ∧ s.tie h k < 2 ^ 64 ∧ u.amount ≤ s.tie h k)
      (fun s t => t.tie h k = s.tie h k - u.amount ∧ t.detected = s.detected ∧ tieFrame s t h k)) ∧
    (∀ u p, Does (.tieUpdateDelivered h k n) (fun s => s.clocksRun = true ∧ s.coreAlive h = false ∧ us s = [u] ∧ u.answer = some p ∧ pType p = 4)
      (fun s t => s.Notes t 0x0002 h [u.tie] ∧ t.sync = { s.sync with updates := rest s } ∧ State.Answers s t p 1 2 ∧
        s.Keeps t (dieKeys [Reg.CTRL_TIMESTAMP]) fun s => { s with sync := Sync.init, net := Net.init, detected := [] })) ∧
    (∀ u, Does (.tieUpdateDelivered h k n) (fun s => s.clocksRun = true ∧ s.coreAlive h = false ∧ us s = [u] ∧ u.answer = none)
      (fun s t => s.Notes t 0x0002 h [u.tie] ∧ t.sync = { s.sync with updates := rest s } ∧
        (∃ p, t.net = { s.net with mesh := s.net.mesh ++ [p] } ∧ pType p = 5 ∧ pSub p = 1 ∧ pVl p = 1 ∧ pDnode p = u.src % 1024 ∧ pDkind p = 0 ∧
          pAddr p = 2) ∧
        s.Keeps t (dieKeys [Reg.CTRL_TIMESTAMP]) fun s => { s with sync := Sync.init, net := Net.init, detected := [] }))) ∧
  (∀ c (q : WaitReq),
    let known (s : State) : Prop := s.clocksRun = true ∧ s.sync.registering.find? (fun q => decide (q.core = c)) = some q ∧ alone s q ∧
      ∀ d, q.deadline = some d → q.at_ < d
    (∀ i, Does (.waitRegistration c) (fun s => known s ∧ s.freeSlot q.home q.at_ = some i ∧ s.tie q.home q.tie < q.thr)
      (fun s t => t.sync = { s.sync with registering := s.sync.registering.erase q, slots := s.sync.slots ++ [⟨i, q⟩] } ∧
        s.Counts t Reg.SYNC_WAITS c 0 1 ∧ t.cores = s.cores ∧ t.mem = s.mem ∧ t.detected = s.detected)) ∧
    (∀ i, Does (.waitRegistration c) (fun s => known s ∧ s.freeSlot q.home q.at_ = some i ∧ q.thr ≤ s.tie q.home q.tie)
      (fun s t => ended s t ⟨i, q⟩ q.at_ ∧ t.sync.registering = s.sync.registering.erase q ∧ t.sync.updates = s.sync.updates ∧
        t.tie q.home q.tie = s.tie q.home q.tie - (if q.take then q.thr else 0) ∧ s.Counts t Reg.SYNC_WAITS c 0 1 ∧
        (∀ d, d ≠ q.home → t.core d = s.core d) ∧ t.mem = s.mem ∧ t.detected = s.detected)) ∧
    Does (.waitRegistration c) (fun s => known s ∧ s.freeSlot q.home q.at_ = none)
      (fun s t => t.sync = { s.sync with registering := s.sync.registering.erase q } ∧ t.Detects 0x070B c [s.cyc c, q.localTie] ∧ stopped s t c 4)) ∧
  (∀ c (r : WaitResult), Does (.wake c)
    (fun s => s.clocksRun = true ∧ s.sync.results.find? (fun r => decide (r.core = c)) = some r ∧ s.heldFor c .wait = true ∧
      (s.core c).seq.endEntry = none ∧ (s.core c).seq.extra = [] ∧ (s.core c).moveIn = [] ∧ s.allHeld c = false)
    (fun s t =>
      let n := r.at_ + 1 - s.coreLin c
      t.run c = 1 ∧ t.sync = { s.sync with results := s.sync.results.erase r } ∧ (t.core c).seq.cause = none ∧
      (t.core c).seq.held = (s.core c).seq.held + n + (if r.arch then s.wakeTooth c else 0) ∧
      (n ≠ 0 → s.Counts t Reg.SEQ_WAIT_HOLD c 0 n) ∧ (r.arch = true → s.wakeTooth c ≠ 0 → s.Counts t Reg.SEQ_POWER_HOLD c 0 (s.wakeTooth c)) ∧
      (∀ d, d ≠ c → t.core d = s.core d) ∧
      s.Keeps t ([Reg.SEQ_WAIT_HOLD, Reg.SEQ_POWER_HOLD, Reg.SEQ_RUN].map (·.key c 0) ++ dieKeys [Reg.CTRL_TIMESTAMP])
        fun s => { s with sync := Sync.init, cores := [] })) ∧
  (∀ c,
    (∀ x : WaitSlot, Does (.waitTimeout c)
      (fun s => s.clocksRun = true ∧ stops s c ∧ x.req.deadline.isSome = true ∧
        (s.sync.slots.map WaitSlot.req ++ s.sync.registering).find? (fun q => decide (q.core = c) && q.deadline.isSome) = some x.req ∧
        (∀ u ∈ s.sync.updates, u.home ≠ x.req.home) ∧ (∀ q ∈ s.sync.registering, q.home ≠ x.req.home) ∧
        (s.sync.slots.filter fun y => decide (y.req.home = x.req.home) && decide (y.req.tie = x.req.tie)) = [x] ∧ s.tie x.req.home x.req.tie < x.req.thr)
      (fun s t => s.Plane t (fun y => { y with slots := y.slots.erase x, freed := t.sync.freed }) ∧ stopped s t c 1 ∧
        t.Detects 0x0703 c [x.req.localTie, x.req.thr, s.tie x.req.home x.req.tie, s.cyc c])) ∧
    (∀ x : ArchWait, Does (.waitTimeout c)
      (fun s => s.clocksRun = true ∧ stops s c ∧
        (s.sync.slots.map WaitSlot.req ++ s.sync.registering).find? (fun q => decide (q.core = c) && q.deadline.isSome) = none ∧
        s.sync.awaits.find? (fun x => decide (x.core = c) && x.deadline.isSome) = some x)
      (fun s t => t.sync = { s.sync with awaits := s.sync.awaits.erase x } ∧ stopped s t c 1 ∧ t.Detects 0x0703 c [x.arch, s.cyc c]))) ∧
  (∀ c w p n, w < 32 →
    let found (s : State) : Prop := s.clocksRun = true ∧
      s.net.signals.find? (fun x => decide (x.1 = c) && decide (x.2.1 = w) && s.signalFree c w x.2.2.1 x.2.2.2) = some (c, w, p, n)
    let net (s : State) : Net := { s.net with signals := s.net.signals.erase (c, w, p, n) }
    let home (s : State) : Nat × Nat := s.home c (s.winTie c w)
    Does (.windowSignal c w) (fun s => found s ∧ s.coreAlive (home s).1 = false)
      (fun s t => t.Detects 0x070C c [s.cycleNow c, s.winTie c w] ∧ t.run c = 3 ∧ (s.cf Reg.SYNC_FAULT c = 0 → t.cf Reg.SYNC_FAULT c = 6) ∧
        t.sync = s.sync ∧ State.Answers { s with net := net s } t p 0 0) ∧
    Does (.windowSignal c w) (fun s => found s ∧ s.coreAlive (home s).1 = true)
      (fun s t =>
        (∃ due, s.Plane t (fun y => { y with
            updates := y.updates ++ [⟨(home s).1, (home s).2, false, 1, c, s.stampOf (s.lin + 1), s.peer c, due, none⟩] }) ∧
          (s.sync.links = [] → due = s.lin + 1 + 2 + transit c (home s).1)) ∧
        fld (t.winWord c w 3) 31 0 = min (fld (s.winWord c w 3) 31 0 + 1) (2 ^ 32 - 1) ∧
        t.windowOpen c w = (s.windowOpen c w && !bit (s.winWord c w 0) 1) ∧
        State.Answers { s with net := net s } t p 0 0 ∧
        (∀ d, d ≠ c → t.core d = s.core d) ∧ { t.core c with windows := [] } = { s.core c with windows := [] } ∧
        s.Keeps t (Reg.SYNC_ADDS_SENT.key c 0 :: dieKeys [Reg.DEBUG_TRACE_DROPPED, Reg.ARCH_PLANE_STALL])
          fun s => { s with sync := Sync.init, net := Net.init, cores := [], dbg := Debug.init })) ∧
  (∀ a x, a < 8 →
    let due (s : State) : Prop := s.clocksRun = true ∧ (s.phase a).ready = some x ∧ s.inForce Reg.CTRL_PERIOD < 2 ^ 24 ∧
      x < 2 ^ 40 * s.inForce Reg.CTRL_PERIOD ∧ (∀ w ∈ s.sync.awaits, w.arch = a → ∀ d, w.deadline = some d → s.inTick x ≤ d) ∧
      ∀ c ∈ s.task.parts, (s.core c).moveIn = []
    let closed (s t : State) : Prop := t.rd Reg.ARCH_OPEN 0 a = 0 ∧ t.rd Reg.ARCH_ARRIVED_COUNT 0 a = 0 ∧ s.Counts t Reg.ARCH_CLOSURES 0 a 1 ∧
      t.phase a = ArchPhase.init ∧ (∀ c < 1024, s.member a c = true → t.arrived c a = false) ∧
      t.sync.awaits = s.sync.awaits.filter (fun x => decide (x.arch ≠ a)) ∧
      (∀ w ∈ s.sync.awaits, w.arch = a → ⟨w.core, true, s.inTick x⟩ ∈ t.sync.results) ∧ t.net = s.net ∧ t.mem = s.mem
    Does (.archClosure a) (fun s => due s ∧ (s.task.waiting = false ∨ s.task.arch ≠ some a))
      (fun s t => closed s t ∧ t.taskState = s.taskState ∧ t.task = s.task ∧ t.cores = s.cores ∧ t.detected = s.detected) ∧
    ∀ c, c < 1024 →
      Does (.archClosure a)
        (fun s => due s ∧ s.taskState = 1 ∧ s.task.arch = some a ∧ s.ops.context = none ∧ s.ops.resume = none ∧ s.task.accepted < s.inTick x ∧
          s.task.waiting = true ∧ s.task.parts = [c] ∧ s.task.first = true ∧ s.marks = [] ∧ fld (ofBytes (s.bytesAt (windowBase c + 32 * s.cf Reg.SEQ_ENTRY c) 32)) 23 0 = 0)
        (fun s t => closed s t ∧ t.taskState = 2 ∧ t.task = { s.task with arch := none, first := false, waiting := false } ∧ t.run c = 0 ∧ t.cf Reg.SEQ_DONE c = 1 ∧
          s.Notes t 0x0B08 noUnit [0, s.rd Reg.CMD_OPS_ID 0 0, 1, 2]))

/-- Template loads and swaps becoming visible, the image copy of Beyler's template, and the start of a MOVE (R162, R172, R174, R175, R177, R298). The
TAGs of a MOVE's packets are the model's (notes/assumptions/21.md).
exec answers a next state for every state that meets the conditions: tloadComplete, tswapEffect, beylerWrite, imageCopyDone, moveBegin. -/
def Obligations.UnitEvents : Prop :=
  let inCore (s t : State) (c : Nat) (l : List Row) (keep : Core → Core) : Prop := (∀ d, d ≠ c → t.core d = s.core d) ∧ keep (t.core c) = keep (s.core c) ∧
    s.Keeps t (l.map (·.key c 0)) fun s => { s with cores := [] }
  let timing (k : Core) : Core := { k with tm := { k.tm with tloads := [], swapAt := none } }
  (∀ c,
    (∀ x l, Does (.tloadComplete c) (fun s => s.clocksRun = true ∧ (s.core c).tm.tloads = x :: l)
      (fun s t => t.cf Reg.TPL_SHADOW_READY c = 1 ∧ s.Counts t Reg.TPL_LOADS c 0 1 ∧ (t.core c).tm.tloads = l ∧
        (t.core c).tm.swapAt = (s.core c).tm.swapAt ∧ inCore s t c [Reg.TPL_SHADOW_READY, Reg.TPL_LOADS] timing)) ∧
    (∀ x, Does (.tswapEffect c) (fun s => s.clocksRun = true ∧ (s.core c).tm.swapAt = some x ∧ (s.core c).tm.tloads = [])
      (fun s t => t.cf Reg.TPL_ACTIVE c = 1 - s.cf Reg.TPL_ACTIVE c ∧ t.cf Reg.TPL_SHADOW_READY c = 0 ∧ s.Counts t Reg.TPL_SWAPS c 0 1 ∧
        (t.core c).tm.swapAt = none ∧ inCore s t c [Reg.TPL_ACTIVE, Reg.TPL_SHADOW_READY, Reg.TPL_SWAPS] timing)) ∧
    (∀ v, v < 2 →
      let may (s : State) : Prop := s.Writable .sideband Reg.DRESS_BEYLER c 0 ∧ s.coreAlive c = true
      Does (.beylerWrite c v) (fun s => may s ∧ s.running c = false ∧ s.cf Reg.DRESS_BEYLER c ≠ v)
        (fun s t => t.cf Reg.DRESS_BEYLER c = v ∧ t.cf Reg.TPL_LOADING c = 1 ∧ (v = 0 → t.cf Reg.TPL_BEYLER c = 0) ∧
          (v = 1 → t.cf Reg.TPL_BEYLER c = s.cf Reg.TPL_BEYLER c) ∧
          s.Keeps t ([Reg.DRESS_BEYLER, Reg.TPL_LOADING, Reg.TPL_BEYLER].map (·.key c 0)) keepState) ∧
      Does (.beylerWrite c v) (fun s => may s ∧ s.running c = true)
        (fun s t => s.Refuses t true c 5 ∧ s.Notes t 0x0407 noUnit [Reg.DRESS_BEYLER.addr c 0] ∧
          s.Keeps t [(Reg.refused true 5).key c 0] exceptEvents)) ∧
    Does (.imageCopyDone c) (fun s => s.clocksRun = true ∧ s.cf Reg.TPL_LOADING c = 1 ∧ s.cf Reg.DRESS_BEYLER c < 2)
      (fun s t => t.cf Reg.TPL_LOADING c = 0 ∧ t.cf Reg.TPL_BEYLER c = s.cf Reg.DRESS_BEYLER c ∧
        (s.cf Reg.DRESS_BEYLER c = 0 → t.cf Reg.TPL_ACTIVE c = 0) ∧ (t.core c).segs = [] ∧
        (t.core c).beylerImage = decide (s.cf Reg.DRESS_BEYLER c = 1) ∧
        inCore s t c [Reg.TPL_LOADING, Reg.TPL_BEYLER, Reg.TPL_ACTIVE] fun k => { k with segs := [], beylerImage := false })) ∧
  (∀ c (j : MoveJob),
    let next (s : State) : Prop := s.issuing c = true ∧ s.task.halts = [] ∧ (s.core c).moves.find? (fun j => !j.begun) = some j ∧
      s.job c j.serial = some j
    let n := (j.len + 511) / 512
    let begun (s t : State) : Prop := t.job c j.serial = some { j with begun := true, left := n } ∧
      (∀ k, k ≠ j.serial → t.job c k = s.job c k) ∧ s.Counts t Reg.MOVER_PACKETS c 0 n ∧ (∀ d, d ≠ c → t.core d = s.core d) ∧ t.mem = s.mem
    Does (.moveBegin c) (fun s => next s ∧ j.srcHandle.kind = 1 ∧ n ≠ 0)
      (fun s t => begun s t ∧
        t.net = { s.net with serial := s.net.serial + n, accesses := s.net.accesses ++ (List.range n).map fun r =>
          let a := gLocal (s.moveSource c j + 512 * r)
          ⟨.moveRead c j.serial r, s.net.serial + r, s.lin, 0, 0, a, none, piecesOf a (min 512 (j.len - 512 * r)), false⟩ } ∧
        { t.core c with moves := [] } = { s.core c with moves := [] } ∧ s.Keeps t [Reg.MOVER_PACKETS.key c 0] fun s => { s with net := Net.init, cores := [] }) ∧
    Does (.moveBegin c) (fun s => next s ∧ j.srcHandle.kind ≠ 1 ∧ n = 1)
      (fun s t => begun s t ∧ ∃ p : Packet, s.Issued t c p ∧ pType p = 2 ∧ pLen p = j.len % 1024 ∧ pAddr p = gLocal (s.moveSource c j) ∧
        pDpkg p = gPkg (s.moveSource c j) ∧ pDdie p = gDie (s.moveSource c j) ∧ pTag p = j.serial % 127 + 1))

/-- Writes of register words field by field, and those of HIST.CLEAR, ACK_SEQ, PACKAGE_ID and the power domains (R18, R146, R378, R416, R417, R420,
R422, R429). What a bed reads as after its domain loses power is the model's (notes/assumptions/2.md).
exec answers a next state for every state that meets the conditions: registerWrite, histClear, ackSeq, domOff, domOffYq, domainSwitchDone. -/
def Obligations.RegisterWrites : Prop :=
  let open_ (s : State) (path : Path) (a : Nat) : Prop := s.frozen = false ∧ path ≠ .other ∧ s.reaches a
  let bad (s : State) (path : Path) (a v : Nat) : Prop := ∃ x ∈ fieldsAt a, (s.judge path (fieldWrite x v)).ok = false
  let spare (a v : Nat) : Nat := v - ((fieldsAt a).map fun x => fld v (x.2.2.2 + x.1.width - 1) x.2.2.2 * 2 ^ x.2.2.2).foldl (· + ·) 0
  let keysAt (a : Nat) : List Nat := (fieldsAt a).map fun x => x.1.key x.2.1 x.2.2.1
  let refusals (d : Nat) (s : State) (a : Nat) : Nat := Sparse.get d s.regs (refusedAt a)
  let switches (s t : State) (keys : List Row) : Prop := s.Keeps t (dieKeys (Reg.DIR_DOM_BUSY :: keys)) fun s => { s with ops := { s.ops with offs := [] } }
  (∀ path a v, plainWord a → v < 2 ^ 64 →
    Does (.registerWrite path a v) (fun s => open_ s path a)
      (fun s t =>
        (∀ x ∈ fieldsAt a,
          let w := fieldWrite x v
          let kept : Prop := t.rd x.1 x.2.1 x.2.2.1 = s.rd x.1 x.2.1 x.2.2.1
          (x.1.acc = .ro → kept) ∧ ((s.judge path w).ok = false → kept) ∧
          ((s.judge path w).ok = true → x.1.acc = .w1c →
            t.rd x.1 x.2.1 x.2.2.1 = (s.rd x.1 x.2.1 x.2.2.1 &&& (2 ^ x.1.width - 1 - w.bits)) % 2 ^ x.1.width) ∧
          ((s.judge path w).ok = true → x.1.acc = .rw ∨ x.1.acc = .rws → t.rd x.1 x.2.1 x.2.2.1 = w.bits)) ∧
        (bad s path a v ∨ spare a v ≠ 0 → refusals 0 t a = min (refusals 0 s a + 1) (2 ^ 32 - 1)) ∧
        (¬ bad s path a v → spare a v = 0 → refusals 0 t a = refusals 0 s a) ∧
        (∀ x ∈ fieldsAt a, ∀ e, (s.judge path (fieldWrite x v)) = ⟨false, e⟩ → e ≠ 0 → t.Detects e noUnit [a]) ∧
        (¬ bad s path a v → t.detected = s.detected) ∧ s.Keeps t (refusedAt a :: keysAt a) exceptEvents)) ∧
  (∀ path a v, pageAt a = none ∨ a % 8 ≠ 0 → Does (.registerWrite path a v) (fun s => s.frozen = false) (fun s t => t = s)) ∧
  (∀ a v c n o, pageAt a = some (.core c n o) → Does (.registerWrite .other a v) (fun s => s.frozen = false) (fun s t => t = s)) ∧
  (∀ path v, v < 2 ^ 16 →
    let a := Reg.PLACE_PACKAGE_ID.addr 0 0
    Does (.registerWrite path a v) (fun s => open_ s path a ∧ s.df Reg.MARK_LOCKED = 0)
      (fun s t => t.df Reg.PLACE_PACKAGE_ID = v ∧ t.ring = { s.ring with placed := true } ∧
        s.Keeps t (dieKeys [Reg.PLACE_PACKAGE_ID]) fun s => { s with ring := Ring.init }) ∧
    Does (.registerWrite path a v) (fun s => open_ s path a ∧ s.df Reg.MARK_LOCKED ≠ 0)
      (fun s t => s.Counts t Reg.MARK_LOCKED_WRITES 0 0 1 ∧ s.Refuses t false 0 1 ∧
        s.Keeps t (refusedAt a :: dieKeys [Reg.MARK_LOCKED_WRITES]) keepState)) ∧
  (∀ c v, v < 4 →
    Does (.histClear c v) (fun s => s.Writable .sideband Reg.POINT_HIST_CLEAR c 0 ∧ s.coreAlive c = true)
      (fun s t =>
        let one := [Reg.POINT_ZERO, Reg.POINT_VANISHED, Reg.POINT_SATURATED, Reg.POINT_NAN, Reg.POINT_INF]
        (∀ b < 64, t.rd Reg.POINT_BIN0 c b = if bit v 0 then 0 else s.rd Reg.POINT_BIN0 c b) ∧
        (∀ b < 64, t.rd Reg.POINT_BIN1 c b = if bit v 1 then 0 else s.rd Reg.POINT_BIN1 c b) ∧
        (∀ i < 2, ∀ r ∈ one, t.rd r c i = if bit v i then 0 else s.rd r c i) ∧
        s.Keeps t (copyKeys [Reg.POINT_BIN0, Reg.POINT_BIN1] c 64 ++ copyKeys one c 2) keepState)) ∧
  (∀ path v, v < 2 ^ 48 →
    let may (s : State) : Prop := s.Writable path Reg.LEDGER_ACK_SEQ 0 0
    Does (.ackSeq path v)
      (fun s => may s ∧ (path = .sideband ∨ path = .trowel) ∧ s.df Reg.LEDGER_ACK_SEQ ≤ v ∧ v ≤ s.df Reg.LEDGER_HEAD_SEQ)
      (fun s t => t.df Reg.LEDGER_ACK_SEQ = v ∧ t.ledger = { s.ledger with overrun := false } ∧ (v = s.df Reg.LEDGER_HEAD_SEQ → t.side = s.side) ∧
        (v < s.df Reg.LEDGER_HEAD_SEQ → s.side.enabled = true → s.side.pending = [] → t.side = { s.side with raised := s.side.raised ++ [(3, toBytes 6 v)] }) ∧
        (v < s.df Reg.LEDGER_HEAD_SEQ → s.side.enabled = false → t.side = { s.side with pending := s.side.pending ++ [(3, toBytes 6 v)] }) ∧
        s.Keeps t (dieKeys [Reg.LEDGER_ACK_SEQ]) fun s => { s with ledger := Ledger.init, side := Sideband.init }) ∧
    Does (.ackSeq path v) (fun s => may s ∧ (path = .hub ∨ v < s.df Reg.LEDGER_ACK_SEQ ∨ s.df Reg.LEDGER_HEAD_SEQ < v))
      (fun s t => s.Refuses t false 0 12 ∧ s.Keeps t [(Reg.refused false 12).key 0 0] keepState)) ∧
  (∀ path v, v < 2 ^ 64 →
    let may (s : State) : Prop := s.Writable path Reg.DIR_DOM_OFF 0 0 ∧ s.switchable = true
    let goes (s : State) (g : Nat) : Prop := g < 64 ∧ bit v g = true ∧ bit (s.df Reg.DIR_DOM_OFF) g = false ∧ s.domainOn g = true
    Does (.domOff path v) (fun s => may s ∧ ∀ g < 64, bit v g = false → bit (s.df Reg.DIR_DOM_OFF) g = true → s.domainOn g = true)
      (fun s t => t.df Reg.DIR_DOM_OFF = v ∧ (∀ g, goes s g → g ∈ t.ops.offs ∧ t.df Reg.DIR_DOM_BUSY = 1) ∧
        (∀ g, g ∈ t.ops.offs → g ∈ s.ops.offs ∨ goes s g) ∧ switches s t [Reg.DIR_DOM_OFF]) ∧
    (∀ g, g < 64 → Does (.domOff path v)
      (fun s => may s ∧ s.df Reg.DIR_DOM_OFF = v + 2 ^ g ∧ bit v g = false ∧ s.domainOn g = false)
      (fun s t => t.df Reg.DIR_DOM_OFF = v ∧ t.domainOn g = true ∧ t.df Reg.DIR_DOM_BUSY = 1 ∧ g ∈ t.ops.group ∧ g ∉ t.ops.offs ∧
        (∀ d < 80, d ≠ g → t.domainOn d = s.domainOn d) ∧ (∀ c, c ∈ coresOf g → t.core c = Core.init) ∧ ∀ c, c ∉ coresOf g → t.core c = s.core c)) ∧
    Does (.domOff path v) (fun s => s.Writable path Reg.DIR_DOM_OFF 0 0 ∧ s.switchable = false)
      (fun s t => s.Refuses t false 0 0 ∧ s.Keeps t [(Reg.refused false 0).key 0 0] keepState)) ∧
  (∀ path v, v < 16 →
    let may (s : State) : Prop := s.Writable path Reg.DIR_DOM_OFF_YQ 0 0 ∧ s.switchable = true
    let goes (s : State) (q : Nat) : Prop := q < 4 ∧ bit v q = true ∧ bit (s.df Reg.DIR_DOM_OFF_YQ) q = false ∧ s.domainOn (72 + q) = true
    let comes (s : State) (q : Nat) : Prop := q < 4 ∧ bit v q = false ∧ bit (s.df Reg.DIR_DOM_OFF_YQ) q = true ∧ s.domainOn (72 + q) = false
    Does (.domOffYq path v) may
      (fun s t => t.df Reg.DIR_DOM_OFF_YQ = v ∧ (∀ q, goes s q → 72 + q ∈ t.ops.offs ∧ t.df Reg.DIR_DOM_BUSY = 1) ∧
        (∀ q, comes s q → t.domainOn (72 + q) = true ∧ t.df Reg.DIR_DOM_BUSY = 1 ∧ 72 + q ∉ t.ops.offs) ∧
        (∀ q, q < 4 → ¬ comes s q → t.domainOn (72 + q) = s.domainOn (72 + q)) ∧
        switches s t [Reg.DIR_DOM_OFF_YQ, Reg.DIR_DOM_ON_HI, Reg.DIR_DOM_CHANGES]) ∧
    Does (.domOffYq path v) (fun s => s.Writable path Reg.DIR_DOM_OFF_YQ 0 0 ∧ s.switchable = false)
      (fun s t => s.Refuses t false 0 0 ∧ s.Keeps t [(Reg.refused false 0).key 0 0] keepState)) ∧
  Does .domainSwitchDone (fun s => s.frozen = false ∧ s.df Reg.DIR_DOM_BUSY ≠ 0 ∧ s.ops.group = [] ∧ ∀ d ∈ s.ops.offs, d < 80)
    (fun s t => t.df Reg.DIR_DOM_BUSY = 0 ∧ t.ops = { s.ops with offs := [] } ∧ (∀ d ∈ s.ops.offs, t.domainOn d = false) ∧
      (∀ d < 80, d ∉ s.ops.offs → t.domainOn d = s.domainOn d) ∧ (∀ d ∈ s.ops.offs, d < 64 → ∀ c ∈ coresOf d, t.core c = Core.init) ∧
      (∀ c, (∀ d ∈ s.ops.offs, d < 64 → c ∉ coresOf d) → t.core c = s.core c) ∧
      (∀ d ∈ s.ops.offs, 72 ≤ d → d < 76 → ∀ a, inQuadrant (d - 72) a = true → t.byteAt a = Memory.blank)) ∧
  Does .domainSwitchDone (fun s => s.frozen = false ∧ (s.df Reg.DIR_DOM_BUSY = 0 ∨ s.ops.group ≠ [])) (fun s t => t = s)

/-- Commands of the CMD page: acceptance, statuses, and what START, SUSPEND, RESUME, CANCEL, MEMTEST, BROADCAST, REBOND and REPAIR do
(R64, R300, R303, R342, R346, R350–R358).
exec answers a next state for every state that meets the conditions: wholeDieReset, computePartReset, coreGroupReset, start, suspend, resume,
resumeFromImage, cancel, memtest, broadcast, rebond, repair, cmdResult. -/
def Obligations.TaskCommands : Prop :=
  let args := dieKeys [Reg.CMD_ARG0, Reg.CMD_ARG1, Reg.CMD_ARG2, Reg.CMD_ARG3]
  let given (path : Path) (s : State) : Prop := s.frozen = false ∧ path ≠ .other ∧ s.df Reg.CMD_BUSY ≠ 1
  let ready (path : Path) (s : State) : Prop := given path s ∧ 7 ≤ s.df Reg.BOOT_PHASE
  let answered (t : State) (status seq op : Nat) : Prop := t.df Reg.CMD_BUSY = 1 ∧ t.ops.result = some ⟨status, seq % 2 ^ 16, op⟩
  let refused (s t : State) (status seq op : Nat) : Prop := answered t status seq op ∧
    s.Keeps t (args ++ dieKeys [Reg.CMD_BUSY]) fun s => { s with ops := { s.ops with result := none } }
  let id (s : State) (k : Nat) : Nat := s.rd Reg.CMD_OPS_ID 0 k
  let opNew (s t : State) (k seq : Nat) : Prop := id t k = s.ops.nextId % 2 ^ Reg.CMD_OPS_ID.width ∧ t.ops.nextId = s.ops.nextId + 1 ∧
    answered t 0 seq (id t k)
  let same (s t : State) : Prop := t.mem = s.mem ∧ t.net = s.net ∧ t.sync = s.sync ∧ t.ports = s.ports ∧ t.power = s.power ∧ t.ledger = s.ledger
  let each (path : Path) (seq target a0 a1 a2 a3 : Nat) : List Instr :=
    [.start path seq target a0 a1 a2 a3, .suspend path seq target a0 a1 a2 a3, .resume path seq target a0 a1 a2 a3,
     .resumeFromImage path seq target a0 a1 a2 a3, .cancel path seq target a0 a1 a2 a3, .memtest path seq target a0 a1 a2 a3,
     .broadcast path seq target a0 a1 a2 a3, .rebond path seq target a0 a1 a2 a3, .repair path seq target a0 a1 a2 a3,
     .wholeDieReset path seq target a0 a1 a2 a3, .computePartReset path seq target a0 a1 a2 a3, .coreGroupReset path seq target a0 a1 a2 a3]
  ∀ (path : Path) (seq target a0 : Nat),
    let named (s : State) (k : Nat) : Prop := s.named (target % 2 ^ 32) = some k
    (∀ a1 a2 a3 i, i ∈ each path seq target a0 a1 a2 a3 →
      Does i (fun s => s.frozen = false ∧ path = .other)
        (fun s t => s.Refuses t false 0 10 ∧ s.Notes t 0x0B05 noUnit [commandAddr] ∧ s.Keeps t [(Reg.refused false 10).key 0 0] exceptEvents) ∧
      Does i (fun s => s.frozen = false ∧ path ≠ .other ∧ s.df Reg.CMD_BUSY = 1)
        (fun s t => s.Counts t Reg.CMD_DROPPED 0 0 1 ∧ s.Notes t 0x0B06 noUnit [] ∧ s.Keeps t (args ++ dieKeys [Reg.CMD_DROPPED]) exceptEvents)) ∧
    (∀ a1 a2 a3 i, i ∈ [Instr.start path seq target a0 a1 a2 a3, .memtest path seq target a0 a1 a2 a3, .broadcast path seq target a0 a1 a2 a3,
        .rebond path seq target a0 a1 a2 a3, .repair path seq target a0 a1 a2 a3] →
      Does i (fun s => given path s ∧ s.df Reg.BOOT_PHASE < 7) (fun s t => refused s t 6 seq 0)) ∧
    (∀ a1 a2 a3, 16 ≤ a0 → Does (.start path seq target a0 a1 a2 a3) (fun s => ready path s ∧ a0 < 2 ^ 64) (fun s t => refused s t 1 seq 0)) ∧
    (a0 < 16 →
      (let may (s : State) : Prop := ready path s ∧ s.taskRuns = false ∧ s.quadrantOff = false ∧ s.startBarred (s.participants true) = false;
      Does (.start path seq target a0 0 0 0) (fun s => may s ∧ s.taskState ≠ 7 ∧ s.participants true ≠ [])
        (fun s t =>
          let cs := s.participants true
          t.taskState = 1 ∧ opNew s t 0 seq ∧ t.task = ⟨cs, startArch a0, s.lin, true, none, none, false, [], none, true⟩ ∧ t.slip = Slip.init ∧
          (∀ c ∈ cs, (∀ r ∈ taskStartCore, t.cf r c = 0) ∧ t.cf Reg.DRESS_VL c = 64 ∧ t.cf Reg.DRESS_RL c = 16 ∧ t.run c = 0 ∧
            t.cf Reg.SEQ_DONE c = 0 ∧ (t.core c).hod = [] ∧ (t.core c).moves = [] ∧ (t.core c).sreg = (s.core c).sreg ∧
            (t.core c).ties = (s.core c).ties ∧ (t.core c).windows = (s.core c).windows) ∧
          (∀ r ∈ taskStartDie, t.df r = 0) ∧ (∀ c, c ∉ cs → t.core c = s.core c) ∧
          s.Notes t 0x0B08 noUnit [0, id t 0, s.taskState, 1] ∧ t.mem = s.mem ∧ t.sync = (s.dropWaits cs).sync ∧ t.ports = s.ports) ∧
      Does (.start path seq target a0 0 0 0)
        (fun s => ready path s ∧ (s.taskRuns = true ∨ s.quadrantOff = true ∨ s.startBarred (s.participants true) = true)) (fun s t => refused s t 3 seq 0) ∧
      Does (.start path seq target a0 0 0 0) (fun s => may s ∧ s.taskState = 7) (fun s t => refused s t 5 seq 0) ∧
      Does (.start path seq target a0 0 0 0) (fun s => may s ∧ s.taskState ≠ 7 ∧ s.participants true = []) (fun s t => refused s t 2 seq 0)) ∧
      (∀ a1 a2 a3, a1 < 2 ^ 64 → a2 < 2 ^ 32 → a3 < 2 ^ 40 →
        Does (.suspend path seq target a0 a1 a2 a3)
          (fun s => ready path s ∧ named s 0 ∧ (s.taskState = 1 ∨ s.taskState = 2) ∧ (bit a0 3 = true → bit a0 0 = true) ∧
            (bit a0 0 = true → s.imagePlace a1 a2 (s.longest s.task.parts (bit a0 1) (bit a0 2)) = true))
          (fun s t => t.taskState = 3 ∧ answered t 0 seq (id s 0) ∧
            t.task = { s.task with suspend := some ⟨a3, s.lin, bit a0 0, bit a0 1, bit a0 2, bit a0 3, a1, a2⟩ } ∧
            s.Notes t 0x0B08 noUnit [0, id s 0, s.taskState, 3] ∧ t.cores = s.cores ∧ same s t) ∧
        Does (.suspend path seq target a0 a1 a2 a3) (fun s => ready path s ∧ named s 0 ∧ s.taskState ≠ 1 ∧ s.taskState ≠ 2)
          (fun s t => refused s t (if s.taskState = 5 then 7 else if s.taskState = 7 then 8 else 5) seq (target % 2 ^ 32)) ∧
        Does (.suspend path seq target a0 a1 a2 a3) (fun s => ready path s ∧ s.named (target % 2 ^ 32) = none) (fun s t => refused s t 4 seq 0)) ∧
      (∀ k, k ∈ [2, 4, 5] → Does (.suspend path seq target 0 0 0 0)
        (fun s => ready path s ∧ named s k ∧ (s.opState k = 1 ∨ s.opState k = 2))
        (fun s t => t.opState k = 3 ∧ t.ops.suspending = s.ops.suspending ++ [k] ∧ answered t 0 seq (id s k) ∧
          s.Notes t 0x0B08 noUnit [k, id s k, s.opState k, 3] ∧ t.cores = s.cores ∧ same s t)) ∧
      (∀ a2, a2 < 2 ^ 32 →
        Does (.resume path seq target a0 0 a2 0) (fun s => ready path s ∧ named s 0 ∧ s.taskState = 4 ∧ s.inPlace = true ∧ s.ops.context = none)
          (fun s t => t.taskState = 1 ∧ t.task = { s.task with arch := startArch a0, accepted := s.lin, waiting := true } ∧ answered t 0 seq (id s 0) ∧
            s.Notes t 0x0B08 noUnit [0, id s 0, 4, 1] ∧ t.cores = s.cores ∧ same s t) ∧
        Does (.resume path seq target a0 0 a2 0) (fun s => ready path s ∧ named s 0 ∧ s.taskState = 4 ∧ s.inPlace = false)
          (fun s t => refused s t 5 seq (target % 2 ^ 32))) ∧
      (∀ k, k ∈ [1, 2, 4, 5] → Does (.resume path seq target 0 0 0 0) (fun s => ready path s ∧ named s k ∧ s.opState k = 4)
        (fun s t => t.opState k = 2 ∧ answered t 0 seq (id s k) ∧ s.Notes t 0x0B08 noUnit [k, id s k, 4, 2] ∧ t.cores = s.cores ∧ same s t)) ∧
      (∀ a1 a2, a1 < 2 ^ 64 → a2 < 2 ^ 32 →
        let cs (s : State) : List Nat := s.participants false
        let may (s : State) : Prop := ready path s ∧ named s 0 ∧ (s.taskState = 0 ∨ s.taskState = 4 ∨ s.taskState = 6 ∨ s.taskState = 7) ∧
          s.opLive 3 = false ∧ s.quadrantOff = false ∧ s.ops.context = none ∧ s.ops.load = none ∧ s.startBarred (cs s) = false
        Does (.resumeFromImage path seq target a0 a1 a2 0)
          (fun s => may s ∧ cs s ≠ [] ∧ s.imagePlace a1 a2 (s.longest (cs s) false false) = true ∧ ∀ c ∈ cs s, s.domainOn (groupOf c) = true)
          (fun s t => t.taskState = 1 ∧ t.task = ⟨cs s, startArch a0, s.lin, false, none, none, false, [], none, true⟩ ∧ (∀ c ∈ cs s, t.run c = 0) ∧
            t.ops.resume = some ⟨startArch a0, a1, a2⟩ ∧ t.opState 5 = 2 ∧
            t.ops.context = some ⟨false, false, false, false, a1, a2, (cs s).map fun c => ⟨c, [], 0, false, false, false⟩⟩ ∧
            answered t 0 seq (id s 0) ∧ t.cores = s.cores ∧ t.mem = s.mem ∧ t.net = s.net ∧ t.sync = (s.dropWaits (cs s)).sync ∧ t.ports = s.ports) ∧
        Does (.resumeFromImage path seq target a0 a1 a2 0)
          (fun s => may s ∧ (cs s = [] ∨ s.imagePlace a1 a2 (s.longest (cs s) false false) = false))
          (fun s t => refused s t 2 seq (target % 2 ^ 32)))) ∧
    Does (.cancel path seq target 0 0 0 0) (fun s => ready path s ∧ named s 0 ∧ s.taskState = 7)
      (fun s t => t.taskState = 6 ∧ s.Notes t 0x0B08 noUnit [0, id s 0, 7, 6 + 256 * s.df Reg.CMD_CAUSE] ∧ t.task = s.task ∧
        answered t 0 seq (id s 0) ∧ t.cores = s.cores ∧ same s t) ∧
    Does (.cancel path seq target 0 0 0 0) (fun s => ready path s ∧ named s 0 ∧ s.taskRuns = true ∧ s.ops.context = none)
      (fun s t => t.task.cancel = some s.lin ∧ t.task.parts = s.task.parts ∧ t.taskState = s.taskState ∧ t.detected = s.detected ∧
        answered t 0 seq (id s 0) ∧ t.cores = s.cores ∧ same s t) ∧
    Does (.cancel path seq target 0 0 0 0) (fun s => ready path s ∧ named s 4 ∧ s.opState 4 = 4)
      (fun s t => t.opState 4 = 6 ∧ s.Notes t 0x0B08 noUnit [4, id s 4, 4, 6] ∧ answered t 0 seq (id s 4) ∧ t.cores = s.cores ∧ same s t) ∧
    Does (.cancel path seq target 0 0 0 0) (fun s => ready path s ∧ named s 2 ∧ (s.opState 2 = 2 ∨ s.opState 2 = 3))
      (fun s t => t.ops.cancelling = s.ops.cancelling ++ [2] ∧ t.opState 2 = s.opState 2 ∧ answered t 0 seq (id s 2) ∧ t.detected = s.detected ∧
        t.cores = s.cores ∧ same s t) ∧
    (a0 < 2 →
      let busy (s : State) : Prop := s.taskRuns = true ∨ s.opLive 1 = true ∨ s.quadrantOff = true ∨ s.ops.group ≠ []
      Does (.memtest path seq target a0 0 0 0) (fun s => ready path s ∧ ¬ busy s)
        (fun s t => t.opState 1 = 2 ∧ t.ops.memtest = some ⟨bit a0 0, 1, 0, 0⟩ ∧ t.side.sram = (if bit a0 0 then 1650 else 1500) ∧
          t.rd Reg.CMD_PROGRESS 0 1 = 1 ∧ opNew s t 1 seq ∧ t.cores = s.cores ∧ same s t) ∧
      Does (.memtest path seq target a0 0 0 0) (fun s => ready path s ∧ busy s) (fun s t => refused s t 3 seq 0)) ∧
    (let busy (s : State) : Prop := s.taskRuns = true ∨ s.opLive 2 = true ∨ s.quadrantOff = true ∨ s.ops.load ≠ none;
      Does (.broadcast path seq target 0 0 0 0) (fun s => ready path s ∧ ¬ busy s)
        (fun s t => t.opState 2 = 2 ∧ t.ops.load = some ⟨(List.range 1024).filter s.loadable, 0, 2⟩ ∧ t.df Reg.BOOT_ROUND = 0 ∧
          (∀ c < 1024, t.rd Reg.BOOT_NEED 0 c = 0 ∧ t.rd Reg.BOOT_TABLE 0 c = 0) ∧ opNew s t 2 seq ∧ t.cores = s.cores ∧ same s t) ∧
      Does (.broadcast path seq target 0 0 0 0) (fun s => ready path s ∧ busy s) (fun s t => refused s t 3 seq 0)) ∧
    (a0 < 2 ^ 27 →
      let free (s : State) : Prop := ready path s ∧ s.ops.context = none ∧ s.opLive 3 = false ∧ s.quadrantOff = false;
      (∀ r, Does (.rebond path seq target a0 0 0 0) (fun s => free s ∧ a0 % 64 = 0 ∧ (s.readRebond a0).2 = .ok r)
        (fun s t => t.opState 3 = 1 ∧ t.df Reg.REBOND_STATE = 1 ∧ t.ops.rebond = some r ∧ t.df Reg.REBOND_DESC = a0 ∧ t.df Reg.REBOND_CAUSE = 0 ∧
          t.df Reg.REBOND_OP_ID = id t 3 ∧ t.df Reg.REBOND_BYTES = 0 ∧ opNew s t 3 seq ∧ t.cores = s.cores ∧ same s t)) ∧
      (∀ f : RebondFail, Does (.rebond path seq target a0 0 0 0) (fun s => free s ∧ a0 % 64 = 0 ∧ (s.readRebond a0).2 = .error f)
        (fun s t => t.opState 3 = 7 ∧ t.df Reg.REBOND_STATE = 7 ∧ t.ops.rebond = none ∧ t.df Reg.REBOND_CAUSE = f.cause % 16 ∧
          t.df Reg.REBOND_FAULT_OWNER = f.owner % 4096 ∧ t.df Reg.REBOND_FAULT_MAP = f.map % 2 ∧ opNew s t 3 seq ∧ t.cores = s.cores ∧ same s t)) ∧
      Does (.rebond path seq target a0 0 0 0) (fun s => free s ∧ a0 % 64 ≠ 0) (fun s t => refused s t 2 seq 0)) ∧
    Does (.repair path seq target 0 0 0 0) (fun s => ready path s ∧ s.opLive 4 = false)
      (fun s t => t.opState 4 = (if s.repairs = [] then 5 else 2) ∧ t.repairs = s.repairs ∧ opNew s t 4 seq ∧ t.cores = s.cores ∧ same s t) ∧
    Does (.repair path seq target 0 0 0 0) (fun s => ready path s ∧ s.opLive 4 = true) (fun s t => refused s t 3 seq 0) ∧
    (∀ r : CmdResult, Does .cmdResult (fun s => s.frozen = false ∧ s.ops.result = some r)
      (fun s t => t.df Reg.CMD_STATUS = r.status % 2 ^ 8 ∧ t.df Reg.CMD_RSEQ = r.seq % 2 ^ 16 ∧ t.df Reg.CMD_OP_ID = r.op % 2 ^ 32 ∧
        t.df Reg.CMD_BUSY = 0 ∧ t.ops = { s.ops with result := none } ∧
        s.Keeps t (dieKeys [Reg.CMD_STATUS, Reg.CMD_RSEQ, Reg.CMD_OP_ID, Reg.CMD_BUSY]) fun s => { s with ops := Ops.init })) ∧
    Does .cmdResult (fun s => s.frozen = false ∧ s.ops.result = none) (fun s t => t = s)

/-- The memory test, the firmware load, rebonds and context transfers (R303–R308, R342, R343, R346, R347, R353, R359). PROGRESS of a memory test and
what it leaves in memory are the model's (notes/assumptions/35.md, 2.md).
exec answers a next state for every state that meets the conditions: memtestDone, floodPacket, rebondPacket, rebondTimeout, contextTransfer,
memtestPassEnd, broadcastRound, rebondMoverStart. -/
def Obligations.LongOperations : Prop :=
  let op (s : State) (k : Nat) : Nat := s.opState k
  (∀ (m : MemTest) last,
    let runs (s : State) : Prop := s.clocksRun = true ∧ s.ops.memtest = some m ∧ m.step < 4 ∧ s.railClosed 1 = true ∧ (op s 1 = 2 ∨ op s 1 = 3)
    Does (.memtestPassEnd last) (fun s => runs s ∧ 1 ∉ s.ops.cancelling ∧ 1 ∉ s.ops.suspending)
      (fun s t => t.ops.memtest = some (m.next last) ∧ t.rd Reg.CMD_PROGRESS 0 1 = (m.next last).progress % 2 ^ 64 ∧ t.side.sram = (m.next last).rail ∧
        op t 1 = op s 1 ∧ s.Keeps t [Reg.CMD_PROGRESS.key 0 1] fun s => { s with ops := { s.ops with memtest := none }, side := Sideband.init }) ∧
    Does (.memtestPassEnd last) (fun s => runs s ∧ 1 ∉ s.ops.cancelling ∧ 1 ∈ s.ops.suspending)
      (fun s t => t.ops.memtest = some (m.next last) ∧ op t 1 = 4 ∧ 1 ∉ t.ops.suspending ∧
        s.Notes t 0x0B08 noUnit [1, s.rd Reg.CMD_OPS_ID 0 1, op s 1, 4] ∧ t.mem = s.mem) ∧
    Does (.memtestPassEnd last) (fun s => runs s ∧ 1 ∈ s.ops.cancelling)
      (fun _ t => t.ops.memtest = none ∧ op t 1 = 6 ∧ 1 ∉ t.ops.cancelling ∧ t.side.sram = 1650 ∧
        ∀ a, (a < yardSize ∨ (bedOf a).isSome = true) → t.byteAt a = Memory.blank) ∧
    Does (.memtestDone []) (fun s => s.clocksRun = true ∧ s.ops.memtest = some m ∧ m.step = 4 ∧ s.railClosed 1 = true ∧ op s 1 = 2)
      (fun s t => t.ops.memtest = none ∧ op t 1 = 5 ∧ s.Notes t 0x0B08 noUnit [1, s.rd Reg.CMD_OPS_ID 0 1, 2, 5] ∧
        ∀ a, (a < yardSize ∨ (bedOf a).isSome = true) → t.byteAt a = Memory.blank)) ∧
  (∀ faults, Does (.memtestDone faults) (fun s => s.clocksRun = true ∧ s.ops.memtest = none ∧ (s.ops.group = [] ∨ s.ops.load ≠ none)) (fun s t => t = s)) ∧
  (∀ (l : Load) c k data,
    let takes (s : State) : Prop := s.clocksRun = true ∧ s.ops.load = some l ∧ c ∈ l.cores ∧ s.loading l = true ∧ s.segments ≤ 8
    Does (.floodPacket c k data) (fun s => takes s ∧ k < 8 * s.segments)
      (fun s t => (∀ i < min 512 data.length, (512 * k + i, data.getD i 0#8) ∈ (t.fwStore c).data) ∧ (t.fwStore c).table = (s.fwStore c).table ∧
        (∀ x ∈ (s.fwStore c).data, x.1 < 512 * k ∨ 512 * k + min 512 data.length ≤ x.1 → x ∈ (t.fwStore c).data) ∧
        (∀ d, d ≠ c → t.fwStore d = s.fwStore d) ∧ s.Keeps t [] fun s => { s with boot := { s.boot with stores := [] } }) ∧
    Does (.floodPacket c 64 data) takes
      (fun s t => (t.fwStore c).table = data.take (32 * s.segments) ∧ (t.fwStore c).data = (s.fwStore c).data ∧
        s.Keeps t [] fun s => { s with boot := { s.boot with stores := [] } }) ∧
    Does (.floodPacket c 65 data) takes
      (fun s t => ∃ p : Packet, t = { s with net := { s.net with mesh := s.net.mesh ++ [p] } } ∧ pType p = 0 ∧ pVl p = 3 ∧ pLen p = 8 ∧ pDkind p = 2 ∧
        pScore p = c % 1024 ∧ pAddr p = Reg.BOOT_NEED.addr 0 (c / 4 * 4) ∧ p.payload = toBytes 8 (s.needOf c * 2 ^ (16 * (c % 4)))) ∧
    (let live (s : State) : Prop := s.clocksRun = true ∧ s.ops.load = some l ∧ l.why = 2 ∧ s.loading l = true;
    Does .broadcastRound (fun s => live s ∧ 2 ∉ s.ops.cancelling ∧ s.incomplete l = [])
      (fun s t => op t 2 = 5 ∧ t.ops.load = none ∧ t.df Reg.BOOT_INCOMPLETE = 0 ∧ s.Notes t 0x0B08 noUnit [2, s.rd Reg.CMD_OPS_ID 0 2, op s 2, 5]) ∧
    Does .broadcastRound (fun s => live s ∧ 2 ∉ s.ops.cancelling ∧ 2 ∉ s.ops.suspending ∧ s.incomplete l ≠ [] ∧ l.round < 3)
      (fun s t => t.ops.load = some { l with round := l.round + 1 } ∧ t.df Reg.BOOT_ROUND = l.round + 1 ∧
        t.df Reg.BOOT_INCOMPLETE = (s.incomplete l).length % 2 ^ Reg.BOOT_INCOMPLETE.width ∧ t.rd Reg.CMD_PROGRESS 0 2 = l.round + 1 ∧
        op t 2 = op s 2 ∧ t.detected = s.detected) ∧
    Does .broadcastRound (fun s => live s ∧ 2 ∉ s.ops.cancelling ∧ s.incomplete l ≠ [] ∧ 3 ≤ l.round)
      (fun s t => op t 2 = 5 ∧ t.ops.load = none ∧ (∀ d ∈ s.incomplete l, (t.site d).parts = false ∧ (t.site d).cause = 3 ∧
        t.Detects 0x0B04 d [s.rd Reg.BOOT_NEED 0 d + 256 * s.rd Reg.BOOT_TABLE 0 d])) ∧
    Does .broadcastRound (fun s => live s ∧ 2 ∈ s.ops.cancelling)
      (fun s t => op t 2 = 6 ∧ t.ops.load = none ∧ 2 ∉ t.ops.cancelling ∧ ∀ d ∈ s.incomplete l, (t.site d).parts = false ∧ (t.site d).cause = 3))) ∧
  (∀ r : Rebond,
    let cursor (s t : State) (m : Nat) (x : Option (Nat × Nat)) : Prop :=
      (x = none → t.rd Reg.REBOND_OWNER 0 m = 4096 ∧ t.rd Reg.REBOND_ACTIVE 0 m = 0) ∧
      ∀ o q, x = some (o, q) → t.rd Reg.REBOND_OWNER 0 m = o % 2 ^ 13 ∧ t.rd Reg.REBOND_OFFSET 0 m = r.offsetOf o q % 2 ^ 28 ∧
        t.rd Reg.REBOND_ACTIVE 0 m = 1 ∧ t.mem = s.mem
    Does .rebondMoverStart
      (fun s => s.clocksRun = true ∧ s.ops.rebond = some r ∧ op s 3 = 1 ∧ r.dst.pr * r.dst.pc ≤ 4096 ∧ ∃ m < 64, s.nextOwner r m 0 ≠ none)
      (fun s t => op t 3 = 2 ∧ t.df Reg.REBOND_STATE = 2 ∧ (∀ m < 64, cursor s t m (s.nextOwner r m 0)) ∧ t.ops = s.ops ∧ t.net = s.net) ∧
    Does .rebondMoverStart
      (fun s => s.clocksRun = true ∧ s.ops.rebond = some r ∧ op s 3 = 1 ∧ r.owners = [] ∧ ∀ m < 64, s.nextOwner r m 0 = none)
      (fun s t => op t 3 = 5 ∧ t.ops.rebond = none ∧ t.Detects 0x0901 noUnit [s.df Reg.REBOND_OP_ID, s.df Reg.REBOND_BYTES, s.df Reg.REBOND_PACKETS]) ∧
    (∀ m o q bs, m < 64 →
      let n (s : State) : Nat := s.packetGranules r o q 32
      let next (s : State) : Option Nat := s.nextGranule r o (q + n s)
      Does (.rebondPacket m)
        (fun s => s.clocksRun = true ∧ s.ops.rebond = some r ∧ op s 3 = 2 ∧ s.rd Reg.REBOND_OWNER 0 m = o ∧ o < 4096 ∧ (r.owner o).abandoned = false ∧
          s.nextGranule r o (r.granuleAt o (s.rd Reg.REBOND_OFFSET 0 m)) = some q ∧ s.marks = [] ∧
          (s.readGranules r o ((List.range (n s)).map (· + q))).2 = .ok bs)
        (fun s t =>
          let last := (next s).isNone
          let yard := decide (r.dst.kind o ≠ 1)
          (∃ p : Packet, t.net = { s.net with mesh := s.net.mesh ++ [p] } ∧ p.payload = bs ∧ pLen p = bs.length % 1024 ∧ pSkind p = 1 ∧ pScore p = m ∧
            pTag p = o % 256 ∧ pVl p = 0 ∧ pType p = (if last && !yard then 1 else 0) ∧ pCreq p = (last || yard) ∧ pWin p = !yard ∧
            pDpkg p = gPkg (r.dst.base o) ∧ pDdie p = gDie (r.dst.base o)) ∧
          s.Counts t Reg.REBOND_BYTES 0 0 bs.length ∧ s.Counts t Reg.REBOND_PACKETS 0 0 1 ∧
          (∀ k, next s = some k → cursor s t m (some (o, k))) ∧ (next s = none → cursor s t m (s.nextOwner r m (o + 1))) ∧
          ∃ u : Rebond, t.ops = { s.ops with rebond := some u } ∧ u = { r with owners := u.owners } ∧
            ((u.owner o).formed = (r.owner o).formed + 1 ∧ (u.owner o).last = last) ∧ ∀ d, d ≠ o → u.owner d = r.owner d)) ∧
    (∀ m o x, Does (.rebondTimeout m)
      (fun s => s.clocksRun = true ∧ s.ops.rebond = some r ∧ op s 3 = 2 ∧ r.owners.find? (fun x => decide (x.1 % 64 = m) && decide (0 < x.2.owed)) = some (o, x))
      (fun _ t => op t 3 = 7 ∧ t.df Reg.REBOND_STATE = 7 ∧ t.df Reg.REBOND_CAUSE = 6 ∧ t.df Reg.REBOND_FAULT_OWNER = o % 4096 ∧ t.ops.rebond = none))) ∧
  (∀ (x : Context) g (k : CtxCore),
    let job (s : State) : Prop := s.clocksRun = true ∧ s.ops.context = some x ∧ x.job g = some k ∧ (op s 5 = 2 ∨ op s 5 = 3) ∧ k.waiting = false
    let a := x.base + k.core * x.stride + k.next
    let image (t : State) (y : CtxCore) : Prop := ∃ u : Context, t.ops.context = some u ∧ u = { x with cores := u.cores } ∧
      u.cores = x.cores.map fun z => if z.core = k.core then y else z
    let sent (s t : State) (type len : Nat) (creq : Bool) (payload : List Byte) : Prop := ∃ p : Packet,
      t.net = { s.net with mesh := s.net.mesh ++ [p] } ∧ pType p = type ∧ pLen p = len ∧ pCreq p = creq ∧ pAddr p = gLocal a ∧ pDpkg p = gPkg a ∧
      pDdie p = gDie a ∧ pSkind p = 1 ∧ pScore p = g % 1024 ∧ p.payload = payload
    Does (.contextTransfer g) (fun s => job s ∧ x.save = false)
      (fun s t => sent s t 2 512 false [] ∧ image t { k with next := k.next + 512, begun := true, waiting := true } ∧ t.cores = s.cores ∧ t.mem = s.mem) ∧
    Does (.contextTransfer g) (fun s => job s ∧ x.save = true ∧ k.begun = true)
      (fun s t =>
        let bs := (k.image.drop k.next).take 512
        sent s t 0 bs.length (decide (k.image.length ≤ k.next + 512)) bs ∧
        image t { k with next := k.next + 512, waiting := decide (k.image.length ≤ k.next + 512) } ∧ t.cores = s.cores ∧ t.mem = s.mem) ∧
    Does (.contextTransfer g) (fun s => job s ∧ x.save = true ∧ k.begun = false ∧ s.marks = [] ∧ (s.core k.core).accMarks = [])
      (fun s t =>
        let bed := if x.bed then s.bytesAt (windowBase k.core) bedSize else []
        (∀ w < 32, t.windowOpen k.core w = false) ∧ t.net = s.net ∧ t.mem = s.mem ∧ (∀ d, d ≠ k.core → t.core d = s.core d) ∧
        image t { k with begun := true, image := t.coreImage k.core (s.ctxShape k.core x.acc x.bed) (s.openMask k.core) bed }) ∧
    Does (.rebondTimeout g)
      (fun s => s.clocksRun = true ∧ s.ops.rebond = none ∧ s.ops.context = some x ∧ x.job g = some k ∧ k.waiting = true ∧ x.save = true)
      (fun s t => op t 5 = 7 ∧ t.ops.context = none ∧ s.Notes t 0x0B08 noUnit [5, s.rd Reg.CMD_OPS_ID 0 5, op s 5, 7] ∧ t.cores = s.cores ∧ t.mem = s.mem))

/-- The power controller: the loop, limiter windows, the envelope, calibration, coolant, droop, alerts, repointing and rail requests (R318–R337,
R444). The gain where the estimate is 0 is a free value and not stated (notes/assumptions/30.md).
exec answers a next state for every state that meets the conditions: powerLoop, powerWindow, envelopeTarget, telemetry, droopTrip, droopClear,
alert, repointing, repointingDone, railReqTimeout, telemetryLost, droopLong, coolantOkFall, coolantStop, coolantRestored, throttleSummary,
railReqRepeat. -/
def Obligations.PowerControl : Prop :=
  let sum (l : List Nat) : Nat := l.foldl (· + ·) 0
  let mild (s t : State) : Prop := t.mem = s.mem ∧ t.cores = s.cores ∧ t.net = s.net ∧ t.sync = s.sync
  (∀ x : LoopSample,
    let small (s : State) : Prop := s.df Reg.POWER_Q_DIE ≤ 64 ∧ ∀ g < 64, s.level g ≤ 64 ∧ s.rd Reg.POWER_Q_THERM 0 g ≤ 64 ∧ s.rd Reg.POWER_Q_DROOP 0 g ≤ 64
    Does (.powerLoop x) (fun s => s.frozen = false ∧ s.df Reg.BOOT_PHASE ≠ 0 ∧ s.power.held = false ∧ small s)
      (fun s t =>
        let d := s.dieTerm x
        let sp := max 96000 (min 800000 (s.power.setpoint * 1000))
        let up := min sp (s.df Reg.POWER_TARGET_NOW + s.power.ramp)
        let raw := (sum x.groups + x.rest) * s.df Reg.POWER_CAL / 4096
        let amps := d.p * x.core / (sum x.groups + x.rest) * 2 / vidSetting (s.df Reg.POWER_VID_REQ)
        let lim := s.df Reg.POWER_CURRENT_LIMIT
        let q := s.df Reg.POWER_Q_DIE
        let th := s.df Reg.POWER_THROTTLE_C
        d.t = (if sp < s.df Reg.POWER_TARGET_NOW then sp else if s.power.track = true then min up (s.power.prev + s.power.ramp) else up) ∧
        d.p = (if s.df Reg.POWER_CAL_FAULT = 1 then s.df Reg.POWER_MEAS_MW * 115 / 100 else if s.df Reg.POWER_TEL_LOST = 1 then raw * 115 / 100 else raw) ∧
        d.a = (if lim < amps then min d.t (d.p * lim / amps) else d.t) ∧
        t.df Reg.POWER_TARGET_NOW = d.t ∧ t.power.prev = d.p ∧ t.power.overPrev = decide (d.a < d.p) ∧
        (d.a < d.p → t.df Reg.POWER_Q_DIE = max 1 (q * d.a / d.p) ∧
          (t.df Reg.POWER_ALL = 1 ↔ s.df Reg.POWER_ALL = 1 ∨ (q = 1 ∧ s.power.overPrev = true))) ∧
        (d.p ≤ d.a → s.df Reg.POWER_ALL = 1 → t.df Reg.POWER_Q_DIE = q ∧ (t.df Reg.POWER_ALL = 1 ↔ d.a * 90 / 100 ≤ d.p)) ∧
        (d.p ≤ d.a → s.df Reg.POWER_ALL ≠ 1 → t.df Reg.POWER_Q_DIE = (if d.p < d.a * 95 / 100 then min 64 (q + 2) else q) ∧ t.df Reg.POWER_ALL = 0) ∧
        (∀ g < 64,
          let tm := tmaxOf x g
          let qt := s.rd Reg.POWER_Q_THERM 0 g
          t.rd Reg.POWER_Q_THERM 0 g = (if th ≤ tm then max 1 (qt - 8) else if tm + 2 ≤ th then min 64 (qt + 1) else qt) ∧
          t.rd Reg.POWER_Q_DROOP 0 g = (if 850 < Sparse.get 0 s.power.stretched g * 20 then max 1 (s.level g - 4)
            else min 64 (s.rd Reg.POWER_Q_DROOP 0 g + 1)) ∧
          (s.df Reg.POWER_PRELIMIT = 0 → t.rd Reg.POWER_Q_PRE 0 g = 64) ∧
          t.level g = min (min (t.df Reg.POWER_Q_DIE) (t.rd Reg.POWER_Q_THERM 0 g)) (min (t.rd Reg.POWER_Q_PRE 0 g) (t.rd Reg.POWER_Q_DROOP 0 g)) ∧
          (t.rd Reg.POWER_GROUP_ALL 0 g = 1 ↔ t.df Reg.POWER_ALL = 1 ∨ (t.rd Reg.POWER_Q_THERM 0 g = 1 ∧ th + 5 ≤ tm))) ∧
        t.df Reg.POWER_EST_MW = min raw (2 ^ 20 - 1) ∧ mild s t) ∧
    Does (.powerLoop x) (fun s => s.frozen = false ∧ s.df Reg.BOOT_PHASE ≠ 0 ∧ s.power.held = true)
      (fun s t => t.power.held = false ∧ t.power.setpoint = s.df Reg.POWER_SETPOINT ∧ t.power.ramp = s.df Reg.POWER_RAMP_UP ∧
        (t.power.track = true ↔ s.df Reg.POWER_TRACK = 1) ∧ t.df Reg.POWER_APPLIED_SEQ = s.df Reg.POWER_SEQ % 2 ^ Reg.POWER_APPLIED_SEQ.width ∧
        (t.df Reg.POWER_CLAMPED = 1 ↔ s.df Reg.POWER_SETPOINT < 96 ∨ 800 < s.df Reg.POWER_SETPOINT) ∧
        t.Detects 0x0A00 noUnit [s.power.setpoint, s.df Reg.POWER_SETPOINT, s.power.ramp, s.df Reg.POWER_RAMP_UP] ∧ mild s t)) ∧
  (∀ holds, Does (.powerWindow holds) (fun s => s.clocksRun = true ∧ ∀ g < 64, s.level g ≤ 64 ∧ s.rd Reg.POWER_GROUP_ALL 0 g ≤ 1)
    (fun s t =>
      (∀ g < 64, t.windowLevel g = s.level g + 128 * s.rd Reg.POWER_GROUP_ALL 0 g) ∧
      (∀ c < 1024, s.run c = 1 → (s.core c).seq.inCourse = true → s.coreAlive c = true →
        let free := 64 - s.level (groupOf c)
        let n := if s.rd Reg.POWER_GROUP_ALL 0 (groupOf c) = 1 then free else min free (((holds.find? fun x => decide (x.1 = c)).map (·.2)).getD 0)
        (t.core c).seq.held = (s.core c).seq.held + n ∧ (n ≠ 0 → s.Counts t Reg.SEQ_POWER_HOLD c 0 n)) ∧
      (∀ c, s.run c ≠ 1 ∨ (s.core c).seq.inCourse = false → t.core c = s.core c) ∧
      (∀ c, { t.core c with seq := Sequencer.init } = { s.core c with seq := Sequencer.init }) ∧
      s.Keeps t ((List.range 1024).map fun c => Reg.SEQ_POWER_HOLD.key c 0) fun s => { s with cores := [], power := PowerCtl.init })) ∧
  (∀ path v, v < 2 ^ 64 →
    let ramp := fld v 23 12
    let rows := [Reg.POWER_SETPOINT, Reg.POWER_RAMP_UP, Reg.POWER_TRACK, Reg.POWER_SEQ]
    Does (.envelopeTarget path v) (fun s => s.frozen = false ∧ path ≠ .other ∧ 1 ≤ ramp ∧ ramp ≤ 800)
      (fun s t => t.df Reg.POWER_SETPOINT = fld v 11 0 ∧ t.df Reg.POWER_RAMP_UP = ramp ∧ t.df Reg.POWER_TRACK = fld v 24 24 ∧
        t.df Reg.POWER_SEQ = fld v 47 32 ∧ t.power = { s.power with held := true } ∧
        (fld v 31 25 = 0 → fld v 63 48 = 0 → t.df (Reg.refused false 9) = s.df (Reg.refused false 9)) ∧
        s.Keeps t (dieKeys (Reg.refused false 9 :: rows)) fun s => { s with power := PowerCtl.init }) ∧
    Does (.envelopeTarget path v) (fun s => s.frozen = false ∧ (path = .other ∨ ramp = 0 ∨ 800 < ramp))
      (fun s t => s.Refuses t false 0 9 ∧ s.Notes t 0x0A01 noUnit [Reg.POWER_SETPOINT.addr 0 0] ∧
        s.Keeps t [(Reg.refused false 9).key 0 0] exceptEvents)) ∧
  (∀ rail us cur tag,
    let p := toBytes 1 rail ++ [0#8] ++ toBytes 2 us ++ toBytes 4 cur
    let good (s : State) : Prop := s.Receives 4 tag p ∧ rail < 2 ∧ 40 ≤ us ∧ us ≤ 60 ∧ cur < 2 ^ 32
    let off (s : State) : Prop := s.measOf rail cur < 4 * absDiff s.meanEst (s.measOf rail cur)
    let taken (s t : State) : Prop := t.side.resp = some (responseFrame 0 tag []) ∧ s.Counts t Reg.POWER_TELEMETRY 0 0 1 ∧
      t.df Reg.POWER_MEAS_MW = min (s.measOf rail cur) (2 ^ 20 - 1) ∧ t.df Reg.POWER_TEL_LOST ≠ 1 ∧ mild s t
    Does (.telemetry (messageFrame 4 tag p))
      (fun s => good s ∧ s.df Reg.POWER_TEL_LOST ≠ 1 ∧ s.df Reg.POWER_CAL_FAULT ≠ 1 ∧ ¬ off s ∧ s.meanEst ≠ 0)
      (fun s t => taken s t ∧ t.df Reg.POWER_DISAGREE = 0 ∧
        t.df Reg.POWER_CAL = max 3072 (min 5120 (s.df Reg.POWER_CAL * (7 * s.meanEst + s.measOf rail cur) / (8 * s.meanEst)))) ∧
    Does (.telemetry (messageFrame 4 tag p))
      (fun s => good s ∧ s.df Reg.POWER_TEL_LOST ≠ 1 ∧ s.df Reg.POWER_CAL_FAULT ≠ 1 ∧ off s ∧ s.df Reg.POWER_DISAGREE = 9)
      (fun s t => taken s t ∧ t.df Reg.POWER_CAL_FAULT = 1 ∧ t.df Reg.POWER_CAL = s.df Reg.POWER_CAL ∧ t.df Reg.POWER_ALERT_CAL_FAULT = 1 ∧
        t.Detects 0x0A03 noUnit [s.meanEst, s.measOf rail cur, s.df Reg.POWER_CAL]) ∧
    Does (.telemetry (messageFrame 4 tag p))
      (fun s => good s ∧ s.df Reg.POWER_TEL_LOST ≠ 1 ∧ s.df Reg.POWER_CAL_FAULT = 1 ∧ s.df Reg.POWER_AGREE = 199 ∧
        10 * absDiff s.meanEst (s.measOf rail cur) ≤ s.measOf rail cur)
      (fun s t => taken s t ∧ t.df Reg.POWER_CAL_FAULT = 0 ∧ t.df Reg.POWER_CAL = s.df Reg.POWER_CAL ∧ t.Detects 0x0A04 noUnit []) ∧
    Does (.telemetry (messageFrame 4 tag p))
      (fun s => good s ∧ s.df Reg.POWER_TEL_LOST = 1 ∧ s.df Reg.POWER_CAL_FAULT ≠ 1 ∧ ¬ off s)
      (fun s t => taken s t ∧ t.df Reg.POWER_CAL = s.df Reg.POWER_CAL ∧ t.Detects 0x0A06 noUnit []) ∧
    Does (.telemetry (messageFrame 4 tag p)) (fun s => s.Receives 4 tag p ∧ rail < 256 ∧ us < 2 ^ 16 ∧ (1 < rail ∨ us < 40 ∨ 60 < us))
      (fun s t => t.side.resp = some (responseFrame 5 tag []) ∧ s.Keeps t [] exceptSide ∧ t.detected = s.detected)) ∧
  Does .telemetryLost (fun s => s.frozen = false ∧ s.df Reg.POWER_TEL_LOST ≠ 1)
    (fun s t => t.df Reg.POWER_TEL_LOST = 1 ∧ s.Notes t 0x0A05 noUnit [] ∧ t.df Reg.POWER_ALERT_TEL_LOST = 1 ∧
      s.Keeps t (dieKeys [Reg.POWER_TEL_LOST, Reg.POWER_ALERT_TEL_LOST]) exceptSide) ∧
  Does .coolantOkFall (fun s => s.df Reg.POWER_COOLANT_OK = 1)
    (fun s t => t.df Reg.POWER_COOLANT_OK = 0 ∧ t.power = { s.power with lowPulse := true } ∧
      s.Keeps t (dieKeys [Reg.POWER_COOLANT_OK]) fun s => { s with power := PowerCtl.init }) ∧
  Does .coolantStop (fun s => s.df Reg.POWER_COOLANT_OK ≠ 1 ∧ s.frozen = false ∧ s.df Reg.POWER_STOPPED ≠ 1)
    (fun s t => t.df Reg.POWER_STOPPED = 1 ∧ t.df Reg.POWER_STOP_SOURCE = 0 ∧ s.Counts t Reg.POWER_EVENTS 0 6 1 ∧ t.power.lowPulse = false ∧
      t.df Reg.POWER_ALERT_COOLANT_STOP = 1 ∧ t.Detects 0x0A0B noUnit [] ∧ t.clocksRun = false ∧
      (s.taskState = 1 ∨ s.taskState = 2 → t.taskState = 7 ∧ t.df Reg.CMD_CAUSE = 6 ∧ ∀ c ∈ s.task.parts, t.run c = 3) ∧
      (s.taskState ≠ 1 → s.taskState ≠ 2 → t.taskState = s.taskState) ∧ mild s t) ∧
  Does .coolantStop (fun s => s.df Reg.POWER_COOLANT_OK ≠ 1 ∧ s.frozen = true)
    (fun s t => t = { s with power := { s.power with lowPulse := false }, dbg := { s.dbg with latched := true } }) ∧
  Does .coolantRestored (fun s => s.df Reg.POWER_COOLANT_OK ≠ 1 ∧ s.power.lowPulse = true)
    (fun s t => t.df Reg.POWER_COOLANT_OK = 1 ∧ s.Counts t Reg.POWER_GLITCHES 0 0 1 ∧ t.power = { s.power with lowPulse := false } ∧
      s.Keeps t (dieKeys [Reg.POWER_COOLANT_OK, Reg.POWER_GLITCHES]) fun s => { s with power := PowerCtl.init }) ∧
  Does .coolantRestored
    (fun s => s.df Reg.POWER_COOLANT_OK ≠ 1 ∧ s.power.lowPulse = false ∧ s.df Reg.POWER_STOPPED = 1 ∧ s.df Reg.POWER_STOP_SOURCE = 0)
    (fun s t => t.df Reg.POWER_COOLANT_OK = 1 ∧ s.Notes t 0x0A0C noUnit [] ∧ t.df Reg.POWER_STOPPED = (if s.power.release then 0 else 1) ∧
      t.power.release = false ∧ s.Keeps t (dieKeys [Reg.POWER_COOLANT_OK, Reg.POWER_STOPPED]) fun s => { s with power := PowerCtl.init, detected := [] }) ∧
  (∀ d n total,
    Does (.droopTrip d) (fun s => s.frozen = false ∧ d < 256 ∧ d ∉ s.power.tripped ∧ s.power.stretching = false ∧ s.df Reg.POWER_STOPPED ≠ 1)
      (fun s t => t.power = { s.power with tripped := s.power.tripped ++ [d], stretching := true } ∧ s.Counts t Reg.POWER_EVENTS 0 2 1 ∧
        s.Keeps t [Reg.POWER_EVENTS.key 0 2] fun s => { s with power := PowerCtl.init }) ∧
    Does (.droopTrip d)
      (fun s => s.frozen = false ∧ d < 256 ∧ d ∉ s.power.tripped ∧ (s.power.stretching = true ∨ s.df Reg.POWER_STOPPED = 1))
      (fun s t => t = { s with power := { s.power with tripped := s.power.tripped ++ [d] } }) ∧
    Does (.droopClear d n total) (fun s => s.frozen = false ∧ s.power.tripped = [d] ∧ s.power.stretching = true)
      (fun s t => t.power.tripped = [] ∧ t.power.stretching = false ∧ s.Counts t Reg.POWER_DURATION 0 2 total ∧
        Sparse.get 0 t.power.stretched (droopGroup d) = Sparse.get 0 s.power.stretched (droopGroup d) + n ∧
        s.Keeps t [Reg.POWER_DURATION.key 0 2] fun s => { s with power := PowerCtl.init })) ∧
  Does .droopLong (fun s => s.frozen = false ∧ s.power.stretching = true) (fun s t => s.Notes t 0x0A07 noUnit [] ∧ s.Keeps t [] exceptEvents) ∧
  Does .throttleSummary (fun s => s.frozen = false)
    (fun s t =>
      (∀ r < 7,
        let e := s.rd Reg.POWER_EVENTS 0 r - (s.power.summary.getD r (0, 0)).1
        let d := s.rd Reg.POWER_DURATION 0 r - (s.power.summary.getD r (0, 0)).2
        (e ≠ 0 ∨ d ≠ 0) → t.Detects 0x0A0D noUnit [r, e, d]) ∧
      t.power = { s.power with summary := (List.range 7).map fun r => (s.rd Reg.POWER_EVENTS 0 r, s.rd Reg.POWER_DURATION 0 r) } ∧
      s.Keeps t [] fun s => { s with power := PowerCtl.init, detected := [] }) ∧
  (∀ path v, Does (.alert path v) (fun s => s.frozen = false ∧ path ≠ .other)
    (fun s t => (∀ i < 7, t.df (alertRows.getD i Reg.POWER_ALERT_CAL_FAULT) =
        if bit v i then 0 else s.df (alertRows.getD i Reg.POWER_ALERT_CAL_FAULT) % 2) ∧ s.Keeps t (dieKeys alertRows) keepState)) ∧
  (∀ path, Does (.repointing path) (fun s => s.Writable path Reg.POWER_AGE_GO 0 0)
    (fun s t => t.df Reg.POWER_AGE_BUSY = 1 ∧ s.Keeps t (dieKeys [Reg.POWER_AGE_BUSY]) keepState)) ∧
  (∀ mon delay, mon < 512 → delay < 2 ^ 15 →
    Does (.repointingDone mon delay) (fun s => s.frozen = false ∧ s.df Reg.POWER_AGE_BUSY = 1)
      (fun s t =>
        let need := (delay + 24) / 25
        let new := max (s.df Reg.POWER_MARGIN) (min need (s.df Reg.POWER_MARGIN_MAX))
        let want := s.df Reg.POWER_VID_BASE + new
        let vid := min want 100
        t.df Reg.POWER_MARGIN = new % 64 ∧ t.df Reg.POWER_AGE_BUSY = 0 ∧ t.df Reg.POWER_WORST_MON = mon ∧ t.df Reg.POWER_WORST_DELAY = delay ∧
        t.df Reg.POWER_LAST_HOURS = s.df Reg.LEDGER_HOURS % 2 ^ 20 ∧ t.df Reg.POWER_VID_REQ = vid ∧
        (s.df Reg.POWER_VID_REQ ≠ vid → (⟨0, vidSetting vid⟩ : RailReq) ∈ t.side.rails) ∧
        t.Detects 0x0A0F noUnit [s.df Reg.POWER_MARGIN, new, mon, s.df Reg.LEDGER_HOURS] ∧
        (s.df Reg.POWER_MARGIN_MAX < need ∨ 100 < want → t.Detects 0x0A0E noUnit [] ∧ t.df Reg.POWER_ALERT_AGEING_LIMIT = 1) ∧ mild s t)) ∧
  Does .railReqRepeat (fun s => s.frozen = false ∧ s.side.pending = [] ∧ s.side.enabled = true)
    (fun s t => t = { s with side := { s.side with raised := s.side.raised ++ s.side.rails.map fun r => (1, railPayload r) } }) ∧
  Does .railReqRepeat (fun s => s.frozen = false ∧ s.side.enabled = false)
    (fun s t => t = { s with side := { s.side with pending := s.side.pending ++ s.side.rails.map fun r => (1, railPayload r) } }) ∧
  (∀ rail, Does (.railReqTimeout rail) (fun s => s.frozen = false)
    (fun s t => t = { s with side := { s.side with rails := s.side.rails.filter fun x => decide (x.rail ≠ rail) } }))

/-- The ledger's records, suppression, offers and operating hours; attestation; lockdown (R366–R380, R386, R396–R399, R444). The number a report
carries and its signature's free value are the model's (notes/assumptions/36.md, 33.md).
exec answers a next state for every state that meets the conditions: attestGo, markLock, ledgerRecord, ledgerIbiRepeat, rateSummary, minuteCount,
attestReportDone. -/
def Obligations.LedgerAndIdentity : Prop :=
  let head (s : State) : Nat := s.df Reg.LEDGER_HEAD_SEQ
  let acks (s : State) : Nat := s.df Reg.LEDGER_ACK_SEQ
  let inSlot (t : State) (k : Nat) (l : List Nat) : Prop := ∀ w < 8, Sparse.get 0 t.ledger.slots (8 * k + w) = l.getD w 0
  let stops (s : State) (e : Event) : Bool := e.stop && (decide (s.df Reg.LEDGER_FIRST_STOP_VALID = 0) ||
    (decide (s.df Reg.LEDGER_FIRST_STOP_TIME = e.time) && decide (e.unit < s.df Reg.LEDGER_FIRST_STOP_UNIT)))
  let firstRows := [Reg.LEDGER_FIRST_STOP_SEQ, Reg.LEDGER_FIRST_STOP_EVENT, Reg.LEDGER_FIRST_STOP_UNIT, Reg.LEDGER_FIRST_STOP_VALID, Reg.LEDGER_FIRST_STOP_TIME]
  let ready (s : State) (e : Event) : Prop := s.frozen = false ∧ s.df Reg.BOOT_PHASE ≠ 0 ∧ firstEvent s.detected = some e ∧ e.sev < 4 ∧
    head s + 1 < 2 ^ 48 ∧ acks s < head s
  let written (s t : State) (e : Event) : Prop := head t = head s + 1 ∧ inSlot t (head s % 8192) (s.recordWords (head s) e) ∧
    (∀ k, k / 8 ≠ head s % 8192 → Sparse.get 0 t.ledger.slots k = Sparse.get 0 s.ledger.slots k) ∧
    t.ledger.bad = s.ledger.bad.filter (fun k => decide (k ≠ head s % 8192)) ∧
    t.ledger.reported = s.ledger.reported.filter (fun k => decide (k ≠ head s % 8192)) ∧
    (e.sev = 2 → s.Counts t Reg.LEDGER_SEV2 0 0 1) ∧ (e.sev = 3 → s.Counts t Reg.LEDGER_SEV3 0 0 1) ∧
    (stops s e = true → e.unit < 2 ^ 16 → e.code < 2 ^ 16 → e.time < 2 ^ 64 → t.df Reg.LEDGER_FIRST_STOP_VALID = 1 ∧
      t.df Reg.LEDGER_FIRST_STOP_SEQ = head s ∧ t.df Reg.LEDGER_FIRST_STOP_EVENT = e.code ∧ t.df Reg.LEDGER_FIRST_STOP_UNIT = e.unit ∧
      t.df Reg.LEDGER_FIRST_STOP_TIME = e.time) ∧
    (stops s e = false → ∀ r ∈ firstRows, t.df r = s.df r)
  let kept (s t : State) (rows : List Row) (keep : State → State) : Prop :=
    s.Keeps t (dieKeys (Reg.LEDGER_HEAD_SEQ :: Reg.LEDGER_SEV2 :: Reg.LEDGER_SEV3 :: (firstRows ++ rows))) keep
  let onlyLedger (s : State) : State := { s with ledger := Ledger.init, detected := [] }
  let muting (s : State) (e : Event) : Prop := e.sev < 2 ∧ 64 ≤ Sparse.get 0 s.ledger.counts e.code
  let roomy (s : State) : Prop := head s < 8192 ∨ head s - 8192 < acks s
  (∀ e : Event,
    Does .ledgerRecord (fun s => ready s e ∧ roomy s ∧ ¬ muting s e)
      (fun s t => written s t e ∧ t.detected = s.detected.erase e ∧ acks t = acks s ∧ t.df Reg.LEDGER_LOST = s.df Reg.LEDGER_LOST ∧
        (∀ c, Sparse.get 0 t.ledger.counts c = Sparse.get 0 s.ledger.counts c + if c = e.code ∧ e.sev < 2 then 1 else 0) ∧
        t.ledger.muted = s.ledger.muted ∧ t.ledger.fine = s.ledger.fine ∧ t.ledger.steps = s.ledger.steps ∧ kept s t [] onlyLedger) ∧
    Does .ledgerRecord (fun s => ready s e ∧ ¬ roomy s ∧ ¬ muting s e)
      (fun s t => written s t e ∧ acks t = head s - 8191 ∧ s.Counts t Reg.LEDGER_LOST 0 0 1 ∧ t.ledger.overrun = true ∧
        (s.ledger.overrun = false → State.Notes { s with detected := s.detected.erase e } t 0x0E00 noUnit [head s - 8192]) ∧
        (s.ledger.overrun = true → t.detected = s.detected.erase e) ∧ kept s t [Reg.LEDGER_ACK_SEQ, Reg.LEDGER_LOST] onlyLedger) ∧
    Does .ledgerRecord (fun s => ready s e ∧ muting s e)
      (fun s t => t.ledger = { s.ledger with muted := Sparse.put 0 s.ledger.muted e.code (Sparse.get 0 s.ledger.muted e.code + 1) } ∧
        s.Counts t Reg.LEDGER_SUPPRESSED 0 0 1 ∧ t.detected = s.detected.erase e ∧ s.Keeps t (dieKeys [Reg.LEDGER_SUPPRESSED]) onlyLedger) ∧
    Does .ledgerRecord
      (fun s => s.frozen = false ∧ s.df Reg.BOOT_PHASE ≠ 0 ∧ firstEvent s.detected = some e ∧ 2 ≤ e.sev ∧ e.sev < 4 ∧ head s < 8192 ∧
        acks s = head s ∧ s.side.enabled = true ∧ s.side.pending = [])
      (fun s t => written s t e ∧ t.side = { s.side with raised := s.side.raised ++ [(3, toBytes 6 (head s))] } ∧
        kept s t [] fun s => { onlyLedger s with side := Sideband.init })) ∧
  Does .ledgerRecord (fun s => s.detected = []) (fun s t => t = s) ∧
  Does .ledgerIbiRepeat (fun s => s.frozen = false ∧ acks s < head s ∧ s.side.enabled = true ∧ s.side.pending = [])
    (fun s t => t = { s with side := { s.side with raised := s.side.raised ++ [(3, toBytes 6 (acks s))] } }) ∧
  Does .ledgerIbiRepeat (fun s => s.frozen = false ∧ acks s < head s ∧ s.side.enabled = false)
    (fun s t => t = { s with side := { s.side with pending := s.side.pending ++ [(3, toBytes 6 (acks s))] } }) ∧
  Does .ledgerIbiRepeat (fun s => s.frozen = false ∧ head s ≤ acks s) (fun s t => t = s) ∧
  Does .rateSummary (fun s => s.frozen = false)
    (fun s t => t = { s with
      detected := s.detected ++ s.ledger.muted.map fun x => ⟨0x0E01, noUnit, [x.1, x.2], s.now, 0, false⟩
      ledger := { s.ledger with counts := [], muted := [] } }) ∧
  (let runs (s : State) : Prop := s.frozen = false ∧ s.boot.plinth = true ∧ s.boot.pwrgood = true ∧ s.df Reg.LEDGER_HOURS_SAT = 0
   let hours (s : State) : Prop := s.df Reg.LEDGER_HOURS = 16 * s.ledger.steps + s.ledger.fine / 60 ∧ s.df Reg.LEDGER_MINUTES = s.ledger.fine % 60 ∧
    s.df Reg.LEDGER_HOURS_SAT = 0
   let rows := [Reg.LEDGER_HOURS, Reg.LEDGER_MINUTES, Reg.LEDGER_HOURS_SAT, Reg.POWER_AGE_BUSY]
   let kept (s t : State) : Prop := s.Keeps t (dieKeys rows) fun s => { s with ledger := Ledger.init, power := { s.power with repointHours := 0 }, detected := [] }
   let due (s t : State) : Prop :=
    let h := t.df Reg.LEDGER_HOURS;
    t.power.repointHours = (if 0 < h ∧ h % 1000 = 0 then h else s.power.repointHours) ∧
    (0 < h → h % 1000 = 0 → s.power.repointHours ≠ h → t.df Reg.POWER_AGE_BUSY = 1) ∧
    (h = 0 ∨ h % 1000 ≠ 0 ∨ s.power.repointHours = h → t.df Reg.POWER_AGE_BUSY = s.df Reg.POWER_AGE_BUSY);
   Does .minuteCount (fun s => runs s ∧ s.ledger.fine + 1 < 960 ∧ s.ledger.steps < 6144)
    (fun s t => t.ledger = { s.ledger with fine := s.ledger.fine + 1 } ∧ hours t ∧ due s t ∧ t.detected = s.detected ∧ kept s t) ∧
   Does .minuteCount (fun s => runs s ∧ s.ledger.fine = 959 ∧ s.ledger.steps < 6143)
    (fun s t => t.ledger = { s.ledger with fine := 0, steps := s.ledger.steps + 1 } ∧ hours t ∧ due s t ∧ t.detected = s.detected ∧ kept s t) ∧
   Does .minuteCount (fun s => runs s ∧ s.ledger.fine = 959 ∧ s.ledger.steps = 6143)
    (fun s t => t.ledger = { s.ledger with fine := 0, steps := 6144 } ∧ t.df Reg.LEDGER_HOURS = 98304 ∧ t.df Reg.LEDGER_MINUTES = 0 ∧
      t.df Reg.LEDGER_HOURS_SAT = 1 ∧ s.Notes t 0x0E03 noUnit [] ∧ kept s t) ∧
   Does .minuteCount (fun s => s.frozen = true ∨ s.boot.plinth = false ∨ s.boot.pwrgood = false) (fun s t => t = s)) ∧
  (∀ path,
    let may (s : State) : Prop := s.Writable path Reg.ATTEST_GO 0 0
    let report := (List.range 72).map fun w => Reg.ATTEST_REPORT.key 0 w
    Does (.attestGo path) (fun s => may s ∧ s.df Reg.ATTEST_BUSY ≠ 1)
      (fun s t => t.df Reg.ATTEST_BUSY = 1 ∧ t.df Reg.ATTEST_DONE = 0 ∧ (∀ w < 72, t.rd Reg.ATTEST_REPORT 0 w = 0) ∧
        t.attest = some ⟨s.octets Reg.ATTEST_NONCE 4, s.configRecord, s.now⟩ ∧
        s.Keeps t (dieKeys [Reg.ATTEST_BUSY, Reg.ATTEST_DONE] ++ report) fun s => { s with attest := none }) ∧
    Does (.attestGo path) (fun s => may s ∧ s.df Reg.ATTEST_BUSY = 1)
      (fun s t => s.Refuses t false 0 14 ∧ s.Keeps t [(Reg.refused false 14).key 0 0] keepState) ∧
    Does (.attestGo .other) (fun s => s.frozen = false)
      (fun s t => s.Refuses t false 0 14 ∧ s.Keeps t [(Reg.refused false 14).key 0 0] keepState) ∧
    Does (.markLock path) (fun s => s.Writable path Reg.MARK_LOCK 0 0 ∧ s.df Reg.MARK_LOCKED ≠ 1)
      (fun s t => t.df Reg.MARK_LOCKED = 1 ∧ s.Notes t 0x0C03 noUnit [] ∧ s.Keeps t (dieKeys [Reg.MARK_LOCKED]) exceptEvents) ∧
    Does (.markLock path) (fun s => s.Writable path Reg.MARK_LOCK 0 0 ∧ s.df Reg.MARK_LOCKED = 1) (fun s t => t = s) ∧
    Does (.markLock .other) (fun s => s.frozen = false) (fun s t => t = s)) ∧
  (∀ q : Attest,
    let report := (List.range 72).map fun w => Reg.ATTEST_REPORT.key 0 w
    let ends (s t : State) (status seq : Nat) : Prop := t.attest = none ∧ t.df Reg.ATTEST_BUSY = 0 ∧ t.df Reg.ATTEST_STATUS = status ∧
      t.df Reg.ATTEST_REPORT_SEQ = seq ∧ s.Notes t 0x0C04 noUnit [status, seq]
    let keep (s : State) : State := { s with attest := none, detected := [] }
    Does .attestReportDone
      (fun s => s.frozen = false ∧ s.attest = some q ∧ s.df Reg.MARK_PUF_OK ≠ 0 ∧ s.df Reg.MARK_VERIFIED ≠ 0 ∧
        s.df Reg.ATTEST_REPORT_SEQ + 1 < 2 ^ 32 ∧ q.nonce.length = 32)
      (fun s t =>
        let seq := s.df Reg.ATTEST_REPORT_SEQ + 1;
        ends s t 0 seq ∧ t.df Reg.ATTEST_DONE = 1 ∧ t.octets Reg.ATTEST_REPORT 72 = State.report { s with attest := none } q seq ∧
        (∀ i < 32, (t.octets Reg.ATTEST_REPORT 72).getD (0x30 + i) 0#8 = q.nonce.getD i 0#8 ∧
          (t.octets Reg.ATTEST_REPORT 72).getD (0x90 + i) 0#8 = (sha256 q.config).getD i 0#8) ∧
        s.Keeps t (dieKeys [Reg.ATTEST_BUSY, Reg.ATTEST_STATUS, Reg.ATTEST_REPORT_SEQ, Reg.ATTEST_DONE] ++ report) keep) ∧
    Does .attestReportDone (fun s => s.frozen = false ∧ s.attest = some q ∧ (s.df Reg.MARK_PUF_OK = 0 ∨ s.df Reg.MARK_VERIFIED = 0))
      (fun s t => ends s t (if s.df Reg.MARK_PUF_OK = 0 then 1 else 2) (s.df Reg.ATTEST_REPORT_SEQ) ∧
        s.Keeps t (dieKeys [Reg.ATTEST_BUSY, Reg.ATTEST_STATUS]) keep)) ∧
  Does .attestReportDone (fun s => s.frozen = true ∨ s.attest = none) (fun s t => t = s)

/-- Freeze and thaw, debug mode, the trace, and the TAP with its instruments (R403–R411). READY, ignored trace words and the order of CORESCAN are the
model's (notes/assumptions/37.md, 38.md, 40.md).
exec answers a next state for every state that meets the conditions: debugFreeze, freezeNHigh, debugMode, traceEnable, traceRecord, bypass,
freezeCtl, corescan, memrd, freezeNLow, traceReady, idcode, ijtag, tapReset. -/
def Obligations.DebugAccess : Prop :=
  let noDebug (s : State) : State := { s with dbg := Debug.init }
  let driven (s : State) : List Nat := if s.dbg.drives.contains 1 then s.dbg.drives else s.dbg.drives ++ [1]
  let domainKeys := dieKeys [Reg.DIR_DOM_ON_HI, Reg.DIR_DOM_CHANGES]
  let entry (e : Event) (code : Nat) (data : List Nat) (now : Nat) : Prop :=
    e.code = code ∧ e.unit = noUnit ∧ e.data = data ∧ e.time = now ∧ e.sev = 0 ∧ e.stop = false
  let thawed (s : State) (refs : Nat) : Prop := ∃ e1 e2 : Event, ∃ l : List Event, s.detected = l ++ [e1, e2] ∧
    entry e1 0x0D00 [refs, s.dbg.source] e2.time ∧ entry e2 0x0D01 [s.dbg.releaser] e1.time
  let counted (s t : State) (refs : Nat) : Prop := s.Counts t Reg.DEBUG_FREEZES 0 0 1 ∧
    t.df Reg.DEBUG_LAST_FROZEN = min refs (2 ^ 32 - 1) ∧ t.df Reg.DEBUG_LAST_SOURCE = s.dbg.source
  let thawRows := [Reg.DEBUG_FREEZES, Reg.DEBUG_LAST_FROZEN, Reg.DEBUG_LAST_SOURCE]
  (∀ path,
    let may (s : State) : Prop := s.Writable path Reg.DEBUG_FREEZE 0 0
    Does (.debugFreeze path) (fun s => may s ∧ s.debugAllowed = true)
      (fun s t => t = { s with dbg := { s.dbg with drives := driven s } }) ∧
    Does (.debugFreeze path) (fun s => may s ∧ s.debugAllowed = false)
      (fun s t => t.dbg = { s.dbg with drives := driven s } ∧ s.Refuses t false 0 24 ∧ s.Keeps t [(Reg.refused false 24).key 0 0] noDebug) ∧
    Does (.debugFreeze .other) (fun s => s.frozen = false) (fun s t => t = s) ∧
    (∀ v, Does (.debugMode path v) (fun s => may s ∧ s.debugAllowed = true ∧ s.df Reg.DEBUG_MODE ≠ b2n v)
      (fun s t => t.df Reg.DEBUG_MODE = b2n v ∧ s.Notes t 0x0D02 noUnit [] ∧
        (t.domainOn 78 = true ↔ s.dbg.tap = 0x10 ∨ v = true) ∧
        (v = false → t.df Reg.DEBUG_EN = 0 ∧ t.df Reg.DEBUG_READY = 0) ∧
        (v = true → t.df Reg.DEBUG_EN = s.df Reg.DEBUG_EN ∧ t.df Reg.DEBUG_READY = s.df Reg.DEBUG_READY) ∧
        s.Keeps t (dieKeys [Reg.DEBUG_MODE, Reg.DEBUG_EN, Reg.DEBUG_READY] ++ domainKeys) exceptEvents)) ∧
    (∀ v, Does (.debugMode path v) (fun s => may s ∧ s.debugAllowed = true ∧ s.df Reg.DEBUG_MODE = b2n v) (fun s t => t = s)) ∧
    (∀ v, Does (.debugMode path v) (fun s => may s ∧ s.debugAllowed = false)
      (fun s t => s.Refuses t false 0 24 ∧ s.Keeps t [(Reg.refused false 24).key 0 0] keepState)) ∧
    (∀ v, v < 2 ^ 33 → fld v 5 2 < 12 → 3 < fld v 5 2 →
      let fits := traceFits (fld v 5 2) (fld v 32 6) = true
      let w := putFld v 0 0 1
      let go (s : State) : Prop := path ≠ .other ∧ s.frozen = false ∧ s.df Reg.DEBUG_READY = 0
      Does (.traceEnable path v) (fun s => go s ∧ fits ∧ s.taskRuns = false ∧ s.df Reg.DEBUG_MODE = 1)
        (fun s t => t.df Reg.DEBUG_EN = 1 ∧ t.df Reg.DEBUG_STOP = fld w 1 1 ∧ t.df Reg.DEBUG_SIZE_LOG = fld v 5 2 ∧ t.df Reg.DEBUG_BASE = fld v 32 6 ∧
          t.dbg = (if s.df Reg.DEBUG_EN = 0 then { s.dbg with trace := [] } else s.dbg) ∧
          s.Keeps t (dieKeys [Reg.DEBUG_EN, Reg.DEBUG_STOP, Reg.DEBUG_SIZE_LOG, Reg.DEBUG_BASE]) noDebug) ∧
      Does (.traceEnable path v) (fun s => go s ∧ (¬ fits ∨ s.taskRuns = true))
        (fun s t => s.Refuses t false 0 24 ∧ s.Keeps t [(Reg.refused false 24).key 0 0] keepState) ∧
      Does (.traceEnable path v) (fun s => go s ∧ fits ∧ s.taskRuns = false ∧ s.df Reg.DEBUG_MODE = 0 ∧ s.df Reg.DEBUG_EN = 0)
        (fun s t => t.df Reg.DEBUG_EN = 0 ∧ s.Refuses t false 0 24 ∧
          s.Keeps t ((Reg.refused false 24).key 0 0 :: dieKeys [Reg.DEBUG_STOP, Reg.DEBUG_SIZE_LOG, Reg.DEBUG_BASE]) keepState))) ∧
  Does .freezeNLow
    (fun s => s.frozen = false ∧ s.boot.plinth = true ∧ s.tickCycle + 2 < s.inForce Reg.CTRL_PERIOD ∧ s.tickCycle + 2 < 2 ^ 24 ∧ s.now < 2 ^ 64)
    (fun s t =>
      let d : Debug := { s.dbg with source := s.dbg.drives.headD 0, releaser := 0 };
      t.frozen = true ∧ t.now = s.now + 2 ∧
      t.dbg = (if s.dbg.owed = 2 then { d with lines := [[.text "frozen"]], err := 0, owed := 0 } else d) ∧
      s.Keeps t (dieKeys [Reg.CTRL_TIMESTAMP]) fun s => { noDebug s with frozen := false }) ∧
  Does .freezeNLow (fun s => s.frozen = true ∨ s.boot.plinth = false) (fun s t => t = s) ∧
  (∀ refs,
    let may (s : State) : Prop := s.frozen = true ∧ s.dbg.drives = [] ∧ s.dbg.source < 4
    Does (.freezeNHigh refs) (fun s => may s ∧ s.dbg.latched = false ∧ (s.boot.compHeld = false ∨ s.df Reg.BOOT_PHASE ≠ 7))
      (fun s t => t.frozen = false ∧ counted s t refs ∧ t.now = s.now ∧ t.dbg = s.dbg ∧
        (∃ e1 e2 : Event, t.detected = s.detected ++ [e1, e2] ∧ entry e1 0x0D00 [refs, s.dbg.source] s.now ∧ entry e2 0x0D01 [s.dbg.releaser] s.now) ∧
        s.Keeps t (dieKeys thawRows) fun s => { s with frozen := false, detected := [] }) ∧
    Does (.freezeNHigh refs) (fun s => may s ∧ s.dbg.latched = false ∧ s.boot.compHeld = true ∧ s.df Reg.BOOT_PHASE = 7)
      (fun s t => t.frozen = false ∧ t.boot.compHeld = false ∧ t.Detects 0x0D00 noUnit [refs, s.dbg.source] ∧
        t.Detects 0x0D01 noUnit [s.dbg.releaser] ∧ s.PartReset t (dieKeys thawRows)) ∧
    Does (.freezeNHigh refs) (fun s => may s ∧ s.dbg.latched = true ∧ (s.boot.compHeld = false ∨ s.df Reg.BOOT_PHASE ≠ 7))
      (fun s t => t.frozen = false ∧ t.dbg = { s.dbg with latched := false } ∧ t.df Reg.POWER_STOPPED = 1 ∧ t.clocksRun = false ∧
        (s.df Reg.POWER_STOPPED ≠ 1 → t.df Reg.POWER_STOP_SOURCE = 0 ∧ t.Detects 0x0A0B noUnit [] ∧
          (s.taskState = 1 ∨ s.taskState = 2 → t.taskState = 7 ∧ t.df Reg.CMD_CAUSE = 6)) ∧
        counted s t refs ∧ thawed t refs ∧ t.mem = s.mem ∧ t.net = s.net ∧ t.sync = s.sync) ∧
    Does (.freezeNHigh refs) (fun s => s.frozen = false ∨ s.dbg.drives ≠ []) (fun s t => t = s)) ∧
  (let masked (s : State) (c : Nat) : Prop := c < 1024 ∧ bit (s.rd Reg.DEBUG_TRACE_MASK 0 (c / 64)) (c % 64) = true
   let inside (s : State) (a : Nat) : Prop := ∃ c < 1024, masked s c ∧ s.traceSlot c 0 ≤ a ∧ a < s.traceSlot (c + 1) 0
   Does .traceReady (fun s => s.clocksRun = true ∧ s.df Reg.DEBUG_EN ≠ 0 ∧ s.df Reg.DEBUG_READY ≠ 1)
    (fun s t => t.df Reg.DEBUG_READY = 1 ∧ (∀ a, inside s a → t.byteAt a = 0#8 ∧ t.markAt a = 0) ∧
      (∀ a, ¬ inside s a → t.byteAt a = s.byteAt a ∧ t.markAt a = s.markAt a) ∧
      s.Keeps t (dieKeys [Reg.DEBUG_READY]) fun s => { s with mem := [], marks := [] }) ∧
   Does .traceReady (fun s => s.clocksRun = true ∧ (s.df Reg.DEBUG_EN = 0 ∨ s.df Reg.DEBUG_READY = 1)) (fun s t => t = s)) ∧
  (∀ c (r : TraceRec) (l : List TraceRec),
    let core (s : State) : TraceCore := Sparse.get ⟨0, [], 0⟩ s.dbg.trace c
    let ready (s : State) : Prop := s.clocksRun = true ∧ s.df Reg.DEBUG_READY = 1 ∧ (core s).fifo = r :: l
    let full (s : State) : Prop := s.df Reg.DEBUG_STOP = 1 ∧ 2 ^ s.df Reg.DEBUG_SIZE_LOG ≤ (core s).seq
    let others (s t : State) : Prop := { t.dbg with trace := [] } = { s.dbg with trace := [] } ∧
      ∀ d ≠ c, Sparse.get ⟨0, [], 0⟩ t.dbg.trace d = Sparse.get ⟨0, [], 0⟩ s.dbg.trace d
    Does (.traceRecord c) (fun s => ready s ∧ ¬ full s)
      (fun s t =>
        let n := (core s).drops
        let size := 2 ^ s.df Reg.DEBUG_SIZE_LOG
        let a := s.df Reg.DEBUG_BASE + c * 64 * size + 64 * ((core s).seq % size)
        let word (i : Nat) : Nat := ofBytes (t.bytesAt (a + 8 * i) 8);
        word 0 = r.time % 2 ^ 64 ∧ fld (word 1) 31 0 = (core s).seq % 2 ^ 32 ∧ fld (word 1) 35 32 = r.kind % 16 ∧ fld (word 1) 43 36 = r.index % 256 ∧
        (bit (word 1) 44 = true ↔ n ≠ 0) ∧ bit (word 1) 45 = true ∧ fld (word 1) 53 46 = min n 255 ∧ word 2 = r.value % 2 ^ 64 ∧
        word 3 = r.aux % 2 ^ 64 ∧ word 4 = r.issued % 2 ^ 64 ∧ word 5 = r.peer % 2 ^ 30 ∧ word 6 = 0 ∧ word 7 = 0 ∧
        (∀ b, b < a ∨ a + 64 ≤ b → t.byteAt b = s.byteAt b) ∧ core t = ⟨((core s).seq + 1) % 2 ^ 32, l, 0⟩ ∧ others s t ∧
        s.Counts t Reg.DEBUG_TRACE_WRITTEN 0 0 1 ∧
        s.Keeps t (dieKeys [Reg.DEBUG_TRACE_WRITTEN]) fun s => { noDebug s with mem := [], marks := [] }) ∧
    Does (.traceRecord c) (fun s => ready s ∧ full s)
      (fun s t => core t = ⟨(core s).seq, l, (core s).drops + 1⟩ ∧ others s t ∧ s.Counts t Reg.DEBUG_TRACE_DROPPED 0 0 1 ∧
        s.Keeps t (dieKeys [Reg.DEBUG_TRACE_DROPPED]) noDebug)) ∧
  (let takes (i : Instr) (code : Nat) (out : List Nat) : Prop :=
    Does i (fun _ => True)
      (fun s t => t.dbg = { s.dbg with tap := code, shift := out, notFrozen := false } ∧
        (t.domainOn 78 = true ↔ code = 0x10 ∨ s.df Reg.DEBUG_MODE = 1) ∧ s.Keeps t domainKeys noDebug)
   takes .idcode 0x01 [0x110245C7] ∧ takes .tapReset 0x01 [] ∧ takes .ijtag 0x10 [] ∧
   (∀ code, code < 256 → code ≠ 0x01 → code ≠ 0x10 → takes (.bypass code) code [0])) ∧
  (let reached (s : State) : Prop := s.dbg.tap = 0x10 ∧ s.domainOn 78 = true
   let shifts (i : Instr) (P : State → Prop) (out : State → List Nat) : Prop :=
    let gives (s t : State) (l : List Nat) (b : Bool) : Prop := t = { s with dbg := { s.dbg with shift := l, notFrozen := b } };
    Does i (fun s => reached s ∧ P s ∧ s.frozen = true ∧ s.debugAllowed = true) (fun s t => gives s t (out s) false) ∧
    Does i (fun s => reached s ∧ P s ∧ s.frozen = true ∧ s.debugAllowed = false) (fun s t => gives s t ((out s).map fun _ => 0) false) ∧
    Does i (fun s => reached s ∧ P s ∧ s.frozen = false) (fun s t => gives s t ((out s).map fun _ => 0) true) ∧
    Does i (fun s => ¬ reached s) (fun s t => t = s)
   (∀ c, shifts (.corescan c) (fun _ => True) fun s => Config.coreScan (s.coreFlops c)) ∧
   (∀ a, a % 8 = 0 → inMemory a = true →
    shifts (.memrd a) (fun s => s.markAt a = 0) fun s => [ofBytes (s.bytesAt a 8), (Config.checkBits a 0 (ofBytes (s.bytesAt a 8))).toNat, 0]) ∧
   (∀ a q, a % 8 = 0 → placeOf a = .page q → shifts (.memrd a) (fun _ => True) fun s => [s.pageWord q]) ∧
   Does (.freezeCtl true) reached
    (fun s t => t = { s with dbg := { s.dbg with
      drives := if s.dbg.drives.contains 3 then s.dbg.drives else s.dbg.drives ++ [3]
      shift := [b2n (s.dbg.drives.contains 3)], notFrozen := false } }) ∧
   Does (.freezeCtl false) reached
    (fun s t => t = { s with dbg := { s.dbg with drives := [], releaser := 3, shift := [b2n (s.dbg.drives.contains 3)], notFrozen := false } }) ∧
   (∀ on, Does (.freezeCtl on) (fun s => ¬ reached s) (fun s t => t = s)))

/-- The trowel's commands: their errors, what they answer, and what they change (R413, R414, R403). Line tokens, defaults, counters and the order of
errors are the model's (notes/assumptions/46.md, 42.md).
exec answers a next state for every state that meets the conditions: registerWrite, trowelPeek, trowelPoke, trowelFloor, trowelLedger, trowelTies,
trowelArches, trowelPorts, trowelPower, trowelFreeze, trowelThaw, trowelDump, trowelSetTie. -/
def Obligations.Trowel : Prop :=
  let name (l : List Char) : List Nat := l.map Char.toNat
  let commands (l : Line) : List (Instr × List Char × Nat × Nat × Bool) :=
    [(.trowelPeek l, ['p', 'e', 'e', 'k'], 1, 2, false), (.trowelPoke l, ['p', 'o', 'k', 'e'], 2, 2, false),
     (.trowelFloor l, ['f', 'l', 'o', 'o', 'r'], 0, 0, false), (.trowelLedger l, ['l', 'e', 'd', 'g', 'e', 'r'], 0, 2, false),
     (.trowelTies l, ['t', 'i', 'e', 's'], 1, 3, false), (.trowelArches l, ['a', 'r', 'c', 'h', 'e', 's'], 0, 0, false),
     (.trowelPorts l, ['p', 'o', 'r', 't', 's'], 0, 0, false), (.trowelPower l, ['p', 'o', 'w', 'e', 'r'], 0, 0, false),
     (.trowelFreeze l, ['f', 'r', 'e', 'e', 'z', 'e'], 0, 0, true), (.trowelThaw true l, ['t', 'h', 'a', 'w'], 0, 0, true),
     (.trowelThaw false l, ['t', 'h', 'a', 'w'], 0, 0, true), (.trowelDump l, ['d', 'u', 'm', 'p'], 1, 1, false),
     (.trowelSetTie l, ['s', 'e', 't', '-', 't', 'i', 'e'], 3, 3, false)]
  let ready (s : State) : Prop := s.df Reg.BOOT_PHASE ≠ 0 ∧ s.dbg.owed = 0
  let runs (s : State) : Prop := ready s ∧ s.frozen = false
  let whole (l : Line) : Prop := l.past = false ∧ l.text.length ≤ 128
  let noDebug (s : State) : State := { s with dbg := Debug.init }
  let errKey := Reg.DEBUG_TROWEL_ERRS.key 0 0
  let cmdKey := Reg.DEBUG_TROWEL_CMDS.key 0 0
  let fails (s t : State) (code : Nat) : Prop := t.dbg = { s.dbg with lines := [], err := code } ∧
    (s.frozen = false → s.Counts t Reg.DEBUG_TROWEL_ERRS 0 0 1 ∧ s.Keeps t [errKey] noDebug) ∧ (s.frozen = true → s.Keeps t [] noDebug)
  let answers (s t : State) (lines : List (List Tok)) : Prop := t.dbg = { s.dbg with lines := lines, err := 0 } ∧
    s.Counts t Reg.DEBUG_TROWEL_CMDS 0 0 1
  let owes (s t : State) (kind : Nat) : Prop := t.dbg.owed = kind ∧ s.Counts t Reg.DEBUG_TROWEL_CMDS 0 0 1
  let num (l : List Nat) : List Tok := l.map Tok.num
  (∀ l : Line, ∀ x ∈ commands l,
    let args := lineArgs (name x.2.1) x.2.2.1 x.2.2.2.1 l.text;
    Does x.1 (fun s => ready s ∧ l.past = true) (fun s t => fails s t 3) ∧
    Does x.1 (fun s => ready s ∧ l.past = false ∧ 128 < l.text.length) (fun s t => fails s t 2) ∧
    Does x.1 (fun s => ready s ∧ whole l ∧ args = none) (fun s t => fails s t 1) ∧
    Does x.1 (fun s => ready s ∧ whole l ∧ args ≠ none ∧ s.frozen = true ∧ x.2.2.2.2 = false) (fun s t => fails s t 6) ∧
    Does x.1 (fun s => s.df Reg.BOOT_PHASE = 0 ∨ s.dbg.owed ≠ 0) (fun s t => t = s)) ∧
  (∀ (l : Line) (v : List Nat), whole l →
    let told (w : List Char) (lo hi : Nat) : Prop := lineArgs (name w) lo hi l.text = some v
    let reads (i : Instr) (lines : State → List (List Tok)) : Prop :=
      Does i runs fun s t => answers s t (lines s) ∧ s.Keeps t [cmdKey] noDebug
    let at0 := v.getD 0 0
    (told ['f', 'l', 'o', 'o', 'r'] 0 0 → reads (.trowelFloor l) fun s =>
      num [s.df Reg.FLOOR_GEN, s.df Reg.FLOOR_SOURCE, s.df Reg.FLOOR_FULL_COUNT, s.df Reg.FLOOR_NARROW_COUNT, s.df Reg.FLOOR_DEAD_COUNT,
        s.df Reg.FLOOR_FUSED_FULL] ::
      ((List.range 1024).filter fun c => decide (s.floorState c ≠ 2)).map fun c =>
        num [c, s.floorState c, s.arrays c, s.rd Reg.FLOOR_CAUSE (c / 512) (c % 512)]) ∧
    (told ['a', 'r', 'c', 'h', 'e', 's'] 0 0 → reads (.trowelArches l) fun s =>
      (List.range 8).map fun a => num ([Reg.ARCH_CROSS, Reg.ARCH_DIES, Reg.ARCH_OPEN, Reg.ARCH_ARRIVED_COUNT, Reg.ARCH_CLOSURES].foldl
        (fun x r => x ++ [s.rd r 0 a]) [a])) ∧
    (told ['p', 'o', 'r', 't', 's'] 0 0 → reads (.trowelPorts l) fun s =>
      ((List.range 8).map fun p => num ([p] ++ ([Reg.LINK_STATE, Reg.LINK_TX_WIDTH, Reg.LINK_RX_WIDTH, Reg.LINK_DOWN_CAUSE].map fun r => s.rd r p 0) ++
        [s.role p, s.peerOf p])) ++ [num [s.df Reg.RING_LINKS, s.df Reg.RING_CURRENT]]) ∧
    (told ['p', 'o', 'w', 'e', 'r'] 0 0 → reads (.trowelPower l) fun s =>
      num ([Reg.POWER_SETPOINT, Reg.POWER_TARGET_NOW, Reg.POWER_EST_MW, Reg.POWER_MEAS_MW, Reg.POWER_Q_DIE, Reg.POWER_TJ_MAX].map s.df) ::
      ((List.range 64).filter fun g => decide (s.rd Reg.POWER_REASON 0 g ≠ 0)).map fun g =>
        num [g, s.rd Reg.POWER_LEVEL 0 g, s.rd Reg.POWER_REASON 0 g]) ∧
    (told ['t', 'i', 'e', 's'] 1 3 →
      let t0 := v.getD 1 0
      let n := v.getD 2 (256 - t0);
      Does (.trowelTies l) (fun s => runs s ∧ at0 < 1024 ∧ t0 < 256 ∧ t0 + n ≤ 256 ∧ s.accessStatus (windowBase at0) 8 = 0)
        (fun s t => answers s t
          (((List.range n).map fun i => num [t0 + i, s.tie at0 (t0 + i), s.rd Reg.SYNC_HOME_CORE at0 (t0 + i), s.rd Reg.SYNC_HOME_TIE at0 (t0 + i),
            s.rd Reg.SYNC_BOUND at0 (t0 + i)]) ++ (List.range 16).map fun i => num [i, (s.slotWords at0 i).1, (s.slotWords at0 i).2]) ∧
          s.Keeps t [cmdKey] noDebug) ∧
      Does (.trowelTies l) (fun s => runs s ∧ (1024 ≤ at0 ∨ 256 ≤ t0 ∨ 256 < t0 + n)) (fun s t => fails s t 4)) ∧
    (told ['l', 'e', 'd', 'g', 'e', 'r'] 0 2 →
      let n := v.getD 1 16;
      Does (.trowelLedger l) (fun s => runs s ∧ n ≤ 64 ∧ s.ledger.bad = [])
        (fun s t =>
          let h := s.df Reg.LEDGER_HEAD_SEQ
          let lo := max (v.getD 0 (h - 16)) (h - 8192);
          answers s t ((List.range (min n (h - lo))).map fun i =>
            num ((List.range 8).map fun w => Sparse.get 0 s.ledger.slots (8 * ((lo + i) % 8192) + w)) ++
            if bit (Sparse.get 0 s.ledger.slots (8 * ((lo + i) % 8192) + 2)) 51 then [.text "DAMAGED"] else []) ∧
          s.Keeps t [cmdKey] noDebug) ∧
      Does (.trowelLedger l) (fun s => runs s ∧ 64 < n) (fun s t => fails s t 4)) ∧
    (told ['p', 'e', 'e', 'k'] 1 2 →
      let n := v.getD 1 1
      let fit := at0 % 8 = 0 ∧ 1 ≤ n ∧ n ≤ 64;
      Does (.trowelPeek l) (fun s => runs s ∧ fit ∧ s.accessStatus at0 (8 * n) = 0 ∧ ∀ i < n, s.markAt (at0 + 8 * i) = 0)
        (fun s t => answers s t ((List.range n).map fun i => num [at0 + 8 * i, s.wordAt (at0 + 8 * i) % 2 ^ 64]) ∧
          s.Keeps t [cmdKey] fun s => { noDebug s with detected := [], ledger := { s.ledger with reported := [] } }) ∧
      Does (.trowelPeek l) (fun s => runs s ∧ ¬ fit) (fun s t => fails s t 4) ∧
      Does (.trowelPeek l) (fun s => runs s ∧ fit ∧ s.accessStatus at0 (8 * n) ≠ 0)
        (fun s t => t.dbg = { s.dbg with lines := [], err := 4 } ∧ s.Counts t Reg.DEBUG_TROWEL_ERRS 0 0 1 ∧
          (s.accessStatus at0 (8 * n) = 1 → s.Notes t 0x0001 noUnit []) ∧
          (∀ c, windowOf at0 = some c → s.accessStatus at0 (8 * n) = 2 → s.Notes t 0x0002 c []) ∧
          t.net = { s.net with rejections := s.net.rejections + if s.accessStatus at0 (8 * n) = 1 then 1 else 0 } ∧
          s.Keeps t [errKey] fun s => { noDebug s with detected := [], net := Net.init })) ∧
    (told ['p', 'o', 'k', 'e'] 2 2 →
      let x := v.getD 1 0
      let done (s t : State) : Prop := answers s t [num [at0, x]] ∧ t.Detects 0x0D03 noUnit [at0, x]
      let may (s : State) : Prop := runs s ∧ s.debugAllowed = true ∧ at0 % 8 = 0 ∧ s.accessStatus at0 8 = 0
      let keep (s : State) : State := { noDebug s with detected := [] };
      Does (.trowelPoke l) (fun s => runs s ∧ s.debugAllowed = false) (fun s t => fails s t 5) ∧
      Does (.trowelPoke l) (fun s => runs s ∧ s.debugAllowed = true ∧ at0 % 8 ≠ 0) (fun s t => fails s t 4) ∧
      Does (.trowelPoke l) (fun s => may s ∧ (placeOf at0 = .yard ∨ ∃ c o, placeOf at0 = .bed c o ∧ s.running c = false))
        (fun s t => done s t ∧ t.bytesAt at0 8 = toBytes 8 x ∧ t.markAt at0 = 0 ∧ (∀ b, b < at0 ∨ at0 + 8 ≤ b → t.byteAt b = s.byteAt b) ∧
          s.Keeps t [cmdKey] fun s => { keep s with mem := [], marks := [] }) ∧
      (∀ c o, placeOf at0 = .bed c o → Does (.trowelPoke l) (fun s => may s ∧ s.running c = true)
        (fun s t => done s t ∧ s.Keeps t [cmdKey] keep)) ∧
      (∀ c o, placeOf at0 = .sync c o → o < 0x800 →
        Does (.trowelPoke l) (fun s => may s ∧ s.running c = false) (fun s t => done s t ∧ t.tie c (o / 8) = x % 2 ^ 64 ∧
          (∀ d k, d ≠ c ∨ k ≠ o / 8 → t.tie d k = s.tie d k) ∧ s.Keeps t [cmdKey] fun s => { keep s with cores := [] }) ∧
        Does (.trowelPoke l) (fun s => may s ∧ s.running c = true)
          (fun s t => done s t ∧ t.Detects 0x0700 c [] ∧ s.Keeps t [cmdKey] keep)) ∧
      (∀ q, placeOf at0 = .page q → Does (.trowelPoke l) may
        (fun s t => exec (.registerWrite .trowel at0 x)
          { s.bumpD Reg.DEBUG_TROWEL_CMDS 1 with
            dbg := { s.dbg with lines := [num [at0, x]], err := 0 }
            detected := s.detected ++ [⟨0x0D03, noUnit, [at0, x], s.now, 0, false⟩] } = .next t))) ∧
    (told ['s', 'e', 't', '-', 't', 'i', 'e'] 3 3 →
      let k := v.getD 1 0
      let x := v.getD 2 0;
      Does (.trowelSetTie l) (fun s => runs s ∧ s.debugAllowed = false) (fun s t => fails s t 5) ∧
      Does (.trowelSetTie l) (fun s => runs s ∧ s.debugAllowed = true ∧ (1024 ≤ at0 ∨ 256 ≤ k)) (fun s t => fails s t 4) ∧
      Does (.trowelSetTie l)
        (fun s => runs s ∧ s.debugAllowed = true ∧ at0 < 1024 ∧ k < 256 ∧ x < 2 ^ 64 ∧ s.coreAlive at0 = true ∧ s.clocksRun = true ∧
          ∀ y ∈ s.sync.slots, ¬ (y.req.home = at0 ∧ y.req.tie = k))
        (fun s t => t.tie at0 k = x ∧ t.dbg.lines = [num [s.tie at0 k, x]] ∧ t.dbg.err = 0 ∧ owes s t 0 ∧ t.df Reg.ARCH_DONE = 1 ∧
          t.Detects 0x0D03 at0 [k, x] ∧ t.Detects 0x0710 at0 [0, k, s.tie at0 k, x] ∧
          (∀ d j, d ≠ at0 ∨ j ≠ k → t.tie d j = s.tie d j) ∧ t.mem = s.mem ∧ t.net = s.net)) ∧
    (told ['d', 'u', 'm', 'p'] 1 1 →
      Does (.trowelDump l) (fun s => runs s ∧ s.df Reg.ARCH_DUMP_BUSY = 1) (fun s t => fails s t 7) ∧
      Does (.trowelDump l) (fun s => runs s ∧ s.df Reg.ARCH_DUMP_BUSY = 0 ∧ (at0 % 4096 ≠ 0 ∨ yardSize < at0 + 0x600800)) (fun s t => fails s t 4) ∧
      Does (.trowelDump l) (fun s => runs s ∧ s.df Reg.ARCH_DUMP_BUSY = 0 ∧ at0 % 4096 = 0 ∧ at0 + 0x600800 ≤ yardSize)
        (fun s t => owes s t 1 ∧ t.df Reg.ARCH_DUMP_BUSY = 1 ∧ t.df Reg.ARCH_DUMP_BASE = at0 ∧
          s.Keeps t (cmdKey :: dieKeys [Reg.ARCH_DUMP_BUSY, Reg.ARCH_DUMP_BASE]) noDebug)) ∧
    (told ['f', 'r', 'e', 'e', 'z', 'e'] 0 0 →
      let drives (s : State) : List Nat := if s.dbg.drives.contains 2 then s.dbg.drives else s.dbg.drives ++ [2];
      Does (.trowelFreeze l) (fun s => ready s ∧ s.debugAllowed = false) (fun s t => fails s t 5) ∧
      Does (.trowelFreeze l) (fun s => runs s ∧ s.debugAllowed = true)
        (fun s t => t.dbg = { s.dbg with drives := drives s, owed := 2 } ∧ owes s t 2 ∧ s.Keeps t [cmdKey] noDebug) ∧
      Does (.trowelFreeze l) (fun s => ready s ∧ s.frozen = true ∧ s.debugAllowed = true)
        (fun s t => t = { s with dbg := { s.dbg with drives := drives s, lines := [[.text "frozen"]], err := 0 } })) ∧
    (told ['t', 'h', 'a', 'w'] 0 0 → ∀ held,
      let d (s : State) : Debug := { s.dbg with drives := [], releaser := 2, lines := [[.text (if held then "held" else "released")]], err := 0 };
      Does (.trowelThaw held l) runs
        (fun s t => t.dbg = d s ∧ s.Counts t Reg.DEBUG_TROWEL_CMDS 0 0 1 ∧ s.Keeps t [cmdKey] noDebug) ∧
      Does (.trowelThaw held l) (fun s => ready s ∧ s.frozen = true) (fun s t => t = { s with dbg := d s })))

/-- The messages of the sideband and their responses, private reads, and the CCCs (R441–R444). The order of checks in a frame and the byte order
of CCC answers are the model's (notes/assumptions/44.md, 45.md).
exec answers a next state for every state that meets the conditions: registerWrite, envelopeTarget, telemetry, sbRegWrite, sbRegRead, sbEnvelope,
sbRailDone, sbLedgerRead, setdasa, setmwl, setmrl, sbPrivateRead, enec, disec, rstdaa, getmwl, getmrl, getpid, getbcr, getdcr, getstatus. -/
def Obligations.Sideband : Prop :=
  let answered (s : State) (status tag : Nat) (l : List Byte) : State := { s with side := { s.side with resp := some (responseFrame status tag l) } }
  let field (f : List Byte) (i n : Nat) : Nat := ofBytes ((f.drop i).take n)
  let sum (f : List Byte) : Nat := (f.map (·.toNat)).foldl (· + ·) 0
  let pages (s : State) (a n : Nat) : Prop := a % 8 = 0 ∧ (∀ i < n, pageAt (a + 8 * i) ≠ none) ∧ s.accessStatus a (8 * n) = 0
  let badAddr (s t : State) (a n tag : Nat) : Prop := t.side = (answered s 4 tag []).side ∧
    (s.accessStatus a (8 * n) = 1 → s.Notes t 0x0001 noUnit []) ∧
    (∀ c, windowOf a = some c → s.accessStatus a (8 * n) = 2 → s.Notes t 0x0002 c []) ∧
    t.net = { s.net with rejections := s.net.rejections + if s.accessStatus a (8 * n) = 1 then 1 else 0 } ∧
    s.Keeps t [] fun s => exceptSide { s with net := Net.init }
  (∀ x ∈ [(Instr.sbRegWrite, 1), (Instr.sbRegRead, 2), (Instr.sbEnvelope, 3), (Instr.telemetry, 4), (Instr.sbRailDone, 5), (Instr.sbLedgerRead, 6)],
    ∀ f : List Byte,
      let op := field f 0 1
      let len := field f 2 2
      let heard (s : State) : Prop := s.frozen = false ∧ s.df Reg.BOOT_PHASE ≠ 0 ∧ f.length ≤ s.side.mwl;
      Does (x.1 f) (fun s => heard s ∧ (op = 0 ∨ 6 < op)) (fun s t => t = answered s 1 (field f 1 1) []) ∧
      Does (x.1 f) (fun s => heard s ∧ op = x.2 ∧ (lenFits op len = false ∨ f.length ≠ len + 5)) (fun s t => t = answered s 2 (field f 1 1) []) ∧
      Does (x.1 f) (fun s => heard s ∧ op = x.2 ∧ lenFits op len = true ∧ f.length = len + 5 ∧ sum f % 256 ≠ 0)
        (fun s t => t = answered s 3 (field f 1 1) []) ∧
      Does (x.1 f) (fun s => s.frozen = true ∨ s.df Reg.BOOT_PHASE = 0) (fun s t => t = s)) ∧
  (∀ a tag (ws : List Nat), a < 2 ^ 64 → (∀ w ∈ ws, w < 2 ^ 64) →
    let p := toBytes 8 a ++ ws.flatMap (toBytes 8)
    let m := Instr.sbRegWrite (messageFrame 1 tag p);
    Does m (fun s => s.Receives 1 tag p ∧ pages s a ws.length)
      (fun s t => ∃ trail : List State, trail.length = ws.length + 1 ∧ trail.head? = some (answered s 0 tag []) ∧ trail.getLast? = some t ∧
        ∀ i u v, i < ws.length → trail[i]? = some u → trail[i + 1]? = some v →
          u.frozen = false → exec (.registerWrite .sideband (a + 8 * i) (ws.getD i 0)) u = .next v) ∧
    Does m (fun s => s.Receives 1 tag p ∧ ¬ pages s a ws.length) (fun s t => badAddr s t a ws.length tag)) ∧
  (∀ a n tag, a < 2 ^ 64 → n < 256 →
    let p := toBytes 8 a ++ toBytes 1 n
    let m := Instr.sbRegRead (messageFrame 2 tag p);
    Does m (fun s => s.Receives 2 tag p ∧ 1 ≤ n ∧ n ≤ 32 ∧ pages s a n)
      (fun s t => t.side = (answered s 0 tag ((List.range n).flatMap fun i => toBytes 8 (s.wordAt (a + 8 * i)))).side ∧
        ((∀ i < n, ∀ d o, pageAt (a + 8 * i) = some (.die d o) → d < 128 ∨ 256 ≤ d) → t.detected = s.detected ∧ t.ledger = s.ledger) ∧
        s.Keeps t [] fun s => { exceptSide s with ledger := { s.ledger with reported := [] } }) ∧
    Does m (fun s => s.Receives 2 tag p ∧ (n = 0 ∨ 32 < n)) (fun s t => t = answered s 5 tag []) ∧
    Does m (fun s => s.Receives 2 tag p ∧ 1 ≤ n ∧ n ≤ 32 ∧ ¬ pages s a n) (fun s t => badAddr s t a n tag)) ∧
  (∀ v tag, v < 2 ^ 64 →
    Does (.sbEnvelope (messageFrame 3 tag (toBytes 8 v))) (fun s => s.Receives 3 tag (toBytes 8 v))
      (fun s t => exec (.envelopeTarget .sideband v) (answered s 0 tag []) = .next t)) ∧
  (∀ rail setting tag, rail < 256 → setting < 2 ^ 16 →
    let p := toBytes 1 rail ++ toBytes 2 setting;
    Does (.sbRailDone (messageFrame 5 tag p)) (fun s => s.Receives 5 tag p ∧ rail < 2)
      (fun s t => t.side = { (answered s 0 tag []).side with rails := s.side.rails.filter fun r => decide (r.rail ≠ rail ∨ r.setting ≠ setting) } ∧
        { t with side := s.side } = s) ∧
    Does (.sbRailDone (messageFrame 5 tag p)) (fun s => s.Receives 5 tag p ∧ 2 ≤ rail) (fun s t => t = answered s 5 tag [])) ∧
  (∀ q tag, q < 2 ^ 48 →
    let p := toBytes 6 q
    let m := Instr.sbLedgerRead (messageFrame 6 tag p)
    let k := q % 8192
    let held (s : State) : Prop := s.Receives 6 tag p ∧ q < s.df Reg.LEDGER_HEAD_SEQ ∧ s.df Reg.LEDGER_HEAD_SEQ ≤ q + 8192
    let stored (s : State) (w : Nat) : Nat := Sparse.get 0 s.ledger.slots (8 * k + w);
    Does m (fun s => held s ∧ k ∉ s.ledger.bad)
      (fun s t => t = answered s 0 tag ((List.range 8).flatMap fun w => toBytes 8 (stored s w))) ∧
    Does m (fun s => held s ∧ k ∈ s.ledger.bad ∧ k ∉ s.ledger.reported ∧ bit (stored s 2) 51 = false)
      (fun s t => t.side = (answered s 0 tag ((List.range 8).flatMap fun w => toBytes 8 (stored s w + if w = 2 then 2 ^ 51 else 0))).side ∧
        t.ledger = { s.ledger with reported := s.ledger.reported ++ [k] } ∧ s.Notes t 0x0E02 noUnit [k] ∧
        s.Keeps t [] fun s => { exceptSide s with ledger := Ledger.init }) ∧
    Does m (fun s => s.Receives 6 tag p ∧ (s.df Reg.LEDGER_HEAD_SEQ ≤ q ∨ q + 8192 < s.df Reg.LEDGER_HEAD_SEQ))
      (fun s t => t = answered s 6 tag [])) ∧
  (let live (s : State) : Prop := s.frozen = false
   let drives (i : Instr) (P : List Byte → State → Prop) : Prop :=
    Does i live fun s t => ∃ l, t = { s with side := { s.side with out := some l } } ∧ P l s;
   (∀ r, Does .sbPrivateRead (fun s => live s ∧ s.side.resp = some r)
    (fun s t => t = { s with side := { s.side with out := some (r.take s.side.mrl) } })) ∧
   Does .sbPrivateRead (fun s => live s ∧ s.side.resp = none) (fun s t => t = { s with side := { s.side with out := none } }) ∧
   Does .enec live (fun s t =>
    let of (m : Nat) := s.side.pending.filter fun x => decide (x.1 = m);
    t = { s with side := { s.side with enabled := true, pending := [], raised := s.side.raised ++ (of 1 ++ of 2 ++ of 3) } }) ∧
   Does .disec live (fun s t => t = { s with side := { s.side with enabled := false } }) ∧
   Does .rstdaa live (fun s t => t = { s with side := { s.side with addr := none } }) ∧
   (∀ static dyn, dyn < 128 →
    Does (.setdasa static dyn) (fun s => live s ∧ static = 0x30 + s.df Reg.PLACE_POS_STRAP)
      (fun s t => t = { s with side := { s.side with addr := some dyn } }) ∧
    Does (.setdasa static dyn) (fun s => live s ∧ static ≠ 0x30 + s.df Reg.PLACE_POS_STRAP) (fun s t => t = s)) ∧
   (∀ n, n < 2 ^ 16 → Does (.setmwl n) live (fun s t => t = { s with side := { s.side with mwl := n } }) ∧
    Does (.setmrl n) live (fun s t => t = { s with side := { s.side with mrl := n } })) ∧
   drives .getmwl (fun l s => l.length = 2 ∧ ofBytes l.reverse = s.side.mwl % 2 ^ 16) ∧
   drives .getmrl (fun l s => l.length = 2 ∧ ofBytes l.reverse = s.side.mrl % 2 ^ 16) ∧
   drives .getpid (fun l s => l.length = 6 ∧ ofBytes l.reverse = 2 ^ 32 + s.df Reg.MARK_SERIAL % 2 ^ 32) ∧
   drives .getbcr (fun l _ => l = [0x06#8]) ∧ drives .getdcr (fun l _ => l = [0x00#8]) ∧ drives .getstatus (fun l _ => l.length = 2))

/-- A freeze stops every clock that a PLL derives: a command of a clocked block changes nothing, and no step but a thaw, a reset or a change of supply
changes what those clocks hold (R404, R405). That an idle step changes nothing in a freeze rests on notes/assumptions/1.md, that a refused command
changes nothing on notes/assumptions/8.md. -/
def Obligations.FreezeHoldsState : Prop :=
  (∀ (i : Instr) (s : State), s.frozen = true → worksFrozen i = false → exec i s = .next s) ∧
  (∀ s : State, s.frozen = true → (∀ i ∈ s.pending.head?, breaksFreeze i = false) → ∃ t, step s = .next t ∧ s.Still t) ∧
  (∀ s : State, s.frozen = true → s.pending = [] → step s = .next s)

/-- Every step keeps every store in canonical form, so equal memories, registers and cores are equal data. -/
def Obligations.StepKeepsForm : Prop :=
  ∀ s t : State, s.Good → step s = .next t → t.Good

/-- The state after reset is in canonical form: nothing is listed, so every register reads as its reset value. The zero of memory is the model's
choice (notes/assumptions/2.md), as are reset values the spec does not state (notes/assumptions/3.md). -/
def Obligations.ResetForm : Prop :=
  State.reset.Good ∧ State.reset.pending = [] ∧ (∀ r u i, State.reset.rd r u i = r.resetOf u) ∧ (∀ a, State.reset.byteAt a = Memory.blank) ∧
  State.reset.df Reg.BOOT_PHASE = 0
end

