-- ==== Sys2Proof/Laws/Sparse.lean ====
section
/-!
SUPPORT. Laws of sparse stores: what a lookup finds after a change, and the canonical form of the memory, which every memory operation keeps.
-/

namespace Sys2Proof.Machine

/-- A key that is not listed looks up as the unlisted value. -/
theorem Sparse.get_eq_of_lt {α : Type} (d : α) (m : Sparse α) (x : Nat) (h : ∀ y ∈ m, x < y.1) : Sparse.get d m x = d := by
  induction m with
  | nil => rfl
  | cons y r ih =>
    obtain ⟨k, v⟩ := y
    have hk : x < k := h (k, v) (by simp)
    have hne : k ≠ x := by omega
    simp only [Sparse.get, if_neg hne]
    exact ih fun z hz => h z (by simp [hz])

/-- Setting a key keeps every listed key at or above a bound. -/
theorem Sparse.put_keys {α : Type} [DecidableEq α] (d : α) (m : Sparse α) (x : Nat) (w : α) :
    ∀ y ∈ Sparse.put d m x w, y.1 = x ∨ y ∈ m := by
  induction m with
  | nil =>
    intro y hy
    simp only [Sparse.put] at hy
    split at hy <;> simp_all
  | cons z r ih =>
    obtain ⟨k, v⟩ := z
    intro y hy
    simp only [Sparse.put] at hy
    split at hy
    · split at hy
      · exact Or.inr hy
      · rcases List.mem_cons.mp hy with rfl | hy
        · exact Or.inl rfl
        · exact Or.inr hy
    · split at hy
      · split at hy
        · exact Or.inr (List.mem_cons_of_mem _ hy)
        · rcases List.mem_cons.mp hy with rfl | hy
          · exact Or.inl rfl
          · exact Or.inr (List.mem_cons_of_mem _ hy)
      · rcases List.mem_cons.mp hy with rfl | hy
        · exact Or.inr (by simp)
        · rcases ih y hy with h | h
          · exact Or.inl h
          · exact Or.inr (List.mem_cons_of_mem _ h)

theorem Sparse.put_sorted {α : Type} [DecidableEq α] (d : α) (m : Sparse α) (x : Nat) (w : α) (h : m.sorted) :
    Sparse.sorted (Sparse.put d m x w) := by
  induction m with
  | nil => simp only [Sparse.put]; split <;> simp [Sparse.sorted]
  | cons z r ih =>
    obtain ⟨k, v⟩ := z
    have hr := List.pairwise_cons.mp h
    simp only [Sparse.put]
    split
    · rename_i hx
      split
      · exact h
      · refine List.pairwise_cons.mpr ⟨?_, h⟩
        intro y hy
        rcases List.mem_cons.mp hy with rfl | hy
        · exact hx
        · exact Nat.lt_trans hx (hr.1 y hy)
    · split
      · rename_i hx
        split
        · exact hr.2
        · exact List.pairwise_cons.mpr ⟨fun y hy => hx ▸ hr.1 y hy, hr.2⟩
      · rename_i h1 h2
        refine List.pairwise_cons.mpr ⟨?_, ih hr.2⟩
        intro y hy
        rcases Sparse.put_keys d r x w y hy with e | e
        · show k < y.1
          omega
        · exact hr.1 y e

/-- A lookup after a change: the new value at the key, every other key as before. -/
theorem Sparse.get_put {α : Type} [DecidableEq α] (d : α) (m : Sparse α) (x : Nat) (w : α) (h : m.sorted) (y : Nat) :
    Sparse.get d (Sparse.put d m x w) y = if y = x then w else Sparse.get d m y := by
  induction m with
  | nil =>
    simp only [Sparse.put]
    split
    · rename_i hw; subst hw; split <;> rfl
    · simp only [Sparse.get]; by_cases e : y = x
      · subst e; simp
      · simp [e, Ne.symm e]
  | cons z r ih =>
    obtain ⟨k, v⟩ := z
    have hr := List.pairwise_cons.mp h
    simp only [Sparse.put]
    split
    · rename_i hx
      have hge : Sparse.get d ((k, v) :: r) x = d := by
        refine Sparse.get_eq_of_lt d _ x ?_
        intro q hq
        rcases List.mem_cons.mp hq with rfl | hq
        · exact hx
        · exact Nat.lt_trans hx (hr.1 q hq)
      split
      · rename_i hw
        by_cases e : y = x
        · subst e; rw [hge]; simp [hw]
        · simp [e]
      · by_cases e : y = x
        · subst e; simp [Sparse.get]
        · have : ¬ x = y := fun h => e h.symm
          rw [show Sparse.get d ((x, w) :: (k, v) :: r) y = Sparse.get d ((k, v) :: r) y from by simp [Sparse.get, this]]
          simp [e]
    · split
      · rename_i h1 hx
        subst hx
        have hg : Sparse.get d r k = d := Sparse.get_eq_of_lt d r k fun q hq => hr.1 q hq
        split
        · rename_i hw
          by_cases e : y = k
          · subst e; simp [hg, hw]
          · have : ¬ k = y := fun h => e h.symm
            simp [Sparse.get, e, this]
        · by_cases e : y = k
          · subst e; simp [Sparse.get]
          · have : ¬ k = y := fun h => e h.symm
            simp [Sparse.get, e, this]
      · rename_i h1 h2
        by_cases e : k = y
        · subst e; simp [Sparse.get, h2]
        · simp only [Sparse.get, e, if_false]; exact ih hr.2

theorem Sparse.filter_sorted {α : Type} (m : Sparse α) (p : Nat × α → Bool) (h : m.sorted) : Sparse.sorted (m.filter p) := List.Pairwise.filter _ h

/-- Keys other than the one set look up as before. -/
theorem Sparse.get_put_ne {α : Type} [DecidableEq α] (d e : α) (m : Sparse α) (x y : Nat) (w : α) (h : y ≠ x) :
    Sparse.get e (Sparse.put d m x w) y = Sparse.get e m y := by
  have h' := Ne.symm h
  induction m with
  | nil =>
    simp only [Sparse.put]
    split <;> simp [Sparse.get, h']
  | cons z r ih =>
    obtain ⟨k, v⟩ := z
    simp only [Sparse.put]
    split
    · split <;> simp [Sparse.get, h']
    · split
      · rename_i h1 h2
        subst h2
        split <;> simp [Sparse.get, h']
      · simp only [Sparse.get]; split
        · rfl
        · exact ih

/-! The memory. -/

/-- The canonical form: rising addresses and no blank byte listed. -/
theorem Memory.wf_iff (m : List Host.Cell) :
    Memory.wf m = true ↔ Sparse.sorted m ∧ ∀ x ∈ m, x.2 ≠ Memory.blank := by
  induction m with
  | nil => simp [Memory.wf, Sparse.sorted]
  | cons x r ih =>
    obtain ⟨a, b⟩ := x
    cases r with
    | nil => simp [Memory.wf, Sparse.sorted]
    | cons y r =>
      obtain ⟨a', b'⟩ := y
      simp only [Memory.wf, Bool.and_eq_true, decide_eq_true_eq]
      rw [ih]
      constructor
      · rintro ⟨⟨h1, h2⟩, h3, h4⟩
        refine ⟨List.pairwise_cons.mpr ⟨?_, h3⟩, ?_⟩
        · intro z hz
          rcases List.mem_cons.mp hz with rfl | hz
          · exact h2
          · exact Nat.lt_trans h2 ((List.pairwise_cons.mp h3).1 z hz)
        · intro z hz
          rcases List.mem_cons.mp hz with rfl | hz
          · exact h1
          · exact h4 z hz
      · rintro ⟨h1, h2⟩
        have h3 := List.pairwise_cons.mp h1
        exact ⟨⟨h2 (a, b) (by simp), h3.1 (a', b') (by simp)⟩, h3.2, fun z hz => h2 z (List.mem_cons_of_mem _ hz)⟩

theorem Sparse.put_ne {α : Type} [DecidableEq α] (d : α) (m : Sparse α) (x : Nat) (w : α) (h : ∀ y ∈ m, y.2 ≠ d) :
    ∀ y ∈ Sparse.put d m x w, y.2 ≠ d := by
  induction m with
  | nil =>
    intro y hy
    simp only [Sparse.put] at hy
    split at hy <;> simp_all
  | cons z r ih =>
    obtain ⟨k, v⟩ := z
    have hr : ∀ y ∈ r, y.2 ≠ d := fun y hy => h y (List.mem_cons_of_mem _ hy)
    intro y hy
    simp only [Sparse.put] at hy
    split at hy
    · split at hy
      · exact h y hy
      · rcases List.mem_cons.mp hy with rfl | hy
        · assumption
        · exact h y hy
    · split at hy
      · split at hy
        · exact hr y hy
        · rcases List.mem_cons.mp hy with rfl | hy
          · assumption
          · exact hr y hy
      · rcases List.mem_cons.mp hy with rfl | hy
        · exact h (k, v) (by simp)
        · exact ih hr y hy

/-- Writing a byte keeps the canonical form. -/
theorem Memory.put_wf (m : List Host.Cell) (a : Nat) (b : Byte) (h : Memory.wf m = true) :
    Memory.wf (Sparse.put Memory.blank m a b) = true := by
  rw [Memory.wf_iff] at *
  exact ⟨Sparse.put_sorted _ _ _ _ h.1, Sparse.put_ne _ _ _ _ h.2⟩

/-- Dropping bytes keeps the canonical form. -/
theorem Memory.filter_wf (m : List Host.Cell) (p : Host.Cell → Bool) (h : Memory.wf m = true) : Memory.wf (m.filter p) = true := by
  rw [Memory.wf_iff] at *
  exact ⟨List.Pairwise.filter _ h.1, fun x hx => h.2 x (List.mem_filter.mp hx).1⟩

/-- A read after a write: the byte written there, every other byte as before. -/
theorem Memory.byteAt_pokeByte (s : State) (a : Nat) (b : Byte) (h : Memory.wf s.mem = true) (x : Nat) :
    (s.pokeByte a b).byteAt x = if x = a then b else s.byteAt x := by
  simp only [State.byteAt, State.pokeByte]
  exact Sparse.get_put _ _ _ _ ((Memory.wf_iff _).mp h).1 x

theorem State.pokeByte_wf (s : State) (a : Nat) (b : Byte) (h : Memory.wf s.mem = true) : Memory.wf (s.pokeByte a b).mem = true :=
  Memory.put_wf _ _ _ h

theorem State.pokeBytes_wf (s : State) (a : Nat) (bs : List Byte) (h : Memory.wf s.mem = true) :
    Memory.wf (s.pokeBytes a bs).mem = true := by
  induction bs generalizing s a with
  | nil => exact h
  | cons b r ih => exact ih _ _ (State.pokeByte_wf s a b h)

theorem State.store_wf (s : State) (a : Nat) (bs : List Byte) (h : Memory.wf s.mem = true) : Memory.wf (s.store a bs).mem = true :=
  State.pokeBytes_wf s a bs h

end Sys2Proof.Machine
end

