-- ==== Sys2Proof/Laws/Good.lean ====
section
/-!
SUPPORT. A check that a state given by its data is in canonical form.
-/

namespace Sys2Proof.Machine

/-- Each key is below the next one. -/
def Sparse.sortedB {α : Type} : Sparse α → Bool
  | [] => true
  | [_] => true
  | x :: y :: r => decide (x.1 < y.1) && Sparse.sortedB (y :: r)

theorem Sparse.sorted_of_sortedB {α : Type} (m : Sparse α) (h : Sparse.sortedB m = true) : Sparse.sorted m := by
  induction m with
  | nil => exact .nil
  | cons x r ih =>
    cases r with
    | nil => exact List.pairwise_singleton _ x
    | cons y r =>
      simp only [Sparse.sortedB, Bool.and_eq_true, decide_eq_true_eq] at h
      have hr := ih h.2
      refine .cons (fun z hz => ?_) hr
      rcases List.mem_cons.mp hz with rfl | hz
      · exact h.1
      · exact Nat.lt_trans h.1 (List.rel_of_pairwise_cons hr hz)

def Core.canonB (k : Core) : Bool :=
  Sparse.sortedB k.acc && Sparse.sortedB k.fbuf && Sparse.sortedB k.bbuf && Sparse.sortedB k.tile && Sparse.sortedB k.segs &&
    Sparse.sortedB k.ties && Sparse.sortedB k.windows

theorem Core.canon_of_canonB (k : Core) (h : k.canonB = true) : k.Canon := by
  simp only [Core.canonB, Bool.and_eq_true] at h
  obtain ⟨⟨⟨⟨⟨⟨h1, h2⟩, h3⟩, h4⟩, h5⟩, h6⟩, h7⟩ := h
  exact ⟨Sparse.sorted_of_sortedB _ h1, Sparse.sorted_of_sortedB _ h2, Sparse.sorted_of_sortedB _ h3, Sparse.sorted_of_sortedB _ h4,
    Sparse.sorted_of_sortedB _ h5, Sparse.sorted_of_sortedB _ h6, Sparse.sorted_of_sortedB _ h7⟩

def State.canonB (s : State) : Bool := Memory.wf s.mem && Sparse.sortedB s.regs && Sparse.sortedB s.cores

theorem State.canon_of_canonB (s : State) (h : s.canonB = true) : s.Canon := by
  simp only [State.canonB, Bool.and_eq_true] at h
  exact ⟨h.1.1, Sparse.sorted_of_sortedB _ h.1.2, Sparse.sorted_of_sortedB _ h.2⟩

/-- A looked-up value is the unlisted value or stands in the list. -/
theorem Sparse.get_mem {α : Type} (d : α) (m : Sparse α) (x : Nat) : Sparse.get d m x = d ∨ ∃ y ∈ m, Sparse.get d m x = y.2 := by
  induction m with
  | nil => exact .inl rfl
  | cons y r ih =>
    unfold Sparse.get
    split
    · exact .inr ⟨y, List.mem_cons_self, rfl⟩
    · rcases ih with h | ⟨z, hz, h⟩
      · exact .inl h
      · exact .inr ⟨z, List.mem_cons_of_mem _ hz, h⟩

def State.tidyB (s : State) : Bool :=
  Sparse.sortedB s.force && Sparse.sortedB s.marks && Sparse.sortedB s.scrubs && Sparse.sortedB s.ports && Sparse.sortedB s.sync.arches && Sparse.sortedB s.sync.links &&
    Sparse.sortedB s.net.portUsed && Sparse.sortedB s.net.meshUsed && Sparse.sortedB s.net.forced && Sparse.sortedB s.ring.hubs && Sparse.sortedB s.power.stretched &&
    Sparse.sortedB s.power.window && Sparse.sortedB s.ledger.slots && Sparse.sortedB s.ledger.counts && Sparse.sortedB s.ledger.muted &&
    Sparse.sortedB s.dbg.trace && Sparse.sortedB s.boot.staging && Sparse.sortedB s.boot.sites && Sparse.sortedB s.boot.stores && Sparse.sortedB s.boot.fused && Sparse.sortedB s.boot.fusedSpares && (s.ports.all fun x => Sparse.sortedB x.2.owed) &&
    (match s.ops.rebond with
      | some r => Sparse.sortedB r.owners
      | none => true)

theorem State.tidy_of_tidyB (s : State) (h : s.tidyB = true) : s.Tidy := by
  simp only [State.tidyB, Bool.and_eq_true] at h
  obtain ⟨⟨⟨⟨⟨⟨⟨⟨⟨⟨⟨⟨⟨⟨⟨⟨⟨⟨⟨⟨⟨⟨h1, h2⟩, h3⟩, h4⟩, h5⟩, h5b⟩, h6⟩, h7⟩, h7b⟩, h8⟩, h9⟩, h10⟩, h11⟩, h12⟩, h13⟩, h14⟩, h15⟩, h16⟩, h17⟩, h17b⟩, h17c⟩, h17d⟩, h18⟩ := h
  refine ⟨Sparse.sorted_of_sortedB _ h1, Sparse.sorted_of_sortedB _ h2, Sparse.sorted_of_sortedB _ h3, Sparse.sorted_of_sortedB _ h4,
    Sparse.sorted_of_sortedB _ h5, Sparse.sorted_of_sortedB _ h5b, Sparse.sorted_of_sortedB _ h6, Sparse.sorted_of_sortedB _ h7,
    Sparse.sorted_of_sortedB _ h7b, Sparse.sorted_of_sortedB _ h8, Sparse.sorted_of_sortedB _ h9, Sparse.sorted_of_sortedB _ h10, Sparse.sorted_of_sortedB _ h11, Sparse.sorted_of_sortedB _ h12,
    Sparse.sorted_of_sortedB _ h13, Sparse.sorted_of_sortedB _ h14, Sparse.sorted_of_sortedB _ h15, Sparse.sorted_of_sortedB _ h16,
    Sparse.sorted_of_sortedB _ h17, Sparse.sorted_of_sortedB _ h17b, Sparse.sorted_of_sortedB _ h17c, fun p => ?_, ?_⟩
  · rcases Sparse.get_mem Port.init s.ports p with e | ⟨y, hy, e⟩
    · exact Sparse.sorted_of_sortedB _ (by rw [State.port, e]; decide)
    · exact Sparse.sorted_of_sortedB _ (by rw [State.port, e]; exact List.all_eq_true.mp h17d y hy)
  intro r e
  rw [e] at h18
  exact Sparse.sorted_of_sortedB _ h18

/-- Every store is listed with rising keys. -/
def State.goodB (s : State) : Bool := s.canonB && s.tidyB && s.cores.all fun x => x.2.canonB

theorem State.good_of_goodB (s : State) (h : s.goodB = true) : s.Good := by
  simp only [State.goodB, Bool.and_eq_true, List.all_eq_true] at h
  refine ⟨State.canon_of_canonB _ h.1.1, State.tidy_of_tidyB _ h.1.2, fun c => ?_⟩
  rcases Sparse.get_mem Core.init s.cores c with e | ⟨y, hy, e⟩
  · exact Core.canon_of_canonB _ (by rw [State.core, e]; decide)
  · exact Core.canon_of_canonB _ (by rw [State.core, e]; exact h.2 y hy)

end Sys2Proof.Machine
end

