-- ==== Sys2Proof/Laws/State.lean ====
section
/-!
SUPPORT. What the elementary updates of the state leave unchanged: one lemma per field and update.
-/

namespace Sys2Proof.Machine

@[simp] theorem State.wr_pending (s : State) (r : Row) (u i v : Nat) : (s.wr r u i v).pending = s.pending := rfl
@[simp] theorem State.wr_force (s : State) (r : Row) (u i v : Nat) : (s.wr r u i v).force = s.force := rfl
@[simp] theorem State.wr_mem (s : State) (r : Row) (u i v : Nat) : (s.wr r u i v).mem = s.mem := rfl
@[simp] theorem State.wr_marks (s : State) (r : Row) (u i v : Nat) : (s.wr r u i v).marks = s.marks := rfl
@[simp] theorem State.wr_cores (s : State) (r : Row) (u i v : Nat) : (s.wr r u i v).cores = s.cores := rfl
@[simp] theorem State.wr_detected (s : State) (r : Row) (u i v : Nat) : (s.wr r u i v).detected = s.detected := rfl
@[simp] theorem State.wr_task (s : State) (r : Row) (u i v : Nat) : (s.wr r u i v).task = s.task := rfl
@[simp] theorem State.wr_frozen (s : State) (r : Row) (u i v : Nat) : (s.wr r u i v).frozen = s.frozen := rfl
@[simp] theorem State.wr_sync (s : State) (r : Row) (u i v : Nat) : (s.wr r u i v).sync = s.sync := rfl
@[simp] theorem State.wr_net (s : State) (r : Row) (u i v : Nat) : (s.wr r u i v).net = s.net := rfl
@[simp] theorem State.wr_slip (s : State) (r : Row) (u i v : Nat) : (s.wr r u i v).slip = s.slip := rfl
@[simp] theorem State.wr_ops (s : State) (r : Row) (u i v : Nat) : (s.wr r u i v).ops = s.ops := rfl
@[simp] theorem State.wr_repairs (s : State) (r : Row) (u i v : Nat) : (s.wr r u i v).repairs = s.repairs := rfl
@[simp] theorem State.wr_scrubs (s : State) (r : Row) (u i v : Nat) : (s.wr r u i v).scrubs = s.scrubs := rfl
@[simp] theorem State.wr_ports (s : State) (r : Row) (u i v : Nat) : (s.wr r u i v).ports = s.ports := rfl
@[simp] theorem State.wr_ring (s : State) (r : Row) (u i v : Nat) : (s.wr r u i v).ring = s.ring := rfl
@[simp] theorem State.wr_power (s : State) (r : Row) (u i v : Nat) : (s.wr r u i v).power = s.power := rfl
@[simp] theorem State.wr_ledger (s : State) (r : Row) (u i v : Nat) : (s.wr r u i v).ledger = s.ledger := rfl
@[simp] theorem State.wr_side (s : State) (r : Row) (u i v : Nat) : (s.wr r u i v).side = s.side := rfl
@[simp] theorem State.wr_dbg (s : State) (r : Row) (u i v : Nat) : (s.wr r u i v).dbg = s.dbg := rfl
@[simp] theorem State.wr_boot (s : State) (r : Row) (u i v : Nat) : (s.wr r u i v).boot = s.boot := rfl
@[simp] theorem State.wr_attest (s : State) (r : Row) (u i v : Nat) : (s.wr r u i v).attest = s.attest := rfl

@[simp] theorem State.setC_pending (s : State) (r : Row) (c v : Nat) : (s.setC r c v).pending = s.pending := rfl
@[simp] theorem State.setC_force (s : State) (r : Row) (c v : Nat) : (s.setC r c v).force = s.force := rfl
@[simp] theorem State.setC_mem (s : State) (r : Row) (c v : Nat) : (s.setC r c v).mem = s.mem := rfl
@[simp] theorem State.setC_marks (s : State) (r : Row) (c v : Nat) : (s.setC r c v).marks = s.marks := rfl
@[simp] theorem State.setC_cores (s : State) (r : Row) (c v : Nat) : (s.setC r c v).cores = s.cores := rfl
@[simp] theorem State.setC_detected (s : State) (r : Row) (c v : Nat) : (s.setC r c v).detected = s.detected := rfl
@[simp] theorem State.setC_task (s : State) (r : Row) (c v : Nat) : (s.setC r c v).task = s.task := rfl
@[simp] theorem State.setC_frozen (s : State) (r : Row) (c v : Nat) : (s.setC r c v).frozen = s.frozen := rfl
@[simp] theorem State.setC_sync (s : State) (r : Row) (c v : Nat) : (s.setC r c v).sync = s.sync := rfl
@[simp] theorem State.setC_net (s : State) (r : Row) (c v : Nat) : (s.setC r c v).net = s.net := rfl
@[simp] theorem State.setC_slip (s : State) (r : Row) (c v : Nat) : (s.setC r c v).slip = s.slip := rfl
@[simp] theorem State.setC_ops (s : State) (r : Row) (c v : Nat) : (s.setC r c v).ops = s.ops := rfl
@[simp] theorem State.setC_repairs (s : State) (r : Row) (c v : Nat) : (s.setC r c v).repairs = s.repairs := rfl
@[simp] theorem State.setC_scrubs (s : State) (r : Row) (c v : Nat) : (s.setC r c v).scrubs = s.scrubs := rfl
@[simp] theorem State.setC_ports (s : State) (r : Row) (c v : Nat) : (s.setC r c v).ports = s.ports := rfl
@[simp] theorem State.setC_ring (s : State) (r : Row) (c v : Nat) : (s.setC r c v).ring = s.ring := rfl
@[simp] theorem State.setC_power (s : State) (r : Row) (c v : Nat) : (s.setC r c v).power = s.power := rfl
@[simp] theorem State.setC_ledger (s : State) (r : Row) (c v : Nat) : (s.setC r c v).ledger = s.ledger := rfl
@[simp] theorem State.setC_side (s : State) (r : Row) (c v : Nat) : (s.setC r c v).side = s.side := rfl
@[simp] theorem State.setC_dbg (s : State) (r : Row) (c v : Nat) : (s.setC r c v).dbg = s.dbg := rfl
@[simp] theorem State.setC_boot (s : State) (r : Row) (c v : Nat) : (s.setC r c v).boot = s.boot := rfl
@[simp] theorem State.setC_attest (s : State) (r : Row) (c v : Nat) : (s.setC r c v).attest = s.attest := rfl

@[simp] theorem State.setD_pending (s : State) (r : Row) (v : Nat) : (s.setD r v).pending = s.pending := rfl
@[simp] theorem State.setD_force (s : State) (r : Row) (v : Nat) : (s.setD r v).force = s.force := rfl
@[simp] theorem State.setD_mem (s : State) (r : Row) (v : Nat) : (s.setD r v).mem = s.mem := rfl
@[simp] theorem State.setD_marks (s : State) (r : Row) (v : Nat) : (s.setD r v).marks = s.marks := rfl
@[simp] theorem State.setD_cores (s : State) (r : Row) (v : Nat) : (s.setD r v).cores = s.cores := rfl
@[simp] theorem State.setD_detected (s : State) (r : Row) (v : Nat) : (s.setD r v).detected = s.detected := rfl
@[simp] theorem State.setD_task (s : State) (r : Row) (v : Nat) : (s.setD r v).task = s.task := rfl
@[simp] theorem State.setD_frozen (s : State) (r : Row) (v : Nat) : (s.setD r v).frozen = s.frozen := rfl
@[simp] theorem State.setD_sync (s : State) (r : Row) (v : Nat) : (s.setD r v).sync = s.sync := rfl
@[simp] theorem State.setD_net (s : State) (r : Row) (v : Nat) : (s.setD r v).net = s.net := rfl
@[simp] theorem State.setD_slip (s : State) (r : Row) (v : Nat) : (s.setD r v).slip = s.slip := rfl
@[simp] theorem State.setD_ops (s : State) (r : Row) (v : Nat) : (s.setD r v).ops = s.ops := rfl
@[simp] theorem State.setD_repairs (s : State) (r : Row) (v : Nat) : (s.setD r v).repairs = s.repairs := rfl
@[simp] theorem State.setD_scrubs (s : State) (r : Row) (v : Nat) : (s.setD r v).scrubs = s.scrubs := rfl
@[simp] theorem State.setD_ports (s : State) (r : Row) (v : Nat) : (s.setD r v).ports = s.ports := rfl
@[simp] theorem State.setD_ring (s : State) (r : Row) (v : Nat) : (s.setD r v).ring = s.ring := rfl
@[simp] theorem State.setD_power (s : State) (r : Row) (v : Nat) : (s.setD r v).power = s.power := rfl
@[simp] theorem State.setD_ledger (s : State) (r : Row) (v : Nat) : (s.setD r v).ledger = s.ledger := rfl
@[simp] theorem State.setD_side (s : State) (r : Row) (v : Nat) : (s.setD r v).side = s.side := rfl
@[simp] theorem State.setD_dbg (s : State) (r : Row) (v : Nat) : (s.setD r v).dbg = s.dbg := rfl
@[simp] theorem State.setD_boot (s : State) (r : Row) (v : Nat) : (s.setD r v).boot = s.boot := rfl
@[simp] theorem State.setD_attest (s : State) (r : Row) (v : Nat) : (s.setD r v).attest = s.attest := rfl

@[simp] theorem State.bump_pending (s : State) (r : Row) (u i n : Nat) : (s.bump r u i n).pending = s.pending := rfl
@[simp] theorem State.bump_force (s : State) (r : Row) (u i n : Nat) : (s.bump r u i n).force = s.force := rfl
@[simp] theorem State.bump_mem (s : State) (r : Row) (u i n : Nat) : (s.bump r u i n).mem = s.mem := rfl
@[simp] theorem State.bump_marks (s : State) (r : Row) (u i n : Nat) : (s.bump r u i n).marks = s.marks := rfl
@[simp] theorem State.bump_cores (s : State) (r : Row) (u i n : Nat) : (s.bump r u i n).cores = s.cores := rfl
@[simp] theorem State.bump_detected (s : State) (r : Row) (u i n : Nat) : (s.bump r u i n).detected = s.detected := rfl
@[simp] theorem State.bump_task (s : State) (r : Row) (u i n : Nat) : (s.bump r u i n).task = s.task := rfl
@[simp] theorem State.bump_frozen (s : State) (r : Row) (u i n : Nat) : (s.bump r u i n).frozen = s.frozen := rfl
@[simp] theorem State.bump_sync (s : State) (r : Row) (u i n : Nat) : (s.bump r u i n).sync = s.sync := rfl
@[simp] theorem State.bump_net (s : State) (r : Row) (u i n : Nat) : (s.bump r u i n).net = s.net := rfl
@[simp] theorem State.bump_slip (s : State) (r : Row) (u i n : Nat) : (s.bump r u i n).slip = s.slip := rfl
@[simp] theorem State.bump_ops (s : State) (r : Row) (u i n : Nat) : (s.bump r u i n).ops = s.ops := rfl
@[simp] theorem State.bump_repairs (s : State) (r : Row) (u i n : Nat) : (s.bump r u i n).repairs = s.repairs := rfl
@[simp] theorem State.bump_scrubs (s : State) (r : Row) (u i n : Nat) : (s.bump r u i n).scrubs = s.scrubs := rfl
@[simp] theorem State.bump_ports (s : State) (r : Row) (u i n : Nat) : (s.bump r u i n).ports = s.ports := rfl
@[simp] theorem State.bump_ring (s : State) (r : Row) (u i n : Nat) : (s.bump r u i n).ring = s.ring := rfl
@[simp] theorem State.bump_power (s : State) (r : Row) (u i n : Nat) : (s.bump r u i n).power = s.power := rfl
@[simp] theorem State.bump_ledger (s : State) (r : Row) (u i n : Nat) : (s.bump r u i n).ledger = s.ledger := rfl
@[simp] theorem State.bump_side (s : State) (r : Row) (u i n : Nat) : (s.bump r u i n).side = s.side := rfl
@[simp] theorem State.bump_dbg (s : State) (r : Row) (u i n : Nat) : (s.bump r u i n).dbg = s.dbg := rfl
@[simp] theorem State.bump_boot (s : State) (r : Row) (u i n : Nat) : (s.bump r u i n).boot = s.boot := rfl
@[simp] theorem State.bump_attest (s : State) (r : Row) (u i n : Nat) : (s.bump r u i n).attest = s.attest := rfl

@[simp] theorem State.bumpC_pending (s : State) (r : Row) (c n : Nat) : (s.bumpC r c n).pending = s.pending := rfl
@[simp] theorem State.bumpC_force (s : State) (r : Row) (c n : Nat) : (s.bumpC r c n).force = s.force := rfl
@[simp] theorem State.bumpC_mem (s : State) (r : Row) (c n : Nat) : (s.bumpC r c n).mem = s.mem := rfl
@[simp] theorem State.bumpC_marks (s : State) (r : Row) (c n : Nat) : (s.bumpC r c n).marks = s.marks := rfl
@[simp] theorem State.bumpC_cores (s : State) (r : Row) (c n : Nat) : (s.bumpC r c n).cores = s.cores := rfl
@[simp] theorem State.bumpC_detected (s : State) (r : Row) (c n : Nat) : (s.bumpC r c n).detected = s.detected := rfl
@[simp] theorem State.bumpC_task (s : State) (r : Row) (c n : Nat) : (s.bumpC r c n).task = s.task := rfl
@[simp] theorem State.bumpC_frozen (s : State) (r : Row) (c n : Nat) : (s.bumpC r c n).frozen = s.frozen := rfl
@[simp] theorem State.bumpC_sync (s : State) (r : Row) (c n : Nat) : (s.bumpC r c n).sync = s.sync := rfl
@[simp] theorem State.bumpC_net (s : State) (r : Row) (c n : Nat) : (s.bumpC r c n).net = s.net := rfl
@[simp] theorem State.bumpC_slip (s : State) (r : Row) (c n : Nat) : (s.bumpC r c n).slip = s.slip := rfl
@[simp] theorem State.bumpC_ops (s : State) (r : Row) (c n : Nat) : (s.bumpC r c n).ops = s.ops := rfl
@[simp] theorem State.bumpC_repairs (s : State) (r : Row) (c n : Nat) : (s.bumpC r c n).repairs = s.repairs := rfl
@[simp] theorem State.bumpC_scrubs (s : State) (r : Row) (c n : Nat) : (s.bumpC r c n).scrubs = s.scrubs := rfl
@[simp] theorem State.bumpC_ports (s : State) (r : Row) (c n : Nat) : (s.bumpC r c n).ports = s.ports := rfl
@[simp] theorem State.bumpC_ring (s : State) (r : Row) (c n : Nat) : (s.bumpC r c n).ring = s.ring := rfl
@[simp] theorem State.bumpC_power (s : State) (r : Row) (c n : Nat) : (s.bumpC r c n).power = s.power := rfl
@[simp] theorem State.bumpC_ledger (s : State) (r : Row) (c n : Nat) : (s.bumpC r c n).ledger = s.ledger := rfl
@[simp] theorem State.bumpC_side (s : State) (r : Row) (c n : Nat) : (s.bumpC r c n).side = s.side := rfl
@[simp] theorem State.bumpC_dbg (s : State) (r : Row) (c n : Nat) : (s.bumpC r c n).dbg = s.dbg := rfl
@[simp] theorem State.bumpC_boot (s : State) (r : Row) (c n : Nat) : (s.bumpC r c n).boot = s.boot := rfl
@[simp] theorem State.bumpC_attest (s : State) (r : Row) (c n : Nat) : (s.bumpC r c n).attest = s.attest := rfl

@[simp] theorem State.bumpD_pending (s : State) (r : Row) (n : Nat) : (s.bumpD r n).pending = s.pending := rfl
@[simp] theorem State.bumpD_force (s : State) (r : Row) (n : Nat) : (s.bumpD r n).force = s.force := rfl
@[simp] theorem State.bumpD_mem (s : State) (r : Row) (n : Nat) : (s.bumpD r n).mem = s.mem := rfl
@[simp] theorem State.bumpD_marks (s : State) (r : Row) (n : Nat) : (s.bumpD r n).marks = s.marks := rfl
@[simp] theorem State.bumpD_cores (s : State) (r : Row) (n : Nat) : (s.bumpD r n).cores = s.cores := rfl
@[simp] theorem State.bumpD_detected (s : State) (r : Row) (n : Nat) : (s.bumpD r n).detected = s.detected := rfl
@[simp] theorem State.bumpD_task (s : State) (r : Row) (n : Nat) : (s.bumpD r n).task = s.task := rfl
@[simp] theorem State.bumpD_frozen (s : State) (r : Row) (n : Nat) : (s.bumpD r n).frozen = s.frozen := rfl
@[simp] theorem State.bumpD_sync (s : State) (r : Row) (n : Nat) : (s.bumpD r n).sync = s.sync := rfl
@[simp] theorem State.bumpD_net (s : State) (r : Row) (n : Nat) : (s.bumpD r n).net = s.net := rfl
@[simp] theorem State.bumpD_slip (s : State) (r : Row) (n : Nat) : (s.bumpD r n).slip = s.slip := rfl
@[simp] theorem State.bumpD_ops (s : State) (r : Row) (n : Nat) : (s.bumpD r n).ops = s.ops := rfl
@[simp] theorem State.bumpD_repairs (s : State) (r : Row) (n : Nat) : (s.bumpD r n).repairs = s.repairs := rfl
@[simp] theorem State.bumpD_scrubs (s : State) (r : Row) (n : Nat) : (s.bumpD r n).scrubs = s.scrubs := rfl
@[simp] theorem State.bumpD_ports (s : State) (r : Row) (n : Nat) : (s.bumpD r n).ports = s.ports := rfl
@[simp] theorem State.bumpD_ring (s : State) (r : Row) (n : Nat) : (s.bumpD r n).ring = s.ring := rfl
@[simp] theorem State.bumpD_power (s : State) (r : Row) (n : Nat) : (s.bumpD r n).power = s.power := rfl
@[simp] theorem State.bumpD_ledger (s : State) (r : Row) (n : Nat) : (s.bumpD r n).ledger = s.ledger := rfl
@[simp] theorem State.bumpD_side (s : State) (r : Row) (n : Nat) : (s.bumpD r n).side = s.side := rfl
@[simp] theorem State.bumpD_dbg (s : State) (r : Row) (n : Nat) : (s.bumpD r n).dbg = s.dbg := rfl
@[simp] theorem State.bumpD_boot (s : State) (r : Row) (n : Nat) : (s.bumpD r n).boot = s.boot := rfl
@[simp] theorem State.bumpD_attest (s : State) (r : Row) (n : Nat) : (s.bumpD r n).attest = s.attest := rfl

@[simp] theorem State.setCore_pending (s : State) (c : Nat) (k : Core) : (s.setCore c k).pending = s.pending := rfl
@[simp] theorem State.setCore_regs (s : State) (c : Nat) (k : Core) : (s.setCore c k).regs = s.regs := rfl
@[simp] theorem State.setCore_force (s : State) (c : Nat) (k : Core) : (s.setCore c k).force = s.force := rfl
@[simp] theorem State.setCore_mem (s : State) (c : Nat) (k : Core) : (s.setCore c k).mem = s.mem := rfl
@[simp] theorem State.setCore_marks (s : State) (c : Nat) (k : Core) : (s.setCore c k).marks = s.marks := rfl
@[simp] theorem State.setCore_detected (s : State) (c : Nat) (k : Core) : (s.setCore c k).detected = s.detected := rfl
@[simp] theorem State.setCore_task (s : State) (c : Nat) (k : Core) : (s.setCore c k).task = s.task := rfl
@[simp] theorem State.setCore_frozen (s : State) (c : Nat) (k : Core) : (s.setCore c k).frozen = s.frozen := rfl
@[simp] theorem State.setCore_sync (s : State) (c : Nat) (k : Core) : (s.setCore c k).sync = s.sync := rfl
@[simp] theorem State.setCore_net (s : State) (c : Nat) (k : Core) : (s.setCore c k).net = s.net := rfl
@[simp] theorem State.setCore_slip (s : State) (c : Nat) (k : Core) : (s.setCore c k).slip = s.slip := rfl
@[simp] theorem State.setCore_ops (s : State) (c : Nat) (k : Core) : (s.setCore c k).ops = s.ops := rfl
@[simp] theorem State.setCore_repairs (s : State) (c : Nat) (k : Core) : (s.setCore c k).repairs = s.repairs := rfl
@[simp] theorem State.setCore_scrubs (s : State) (c : Nat) (k : Core) : (s.setCore c k).scrubs = s.scrubs := rfl
@[simp] theorem State.setCore_ports (s : State) (c : Nat) (k : Core) : (s.setCore c k).ports = s.ports := rfl
@[simp] theorem State.setCore_ring (s : State) (c : Nat) (k : Core) : (s.setCore c k).ring = s.ring := rfl
@[simp] theorem State.setCore_power (s : State) (c : Nat) (k : Core) : (s.setCore c k).power = s.power := rfl
@[simp] theorem State.setCore_ledger (s : State) (c : Nat) (k : Core) : (s.setCore c k).ledger = s.ledger := rfl
@[simp] theorem State.setCore_side (s : State) (c : Nat) (k : Core) : (s.setCore c k).side = s.side := rfl
@[simp] theorem State.setCore_dbg (s : State) (c : Nat) (k : Core) : (s.setCore c k).dbg = s.dbg := rfl
@[simp] theorem State.setCore_boot (s : State) (c : Nat) (k : Core) : (s.setCore c k).boot = s.boot := rfl
@[simp] theorem State.setCore_attest (s : State) (c : Nat) (k : Core) : (s.setCore c k).attest = s.attest := rfl

@[simp] theorem State.mapCore_pending (s : State) (c : Nat) (f : Core → Core) : (s.mapCore c f).pending = s.pending := rfl
@[simp] theorem State.mapCore_regs (s : State) (c : Nat) (f : Core → Core) : (s.mapCore c f).regs = s.regs := rfl
@[simp] theorem State.mapCore_force (s : State) (c : Nat) (f : Core → Core) : (s.mapCore c f).force = s.force := rfl
@[simp] theorem State.mapCore_mem (s : State) (c : Nat) (f : Core → Core) : (s.mapCore c f).mem = s.mem := rfl
@[simp] theorem State.mapCore_marks (s : State) (c : Nat) (f : Core → Core) : (s.mapCore c f).marks = s.marks := rfl
@[simp] theorem State.mapCore_detected (s : State) (c : Nat) (f : Core → Core) : (s.mapCore c f).detected = s.detected := rfl
@[simp] theorem State.mapCore_task (s : State) (c : Nat) (f : Core → Core) : (s.mapCore c f).task = s.task := rfl
@[simp] theorem State.mapCore_frozen (s : State) (c : Nat) (f : Core → Core) : (s.mapCore c f).frozen = s.frozen := rfl
@[simp] theorem State.mapCore_sync (s : State) (c : Nat) (f : Core → Core) : (s.mapCore c f).sync = s.sync := rfl
@[simp] theorem State.mapCore_net (s : State) (c : Nat) (f : Core → Core) : (s.mapCore c f).net = s.net := rfl
@[simp] theorem State.mapCore_slip (s : State) (c : Nat) (f : Core → Core) : (s.mapCore c f).slip = s.slip := rfl
@[simp] theorem State.mapCore_ops (s : State) (c : Nat) (f : Core → Core) : (s.mapCore c f).ops = s.ops := rfl
@[simp] theorem State.mapCore_repairs (s : State) (c : Nat) (f : Core → Core) : (s.mapCore c f).repairs = s.repairs := rfl
@[simp] theorem State.mapCore_scrubs (s : State) (c : Nat) (f : Core → Core) : (s.mapCore c f).scrubs = s.scrubs := rfl
@[simp] theorem State.mapCore_ports (s : State) (c : Nat) (f : Core → Core) : (s.mapCore c f).ports = s.ports := rfl
@[simp] theorem State.mapCore_ring (s : State) (c : Nat) (f : Core → Core) : (s.mapCore c f).ring = s.ring := rfl
@[simp] theorem State.mapCore_power (s : State) (c : Nat) (f : Core → Core) : (s.mapCore c f).power = s.power := rfl
@[simp] theorem State.mapCore_ledger (s : State) (c : Nat) (f : Core → Core) : (s.mapCore c f).ledger = s.ledger := rfl
@[simp] theorem State.mapCore_side (s : State) (c : Nat) (f : Core → Core) : (s.mapCore c f).side = s.side := rfl
@[simp] theorem State.mapCore_dbg (s : State) (c : Nat) (f : Core → Core) : (s.mapCore c f).dbg = s.dbg := rfl
@[simp] theorem State.mapCore_boot (s : State) (c : Nat) (f : Core → Core) : (s.mapCore c f).boot = s.boot := rfl
@[simp] theorem State.mapCore_attest (s : State) (c : Nat) (f : Core → Core) : (s.mapCore c f).attest = s.attest := rfl

@[simp] theorem State.mapSeq_pending (s : State) (c : Nat) (f : Sequencer → Sequencer) : (s.mapSeq c f).pending = s.pending := rfl
@[simp] theorem State.mapSeq_regs (s : State) (c : Nat) (f : Sequencer → Sequencer) : (s.mapSeq c f).regs = s.regs := rfl
@[simp] theorem State.mapSeq_force (s : State) (c : Nat) (f : Sequencer → Sequencer) : (s.mapSeq c f).force = s.force := rfl
@[simp] theorem State.mapSeq_mem (s : State) (c : Nat) (f : Sequencer → Sequencer) : (s.mapSeq c f).mem = s.mem := rfl
@[simp] theorem State.mapSeq_marks (s : State) (c : Nat) (f : Sequencer → Sequencer) : (s.mapSeq c f).marks = s.marks := rfl
@[simp] theorem State.mapSeq_detected (s : State) (c : Nat) (f : Sequencer → Sequencer) : (s.mapSeq c f).detected = s.detected := rfl
@[simp] theorem State.mapSeq_task (s : State) (c : Nat) (f : Sequencer → Sequencer) : (s.mapSeq c f).task = s.task := rfl
@[simp] theorem State.mapSeq_frozen (s : State) (c : Nat) (f : Sequencer → Sequencer) : (s.mapSeq c f).frozen = s.frozen := rfl
@[simp] theorem State.mapSeq_sync (s : State) (c : Nat) (f : Sequencer → Sequencer) : (s.mapSeq c f).sync = s.sync := rfl
@[simp] theorem State.mapSeq_net (s : State) (c : Nat) (f : Sequencer → Sequencer) : (s.mapSeq c f).net = s.net := rfl
@[simp] theorem State.mapSeq_slip (s : State) (c : Nat) (f : Sequencer → Sequencer) : (s.mapSeq c f).slip = s.slip := rfl
@[simp] theorem State.mapSeq_ops (s : State) (c : Nat) (f : Sequencer → Sequencer) : (s.mapSeq c f).ops = s.ops := rfl
@[simp] theorem State.mapSeq_repairs (s : State) (c : Nat) (f : Sequencer → Sequencer) : (s.mapSeq c f).repairs = s.repairs := rfl
@[simp] theorem State.mapSeq_scrubs (s : State) (c : Nat) (f : Sequencer → Sequencer) : (s.mapSeq c f).scrubs = s.scrubs := rfl
@[simp] theorem State.mapSeq_ports (s : State) (c : Nat) (f : Sequencer → Sequencer) : (s.mapSeq c f).ports = s.ports := rfl
@[simp] theorem State.mapSeq_ring (s : State) (c : Nat) (f : Sequencer → Sequencer) : (s.mapSeq c f).ring = s.ring := rfl
@[simp] theorem State.mapSeq_power (s : State) (c : Nat) (f : Sequencer → Sequencer) : (s.mapSeq c f).power = s.power := rfl
@[simp] theorem State.mapSeq_ledger (s : State) (c : Nat) (f : Sequencer → Sequencer) : (s.mapSeq c f).ledger = s.ledger := rfl
@[simp] theorem State.mapSeq_side (s : State) (c : Nat) (f : Sequencer → Sequencer) : (s.mapSeq c f).side = s.side := rfl
@[simp] theorem State.mapSeq_dbg (s : State) (c : Nat) (f : Sequencer → Sequencer) : (s.mapSeq c f).dbg = s.dbg := rfl
@[simp] theorem State.mapSeq_boot (s : State) (c : Nat) (f : Sequencer → Sequencer) : (s.mapSeq c f).boot = s.boot := rfl
@[simp] theorem State.mapSeq_attest (s : State) (c : Nat) (f : Sequencer → Sequencer) : (s.mapSeq c f).attest = s.attest := rfl

@[simp] theorem State.mapTm_pending (s : State) (c : Nat) (f : Timing → Timing) : (s.mapTm c f).pending = s.pending := rfl
@[simp] theorem State.mapTm_regs (s : State) (c : Nat) (f : Timing → Timing) : (s.mapTm c f).regs = s.regs := rfl
@[simp] theorem State.mapTm_force (s : State) (c : Nat) (f : Timing → Timing) : (s.mapTm c f).force = s.force := rfl
@[simp] theorem State.mapTm_mem (s : State) (c : Nat) (f : Timing → Timing) : (s.mapTm c f).mem = s.mem := rfl
@[simp] theorem State.mapTm_marks (s : State) (c : Nat) (f : Timing → Timing) : (s.mapTm c f).marks = s.marks := rfl
@[simp] theorem State.mapTm_detected (s : State) (c : Nat) (f : Timing → Timing) : (s.mapTm c f).detected = s.detected := rfl
@[simp] theorem State.mapTm_task (s : State) (c : Nat) (f : Timing → Timing) : (s.mapTm c f).task = s.task := rfl
@[simp] theorem State.mapTm_frozen (s : State) (c : Nat) (f : Timing → Timing) : (s.mapTm c f).frozen = s.frozen := rfl
@[simp] theorem State.mapTm_sync (s : State) (c : Nat) (f : Timing → Timing) : (s.mapTm c f).sync = s.sync := rfl
@[simp] theorem State.mapTm_net (s : State) (c : Nat) (f : Timing → Timing) : (s.mapTm c f).net = s.net := rfl
@[simp] theorem State.mapTm_slip (s : State) (c : Nat) (f : Timing → Timing) : (s.mapTm c f).slip = s.slip := rfl
@[simp] theorem State.mapTm_ops (s : State) (c : Nat) (f : Timing → Timing) : (s.mapTm c f).ops = s.ops := rfl
@[simp] theorem State.mapTm_repairs (s : State) (c : Nat) (f : Timing → Timing) : (s.mapTm c f).repairs = s.repairs := rfl
@[simp] theorem State.mapTm_scrubs (s : State) (c : Nat) (f : Timing → Timing) : (s.mapTm c f).scrubs = s.scrubs := rfl
@[simp] theorem State.mapTm_ports (s : State) (c : Nat) (f : Timing → Timing) : (s.mapTm c f).ports = s.ports := rfl
@[simp] theorem State.mapTm_ring (s : State) (c : Nat) (f : Timing → Timing) : (s.mapTm c f).ring = s.ring := rfl
@[simp] theorem State.mapTm_power (s : State) (c : Nat) (f : Timing → Timing) : (s.mapTm c f).power = s.power := rfl
@[simp] theorem State.mapTm_ledger (s : State) (c : Nat) (f : Timing → Timing) : (s.mapTm c f).ledger = s.ledger := rfl
@[simp] theorem State.mapTm_side (s : State) (c : Nat) (f : Timing → Timing) : (s.mapTm c f).side = s.side := rfl
@[simp] theorem State.mapTm_dbg (s : State) (c : Nat) (f : Timing → Timing) : (s.mapTm c f).dbg = s.dbg := rfl
@[simp] theorem State.mapTm_boot (s : State) (c : Nat) (f : Timing → Timing) : (s.mapTm c f).boot = s.boot := rfl
@[simp] theorem State.mapTm_attest (s : State) (c : Nat) (f : Timing → Timing) : (s.mapTm c f).attest = s.attest := rfl

@[simp] theorem State.setForce_pending (s : State) (r : Row) (v : Nat) : (s.setForce r v).pending = s.pending := rfl
@[simp] theorem State.setForce_regs (s : State) (r : Row) (v : Nat) : (s.setForce r v).regs = s.regs := rfl
@[simp] theorem State.setForce_mem (s : State) (r : Row) (v : Nat) : (s.setForce r v).mem = s.mem := rfl
@[simp] theorem State.setForce_marks (s : State) (r : Row) (v : Nat) : (s.setForce r v).marks = s.marks := rfl
@[simp] theorem State.setForce_cores (s : State) (r : Row) (v : Nat) : (s.setForce r v).cores = s.cores := rfl
@[simp] theorem State.setForce_detected (s : State) (r : Row) (v : Nat) : (s.setForce r v).detected = s.detected := rfl
@[simp] theorem State.setForce_task (s : State) (r : Row) (v : Nat) : (s.setForce r v).task = s.task := rfl
@[simp] theorem State.setForce_frozen (s : State) (r : Row) (v : Nat) : (s.setForce r v).frozen = s.frozen := rfl
@[simp] theorem State.setForce_sync (s : State) (r : Row) (v : Nat) : (s.setForce r v).sync = s.sync := rfl
@[simp] theorem State.setForce_net (s : State) (r : Row) (v : Nat) : (s.setForce r v).net = s.net := rfl
@[simp] theorem State.setForce_slip (s : State) (r : Row) (v : Nat) : (s.setForce r v).slip = s.slip := rfl
@[simp] theorem State.setForce_ops (s : State) (r : Row) (v : Nat) : (s.setForce r v).ops = s.ops := rfl
@[simp] theorem State.setForce_repairs (s : State) (r : Row) (v : Nat) : (s.setForce r v).repairs = s.repairs := rfl
@[simp] theorem State.setForce_scrubs (s : State) (r : Row) (v : Nat) : (s.setForce r v).scrubs = s.scrubs := rfl
@[simp] theorem State.setForce_ports (s : State) (r : Row) (v : Nat) : (s.setForce r v).ports = s.ports := rfl
@[simp] theorem State.setForce_ring (s : State) (r : Row) (v : Nat) : (s.setForce r v).ring = s.ring := rfl
@[simp] theorem State.setForce_power (s : State) (r : Row) (v : Nat) : (s.setForce r v).power = s.power := rfl
@[simp] theorem State.setForce_ledger (s : State) (r : Row) (v : Nat) : (s.setForce r v).ledger = s.ledger := rfl
@[simp] theorem State.setForce_side (s : State) (r : Row) (v : Nat) : (s.setForce r v).side = s.side := rfl
@[simp] theorem State.setForce_dbg (s : State) (r : Row) (v : Nat) : (s.setForce r v).dbg = s.dbg := rfl
@[simp] theorem State.setForce_boot (s : State) (r : Row) (v : Nat) : (s.setForce r v).boot = s.boot := rfl
@[simp] theorem State.setForce_attest (s : State) (r : Row) (v : Nat) : (s.setForce r v).attest = s.attest := rfl

@[simp] theorem State.noteSev_pending (s : State) (code unit : Nat) (data : List Nat) (sev : Nat) (stop : Bool) : (s.noteSev code unit data sev stop).pending = s.pending := rfl
@[simp] theorem State.noteSev_regs (s : State) (code unit : Nat) (data : List Nat) (sev : Nat) (stop : Bool) : (s.noteSev code unit data sev stop).regs = s.regs := rfl
@[simp] theorem State.noteSev_force (s : State) (code unit : Nat) (data : List Nat) (sev : Nat) (stop : Bool) : (s.noteSev code unit data sev stop).force = s.force := rfl
@[simp] theorem State.noteSev_mem (s : State) (code unit : Nat) (data : List Nat) (sev : Nat) (stop : Bool) : (s.noteSev code unit data sev stop).mem = s.mem := rfl
@[simp] theorem State.noteSev_marks (s : State) (code unit : Nat) (data : List Nat) (sev : Nat) (stop : Bool) : (s.noteSev code unit data sev stop).marks = s.marks := rfl
@[simp] theorem State.noteSev_cores (s : State) (code unit : Nat) (data : List Nat) (sev : Nat) (stop : Bool) : (s.noteSev code unit data sev stop).cores = s.cores := rfl
@[simp] theorem State.noteSev_task (s : State) (code unit : Nat) (data : List Nat) (sev : Nat) (stop : Bool) : (s.noteSev code unit data sev stop).task = s.task := rfl
@[simp] theorem State.noteSev_frozen (s : State) (code unit : Nat) (data : List Nat) (sev : Nat) (stop : Bool) : (s.noteSev code unit data sev stop).frozen = s.frozen := rfl
@[simp] theorem State.noteSev_sync (s : State) (code unit : Nat) (data : List Nat) (sev : Nat) (stop : Bool) : (s.noteSev code unit data sev stop).sync = s.sync := rfl
@[simp] theorem State.noteSev_net (s : State) (code unit : Nat) (data : List Nat) (sev : Nat) (stop : Bool) : (s.noteSev code unit data sev stop).net = s.net := rfl
@[simp] theorem State.noteSev_slip (s : State) (code unit : Nat) (data : List Nat) (sev : Nat) (stop : Bool) : (s.noteSev code unit data sev stop).slip = s.slip := rfl
@[simp] theorem State.noteSev_ops (s : State) (code unit : Nat) (data : List Nat) (sev : Nat) (stop : Bool) : (s.noteSev code unit data sev stop).ops = s.ops := rfl
@[simp] theorem State.noteSev_repairs (s : State) (code unit : Nat) (data : List Nat) (sev : Nat) (stop : Bool) : (s.noteSev code unit data sev stop).repairs = s.repairs := rfl
@[simp] theorem State.noteSev_scrubs (s : State) (code unit : Nat) (data : List Nat) (sev : Nat) (stop : Bool) : (s.noteSev code unit data sev stop).scrubs = s.scrubs := rfl
@[simp] theorem State.noteSev_ports (s : State) (code unit : Nat) (data : List Nat) (sev : Nat) (stop : Bool) : (s.noteSev code unit data sev stop).ports = s.ports := rfl
@[simp] theorem State.noteSev_ring (s : State) (code unit : Nat) (data : List Nat) (sev : Nat) (stop : Bool) : (s.noteSev code unit data sev stop).ring = s.ring := rfl
@[simp] theorem State.noteSev_power (s : State) (code unit : Nat) (data : List Nat) (sev : Nat) (stop : Bool) : (s.noteSev code unit data sev stop).power = s.power := rfl
@[simp] theorem State.noteSev_ledger (s : State) (code unit : Nat) (data : List Nat) (sev : Nat) (stop : Bool) : (s.noteSev code unit data sev stop).ledger = s.ledger := rfl
@[simp] theorem State.noteSev_side (s : State) (code unit : Nat) (data : List Nat) (sev : Nat) (stop : Bool) : (s.noteSev code unit data sev stop).side = s.side := rfl
@[simp] theorem State.noteSev_dbg (s : State) (code unit : Nat) (data : List Nat) (sev : Nat) (stop : Bool) : (s.noteSev code unit data sev stop).dbg = s.dbg := rfl
@[simp] theorem State.noteSev_boot (s : State) (code unit : Nat) (data : List Nat) (sev : Nat) (stop : Bool) : (s.noteSev code unit data sev stop).boot = s.boot := rfl
@[simp] theorem State.noteSev_attest (s : State) (code unit : Nat) (data : List Nat) (sev : Nat) (stop : Bool) : (s.noteSev code unit data sev stop).attest = s.attest := rfl

@[simp] theorem State.note_pending (s : State) (code unit : Nat) (data : List Nat) : (s.note code unit data).pending = s.pending := rfl
@[simp] theorem State.note_regs (s : State) (code unit : Nat) (data : List Nat) : (s.note code unit data).regs = s.regs := rfl
@[simp] theorem State.note_force (s : State) (code unit : Nat) (data : List Nat) : (s.note code unit data).force = s.force := rfl
@[simp] theorem State.note_mem (s : State) (code unit : Nat) (data : List Nat) : (s.note code unit data).mem = s.mem := rfl
@[simp] theorem State.note_marks (s : State) (code unit : Nat) (data : List Nat) : (s.note code unit data).marks = s.marks := rfl
@[simp] theorem State.note_cores (s : State) (code unit : Nat) (data : List Nat) : (s.note code unit data).cores = s.cores := rfl
@[simp] theorem State.note_task (s : State) (code unit : Nat) (data : List Nat) : (s.note code unit data).task = s.task := rfl
@[simp] theorem State.note_frozen (s : State) (code unit : Nat) (data : List Nat) : (s.note code unit data).frozen = s.frozen := rfl
@[simp] theorem State.note_sync (s : State) (code unit : Nat) (data : List Nat) : (s.note code unit data).sync = s.sync := rfl
@[simp] theorem State.note_net (s : State) (code unit : Nat) (data : List Nat) : (s.note code unit data).net = s.net := rfl
@[simp] theorem State.note_slip (s : State) (code unit : Nat) (data : List Nat) : (s.note code unit data).slip = s.slip := rfl
@[simp] theorem State.note_ops (s : State) (code unit : Nat) (data : List Nat) : (s.note code unit data).ops = s.ops := rfl
@[simp] theorem State.note_repairs (s : State) (code unit : Nat) (data : List Nat) : (s.note code unit data).repairs = s.repairs := rfl
@[simp] theorem State.note_scrubs (s : State) (code unit : Nat) (data : List Nat) : (s.note code unit data).scrubs = s.scrubs := rfl
@[simp] theorem State.note_ports (s : State) (code unit : Nat) (data : List Nat) : (s.note code unit data).ports = s.ports := rfl
@[simp] theorem State.note_ring (s : State) (code unit : Nat) (data : List Nat) : (s.note code unit data).ring = s.ring := rfl
@[simp] theorem State.note_power (s : State) (code unit : Nat) (data : List Nat) : (s.note code unit data).power = s.power := rfl
@[simp] theorem State.note_ledger (s : State) (code unit : Nat) (data : List Nat) : (s.note code unit data).ledger = s.ledger := rfl
@[simp] theorem State.note_side (s : State) (code unit : Nat) (data : List Nat) : (s.note code unit data).side = s.side := rfl
@[simp] theorem State.note_dbg (s : State) (code unit : Nat) (data : List Nat) : (s.note code unit data).dbg = s.dbg := rfl
@[simp] theorem State.note_boot (s : State) (code unit : Nat) (data : List Nat) : (s.note code unit data).boot = s.boot := rfl
@[simp] theorem State.note_attest (s : State) (code unit : Nat) (data : List Nat) : (s.note code unit data).attest = s.attest := rfl

@[simp] theorem State.pokeByte_pending (s : State) (a : Nat) (b : Byte) : (s.pokeByte a b).pending = s.pending := rfl
@[simp] theorem State.pokeByte_regs (s : State) (a : Nat) (b : Byte) : (s.pokeByte a b).regs = s.regs := rfl
@[simp] theorem State.pokeByte_force (s : State) (a : Nat) (b : Byte) : (s.pokeByte a b).force = s.force := rfl
@[simp] theorem State.pokeByte_marks (s : State) (a : Nat) (b : Byte) : (s.pokeByte a b).marks = s.marks := rfl
@[simp] theorem State.pokeByte_cores (s : State) (a : Nat) (b : Byte) : (s.pokeByte a b).cores = s.cores := rfl
@[simp] theorem State.pokeByte_detected (s : State) (a : Nat) (b : Byte) : (s.pokeByte a b).detected = s.detected := rfl
@[simp] theorem State.pokeByte_task (s : State) (a : Nat) (b : Byte) : (s.pokeByte a b).task = s.task := rfl
@[simp] theorem State.pokeByte_frozen (s : State) (a : Nat) (b : Byte) : (s.pokeByte a b).frozen = s.frozen := rfl
@[simp] theorem State.pokeByte_sync (s : State) (a : Nat) (b : Byte) : (s.pokeByte a b).sync = s.sync := rfl
@[simp] theorem State.pokeByte_net (s : State) (a : Nat) (b : Byte) : (s.pokeByte a b).net = s.net := rfl
@[simp] theorem State.pokeByte_slip (s : State) (a : Nat) (b : Byte) : (s.pokeByte a b).slip = s.slip := rfl
@[simp] theorem State.pokeByte_ops (s : State) (a : Nat) (b : Byte) : (s.pokeByte a b).ops = s.ops := rfl
@[simp] theorem State.pokeByte_repairs (s : State) (a : Nat) (b : Byte) : (s.pokeByte a b).repairs = s.repairs := rfl
@[simp] theorem State.pokeByte_scrubs (s : State) (a : Nat) (b : Byte) : (s.pokeByte a b).scrubs = s.scrubs := rfl
@[simp] theorem State.pokeByte_ports (s : State) (a : Nat) (b : Byte) : (s.pokeByte a b).ports = s.ports := rfl
@[simp] theorem State.pokeByte_ring (s : State) (a : Nat) (b : Byte) : (s.pokeByte a b).ring = s.ring := rfl
@[simp] theorem State.pokeByte_power (s : State) (a : Nat) (b : Byte) : (s.pokeByte a b).power = s.power := rfl
@[simp] theorem State.pokeByte_ledger (s : State) (a : Nat) (b : Byte) : (s.pokeByte a b).ledger = s.ledger := rfl
@[simp] theorem State.pokeByte_side (s : State) (a : Nat) (b : Byte) : (s.pokeByte a b).side = s.side := rfl
@[simp] theorem State.pokeByte_dbg (s : State) (a : Nat) (b : Byte) : (s.pokeByte a b).dbg = s.dbg := rfl
@[simp] theorem State.pokeByte_boot (s : State) (a : Nat) (b : Byte) : (s.pokeByte a b).boot = s.boot := rfl
@[simp] theorem State.pokeByte_attest (s : State) (a : Nat) (b : Byte) : (s.pokeByte a b).attest = s.attest := rfl

@[simp] theorem State.clearMarks_pending (s : State) (a n : Nat) : (s.clearMarks a n).pending = s.pending := rfl
@[simp] theorem State.clearMarks_regs (s : State) (a n : Nat) : (s.clearMarks a n).regs = s.regs := rfl
@[simp] theorem State.clearMarks_force (s : State) (a n : Nat) : (s.clearMarks a n).force = s.force := rfl
@[simp] theorem State.clearMarks_mem (s : State) (a n : Nat) : (s.clearMarks a n).mem = s.mem := rfl
@[simp] theorem State.clearMarks_cores (s : State) (a n : Nat) : (s.clearMarks a n).cores = s.cores := rfl
@[simp] theorem State.clearMarks_detected (s : State) (a n : Nat) : (s.clearMarks a n).detected = s.detected := rfl
@[simp] theorem State.clearMarks_task (s : State) (a n : Nat) : (s.clearMarks a n).task = s.task := rfl
@[simp] theorem State.clearMarks_frozen (s : State) (a n : Nat) : (s.clearMarks a n).frozen = s.frozen := rfl
@[simp] theorem State.clearMarks_sync (s : State) (a n : Nat) : (s.clearMarks a n).sync = s.sync := rfl
@[simp] theorem State.clearMarks_net (s : State) (a n : Nat) : (s.clearMarks a n).net = s.net := rfl
@[simp] theorem State.clearMarks_slip (s : State) (a n : Nat) : (s.clearMarks a n).slip = s.slip := rfl
@[simp] theorem State.clearMarks_ops (s : State) (a n : Nat) : (s.clearMarks a n).ops = s.ops := rfl
@[simp] theorem State.clearMarks_repairs (s : State) (a n : Nat) : (s.clearMarks a n).repairs = s.repairs := rfl
@[simp] theorem State.clearMarks_scrubs (s : State) (a n : Nat) : (s.clearMarks a n).scrubs = s.scrubs := rfl
@[simp] theorem State.clearMarks_ports (s : State) (a n : Nat) : (s.clearMarks a n).ports = s.ports := rfl
@[simp] theorem State.clearMarks_ring (s : State) (a n : Nat) : (s.clearMarks a n).ring = s.ring := rfl
@[simp] theorem State.clearMarks_power (s : State) (a n : Nat) : (s.clearMarks a n).power = s.power := rfl
@[simp] theorem State.clearMarks_ledger (s : State) (a n : Nat) : (s.clearMarks a n).ledger = s.ledger := rfl
@[simp] theorem State.clearMarks_side (s : State) (a n : Nat) : (s.clearMarks a n).side = s.side := rfl
@[simp] theorem State.clearMarks_dbg (s : State) (a n : Nat) : (s.clearMarks a n).dbg = s.dbg := rfl
@[simp] theorem State.clearMarks_boot (s : State) (a n : Nat) : (s.clearMarks a n).boot = s.boot := rfl
@[simp] theorem State.clearMarks_attest (s : State) (a n : Nat) : (s.clearMarks a n).attest = s.attest := rfl

end Sys2Proof.Machine
end

