-- ==== Sys2Proof/Laws/Issue.lean ====
section
/-!
SUPPORT. What issuing a bundle does: lookups of cores and registers after an update, the frame of `State.opened`, and `runSlot` on a bundle that issues.
-/

namespace Sys2Proof.Machine

/-! Lookups. -/

theorem State.core_setCore (s : State) (c : Nat) (k : Core) (h : Sparse.sorted s.cores) (d : Nat) :
    (s.setCore c k).core d = if d = c then k else s.core d := Sparse.get_put _ _ _ _ h d

theorem State.core_setCore_ne (s : State) (c : Nat) (k : Core) (d : Nat) (h : d ≠ c) : (s.setCore c k).core d = s.core d :=
  Sparse.get_put_ne _ _ _ _ _ _ h

theorem State.setCore_sorted (s : State) (c : Nat) (k : Core) (h : Sparse.sorted s.cores) : Sparse.sorted (s.setCore c k).cores :=
  Sparse.put_sorted _ _ _ _ h

theorem State.wr_sorted (s : State) (r : Row) (u i v : Nat) (h : Sparse.sorted s.regs) : Sparse.sorted (s.wr r u i v).regs :=
  Sparse.put_sorted _ _ _ _ h

theorem State.regs_wr (s : State) (r : Row) (u i v : Nat) (d k : Nat) (h : k ≠ r.key u i) :
    Sparse.get d (s.wr r u i v).regs k = Sparse.get d s.regs k := Sparse.get_put_ne _ _ _ _ _ _ h

/-- A field just written reads the value cut to its width. -/
theorem State.rd_wr (s : State) (r : Row) (u i v : Nat) (h : Sparse.sorted s.regs) : (s.wr r u i v).rd r u i = v % 2 ^ r.width := by
  simp [State.rd, State.wr, Sparse.get_put _ _ _ _ h]

/-- A core looks up as before when only other parts of the state changed. -/
@[simp] theorem State.core_wr (s : State) (r : Row) (u i v d : Nat) : (s.wr r u i v).core d = s.core d := rfl
@[simp] theorem State.core_setC (s : State) (r : Row) (c v d : Nat) : (s.setC r c v).core d = s.core d := rfl
@[simp] theorem State.core_setD (s : State) (r : Row) (v d : Nat) : (s.setD r v).core d = s.core d := rfl
@[simp] theorem State.core_bumpC (s : State) (r : Row) (c n d : Nat) : (s.bumpC r c n).core d = s.core d := rfl
@[simp] theorem State.core_bumpD (s : State) (r : Row) (n d : Nat) : (s.bumpD r n).core d = s.core d := rfl
@[simp] theorem State.core_note (s : State) (x u : Nat) (l : List Nat) (d : Nat) : (s.note x u l).core d = s.core d := rfl

/-! Frames compose. -/

theorem State.InCore.refl (s : State) (c : Nat) (keys : List Nat) : s.InCore s c keys := ⟨rfl, fun _ _ => rfl, fun _ _ _ => rfl⟩

theorem State.InCore.trans {s t u : State} {c : Nat} {keys : List Nat} (h : s.InCore t c keys) (g : t.InCore u c keys) : s.InCore u c keys :=
  ⟨g.rest.trans h.rest, fun d hd => (g.others d hd).trans (h.others d hd), fun d k hk => (g.regs d k hk).trans (h.regs d k hk)⟩

theorem State.InCore.mono {s t : State} {c : Nat} {keys keys' : List Nat} (h : s.InCore t c keys) (hs : ∀ k ∈ keys, k ∈ keys') :
    s.InCore t c keys' := ⟨h.rest, h.others, fun d k hk => h.regs d k fun hk' => hk (hs k hk')⟩

theorem State.InCore.setCore (s : State) (c : Nat) (k : Core) (keys : List Nat) : s.InCore (s.setCore c k) c keys :=
  ⟨rfl, fun d hd => State.core_setCore_ne s c k d hd, fun _ _ _ => rfl⟩

theorem State.InCore.wr (s : State) (c : Nat) (r : Row) (u i v : Nat) (keys : List Nat) (h : r.key u i ∈ keys) : s.InCore (s.wr r u i v) c keys :=
  ⟨rfl, fun _ _ => rfl, fun d k hk => State.regs_wr s r u i v d k fun e => hk (e ▸ h)⟩

/-- A state reached by updates of core c and of registers in a list: the frame, the canonical form, and an unchanged memory. -/
structure State.Near (s t : State) (c : Nat) (keys : List Nat) : Prop where
  frame : s.InCore t c keys
  mem : t.mem = s.mem
  marks : t.marks = s.marks
  canon : s.Canon → t.Canon

theorem State.Near.refl (s : State) (c : Nat) (keys : List Nat) : s.Near s c keys := ⟨State.InCore.refl s c keys, rfl, rfl, id⟩

theorem State.Near.trans {s t u : State} {c : Nat} {keys : List Nat} (h : s.Near t c keys) (g : t.Near u c keys) : s.Near u c keys :=
  ⟨h.frame.trans g.frame, g.mem.trans h.mem, g.marks.trans h.marks, fun x => g.canon (h.canon x)⟩

theorem State.Near.mono {s t : State} {c : Nat} {keys keys' : List Nat} (h : s.Near t c keys) (hs : ∀ k ∈ keys, k ∈ keys') : s.Near t c keys' :=
  ⟨h.frame.mono hs, h.mem, h.marks, h.canon⟩

theorem State.near_setCore (s : State) (c : Nat) (k : Core) (keys : List Nat) : s.Near (s.setCore c k) c keys :=
  ⟨State.InCore.setCore s c k keys, rfl, rfl, fun h => ⟨h.mem, h.regs, State.setCore_sorted s c k h.cores⟩⟩

theorem State.near_mapCore (s : State) (c : Nat) (f : Core → Core) (keys : List Nat) : s.Near (s.mapCore c f) c keys := s.near_setCore c _ keys
theorem State.near_mapSeq (s : State) (c : Nat) (f : Sequencer → Sequencer) (keys : List Nat) : s.Near (s.mapSeq c f) c keys := s.near_setCore c _ keys
theorem State.near_mapTm (s : State) (c : Nat) (f : Timing → Timing) (keys : List Nat) : s.Near (s.mapTm c f) c keys := s.near_setCore c _ keys

theorem State.near_wr (s : State) (c : Nat) (r : Row) (u i v : Nat) (keys : List Nat) (h : r.key u i ∈ keys) : s.Near (s.wr r u i v) c keys :=
  ⟨State.InCore.wr s c r u i v keys h, rfl, rfl, fun x => ⟨x.mem, State.wr_sorted s r u i v x.regs, x.cores⟩⟩

theorem State.core_mapCore (s : State) (c : Nat) (f : Core → Core) (h : s.Canon) : (s.mapCore c f).core c = f (s.core c) := by
  simp [State.mapCore, State.core_setCore _ _ _ h.cores]

theorem State.core_mapSeq (s : State) (c : Nat) (f : Sequencer → Sequencer) (h : s.Canon) :
    (s.mapSeq c f).core c = { s.core c with seq := f (s.core c).seq } := State.core_mapCore s c _ h

theorem State.core_mapTm (s : State) (c : Nat) (f : Timing → Timing) (h : s.Canon) :
    (s.mapTm c f).core c = { s.core c with tm := f (s.core c).tm } := State.core_mapCore s c _ h

/-! The parts of issue. -/

theorem State.near_reachCycle (s : State) (c x : Nat) (keys : List Nat) (h : Reg.CTRL_TIMESTAMP.key 0 0 ∈ keys) : s.Near (s.reachCycle x) c keys := by
  unfold State.reachCycle
  simp only
  split
  · exact State.near_wr s c _ _ _ _ keys h
  · exact State.Near.refl s c keys

theorem State.core_reachCycle (s : State) (x d : Nat) : (s.reachCycle x).core d = s.core d := by
  unfold State.reachCycle; simp only; split <;> rfl

theorem State.near_atIssue (s : State) (c : Nat) (keys : List Nat) (h : Reg.CTRL_TIMESTAMP.key 0 0 ∈ keys) : s.Near (s.atIssue c) c keys :=
  State.near_wr s c _ _ _ _ keys h

theorem State.near_countHold (s : State) (c n : Nat) (x : HoldCause) (keys : List Nat) (h : x.row.key c 0 ∈ keys) : s.Near (s.countHold c n x) c keys := by
  unfold State.countHold
  split
  · exact State.Near.refl s c keys
  · exact (State.near_wr s c _ c 0 _ keys h).trans (State.near_mapSeq _ c _ keys)

/-- A core differs from another only in the holds before its current bundle, of which it has no fewer. -/
def Core.heldOn (k k' : Core) : Prop := ∃ m v, k.seq.held ≤ m ∧ k' = { k with seq := { k.seq with held := m, view := { k.seq.view with held := v } } }

theorem Core.heldOn.refl (k : Core) : k.heldOn k := ⟨k.seq.held, k.seq.view.held, Nat.le_refl _, rfl⟩

/-- The current bundle issues later: holds, their counter and the timestamp change. -/
theorem State.holdIssue_spec (s : State) (c n : Nat) (x : HoldCause) (keys : List Nat) (h : x.row.key c 0 ∈ keys) (ht : Reg.CTRL_TIMESTAMP.key 0 0 ∈ keys)
    (hc : s.Canon) : s.Near (s.holdIssue c n x) c keys ∧ (s.core c).heldOn ((s.holdIssue c n x).core c) := by
  unfold State.holdIssue
  split
  · exact ⟨State.Near.refl s c keys, Core.heldOn.refl _⟩
  · rename_i hn
    have a := State.near_countHold s c n x keys h
    refine ⟨(a.trans (State.near_mapSeq _ c _ keys)).trans (State.near_atIssue _ c keys ht), ?_⟩
    have b : (s.countHold c n x).core c = { s.core c with seq := { (s.core c).seq with held := (s.core c).seq.held + n } } := by
      unfold State.countHold
      have hb : (s.bumpC x.row c n).Canon := (State.near_wr s c x.row c 0 _ keys h).canon hc
      rw [if_neg hn, State.core_mapSeq _ c _ hb]
      rfl
    rw [State.atIssue, State.core_setD, State.core_mapSeq _ c _ (a.canon hc), b]
    exact ⟨_, _, Nat.le_add_right _ n, rfl⟩

/-- A bundle that waits for its fill issues later. -/
theorem State.awaitFill_spec (s : State) (c : Nat) (keys : List Nat) (h : Reg.SEQ_FETCH_HOLD.key c 0 ∈ keys) (ht : Reg.CTRL_TIMESTAMP.key 0 0 ∈ keys)
    (hc : s.Canon) : s.Near (s.awaitFill c) c keys ∧ (s.core c).heldOn ((s.awaitFill c).core c) := by
  unfold State.awaitFill
  simp only
  split
  · exact State.holdIssue_spec s c _ .fetch keys h ht hc
  · exact ⟨State.Near.refl s c keys, Core.heldOn.refl _⟩

/-- The registers that the template banks' events change. -/
def bankKeys (c : Nat) : List Nat :=
  [Reg.TPL_SHADOW_READY.key c 0, Reg.TPL_LOADS.key c 0, Reg.TPL_ACTIVE.key c 0, Reg.TPL_SWAPS.key c 0]

/-- A core differs from another only in its pending table loads and swap. -/
def Core.sameButBanks (k k' : Core) : Prop := ∃ l o, k' = { k with tm := { k.tm with tloads := l, swapAt := o } }

theorem Core.sameButBanks.refl (k : Core) : k.sameButBanks k := ⟨k.tm.tloads, k.tm.swapAt, rfl⟩

theorem Core.sameButBanks.trans {k k' k'' : Core} (h : k.sameButBanks k') (g : k'.sameButBanks k'') : k.sameButBanks k'' := by
  obtain ⟨l, o, rfl⟩ := h
  obtain ⟨l', o', rfl⟩ := g
  exact ⟨l', o', rfl⟩

theorem State.tloadComplete_spec (s : State) (c : Nat) (h : s.Canon) :
    s.Near (s.tloadComplete c) c (bankKeys c) ∧ (s.core c).sameButBanks ((s.tloadComplete c).core c) := by
  unfold State.tloadComplete
  split
  · exact ⟨State.Near.refl s c _, Core.sameButBanks.refl _⟩
  · rename_i x r hx
    refine ⟨((State.near_mapTm s c _ _).trans (State.near_wr _ c _ _ _ _ _ ?_)).trans (State.near_wr _ c _ _ _ _ _ ?_), ?_⟩
    · simp [bankKeys]
    · simp [bankKeys]
    · rw [State.core_bumpC, State.core_setC, State.core_mapTm s c _ h]
      exact ⟨r, (s.core c).tm.swapAt, rfl⟩

theorem State.tloadsBefore_spec (s : State) (c cyc : Nat) (l : List Nat) (h : s.Canon) :
    s.Near (s.tloadsBefore c cyc l) c (bankKeys c) ∧ (s.core c).sameButBanks ((s.tloadsBefore c cyc l).core c) := by
  induction l generalizing s with
  | nil => exact ⟨State.Near.refl s c _, Core.sameButBanks.refl _⟩
  | cons x r ih =>
    simp only [State.tloadsBefore]
    split
    · have a := State.tloadComplete_spec s c h
      have b := ih (s.tloadComplete c) (a.1.canon h)
      exact ⟨a.1.trans b.1, a.2.trans b.2⟩
    · exact ⟨State.Near.refl s c _, Core.sameButBanks.refl _⟩

theorem State.swapEffect_spec (s : State) (c : Nat) (h : s.Canon) :
    s.Near (s.swapEffect c) c (bankKeys c) ∧ (s.core c).sameButBanks ((s.swapEffect c).core c) := by
  unfold State.swapEffect
  split
  · exact ⟨State.Near.refl s c _, Core.sameButBanks.refl _⟩
  · rename_i x hx
    have a := State.tloadsBefore_spec s c x (s.core c).tm.tloads h
    refine ⟨?_, ?_⟩
    · refine (((a.1.trans (State.near_mapTm _ c _ _)).trans (State.near_wr _ c _ _ _ _ _ ?_)).trans
        (State.near_wr _ c _ _ _ _ _ ?_)).trans (State.near_wr _ c _ _ _ _ _ ?_) <;> simp [bankKeys]
    · rw [State.core_bumpC, State.core_setC, State.core_setC, State.core_mapTm _ c _ (a.1.canon h)]
      exact a.2.trans ⟨_, none, rfl⟩

theorem State.bankEvents_spec (s : State) (c cyc : Nat) (h : s.Canon) :
    s.Near (s.bankEvents c cyc) c (bankKeys c) ∧ (s.core c).sameButBanks ((s.bankEvents c cyc).core c) := by
  unfold State.bankEvents
  have a : s.Near (match (s.core c).tm.swapAt with | some x => if x ≤ cyc then s.swapEffect c else s | none => s) c (bankKeys c) ∧
      (s.core c).sameButBanks ((match (s.core c).tm.swapAt with | some x => if x ≤ cyc then s.swapEffect c else s | none => s).core c) := by
    split
    · split
      · exact State.swapEffect_spec s c h
      · exact ⟨State.Near.refl s c _, Core.sameButBanks.refl _⟩
    · exact ⟨State.Near.refl s c _, Core.sameButBanks.refl _⟩
  simp only
  have b := State.tloadsBefore_spec _ c cyc ((match (s.core c).tm.swapAt with
    | some x => if x ≤ cyc then s.swapEffect c else s | none => s).core c).tm.tloads (a.1.canon h)
  exact ⟨a.1.trans b.1, a.2.trans b.2⟩

theorem State.core_reachLin (s : State) (x d : Nat) : (s.reachLin x).core d = s.core d := State.core_reachCycle s _ d

theorem State.near_reachLin (s : State) (c x : Nat) (keys : List Nat) (h : Reg.CTRL_TIMESTAMP.key 0 0 ∈ keys) : s.Near (s.reachLin x) c keys :=
  State.near_reachCycle s c _ keys h

/-- What a core holds once its next bundle has opened. -/
structure Core.Opened (k k' : Core) (sl : Slot) (b : Bundle) : Prop where
  sreg : k'.sreg = k.sreg
  lc : k'.lc = k.lc
  rest : k'.rest = k.rest
  view : k'.seq.view.sreg = k.sreg
  bundle : k'.seq.bundle = b
  lastSlot : k'.seq.lastSlot = slotCode sl
  endEntry : k'.seq.endEntry = k.seq.endEntry
  index : k'.seq.index = k.seq.nextIndex
  cycle : k'.seq.cycle = k.seq.nextCycle
  nextIndex : k'.seq.nextIndex = k.seq.nextIndex + 1
  nextCycle : k'.seq.nextCycle = k.seq.nextCycle + 1 + bDelay b
  sReady : k'.tm.sReady = k.tm.sReady
  held : k.seq.held ≤ k'.seq.held
  tile : k.rowWrites = [] → k'.tile = k.tile ∧ k'.rowWrites = []
  hod : ∀ x ∈ k.hod, x.release = none → x ∈ k'.hod

theorem State.opened_spec (s : State) (c : Nat) (sl : Slot) (b : Bundle) (h : s.Canon) :
    s.Near (s.opened c sl b) c (issueKeys c) ∧ (s.core c).Opened ((s.opened c sl b).core c) sl b := by
  have a := State.bankEvents_spec s c (s.core c).seq.nextCycle h
  have an : s.Near (s.bankEvents c (s.core c).seq.nextCycle) c (issueKeys c) := a.1.mono (by simp [bankKeys, issueKeys])
  obtain ⟨l, o, hc⟩ := a.2
  unfold State.opened State.startBundle
  simp only
  have m := an.trans (State.near_mapCore (s.bankEvents c (s.core c).seq.nextCycle) c (fun k =>
    let k := k.settle (s.core c).seq.nextCycle
    { k with
      seq := { k.seq with
        bundle := b, index := (s.core c).seq.nextIndex, cycle := (s.core c).seq.nextCycle, lastSlot := slotCode sl,
        nextIndex := (s.core c).seq.nextIndex + 1, nextCycle := (s.core c).seq.nextCycle + 1 + bDelay b,
        view := ⟨k.sreg, (s.bankEvents c (s.core c).seq.nextCycle).cf Reg.DRESS_VL c, (s.bankEvents c (s.core c).seq.nextCycle).cf Reg.DRESS_RL c,
          none, k.tm.sReady, k.seq.held⟩ }
      hod := k.hod.filter fun x => match x.release with | some r => decide ((s.core c).seq.nextCycle ≤ r) | none => true }) (issueKeys c))
  have n := m.trans (State.near_atIssue _ c (issueKeys c) (by simp [issueKeys]))
  have f := State.awaitFill_spec _ c (issueKeys c) (by simp [issueKeys]) (by simp [issueKeys]) (n.canon h)
  refine ⟨((n.trans f.1).trans (State.near_wr _ c _ _ _ _ _ ?_)).trans (State.near_wr _ c _ _ _ _ _ ?_), ?_⟩
  · simp [issueKeys]
  · simp [issueKeys]
  · obtain ⟨v, w, hv, f⟩ := f.2
    rw [State.core_bumpC, State.core_bumpC]
    refine (congrArg (fun k => (s.core c).Opened k sl b) f).mpr ?_
    rw [State.atIssue, State.core_setD, State.core_mapCore _ c _ (a.1.canon h), hc] at hv ⊢
    refine ⟨rfl, rfl, rfl, rfl, rfl, rfl, rfl, rfl, rfl, rfl, rfl, rfl, hv, ?_, ?_⟩
    · intro hw
      have hw' : (s.core c).rowWrites = [] := hw
      simp [Core.settle, hw']
    · intro x hx hr
      show x ∈ List.filter _ _
      refine List.mem_filter.mpr ⟨hx, ?_⟩
      simp [hr]

/-- A bundle that issues opens. -/
theorem State.openBundle_of_issues (s : State) (c : Nat) (sl : Slot) (b : Bundle) (hc : s.Canon) (h : s.Issues c sl b) :
    s.openBundle c (slotCode sl) b = .ok (s.opened c sl b) := by
  have a := State.bankEvents_spec s c (s.core c).seq.nextCycle hc
  have hp : ((s.startBundle c (slotCode sl) b).core c).parityBad = [] := by
    have x := (State.opened_spec s c sl b hc).2.rest
    rw [State.opened, State.core_bumpC, State.core_bumpC] at x
    have y : ((s.startBundle c (slotCode sl) b).core c).parityBad = (s.core c).parityBad := by
      simpa only [Core.rest] using congrArg Core.parityBad x
    rw [y, h.parity]
  have hi := h.inside
  unfold State.openBundle
  rw [if_neg h.fresh]
  simp only [State.stopReaches, h.calm, List.any_nil, h.going, Option.isSome_none, Bool.false_eq_true, if_false, if_neg (Nat.not_le.mpr hi), h.there, Bool.not_true, hp, h.legal, State.opened]

/-- A slot command whose bundle issues: its operation acts on the opened state, and the course may retire. -/
theorem runSlot_of_issues (sl : Slot) (op c : Nat) (b : Bundle) (body : State → Bundle → Except State State) (s : State) (hc : s.Canon)
    (h : s.Issues c sl (coded sl op b)) :
    runSlot sl op c b body s =
      match body (s.opened c sl (coded sl op b)) (coded sl op b) with
      | .ok t => .next ((t.tryRetire c).notBefore s.now)
      | .error t => .next (t.notBefore s.now) := by
  have ho := State.openBundle_of_issues s c sl _ hc h
  unfold coded at *
  unfold runSlot
  simp only [h.issuing, h.free, Bool.not_false, Bool.and_self, if_true, ho]
  rfl

/-- With no COURSE_END issued a slot command ends no course. -/
theorem State.tryRetire_of_going (s : State) (c : Nat) (h : (s.core c).seq.endEntry = none) : s.tryRetire c = s := by
  unfold State.tryRetire
  simp [h]

/-! Holds for a late load, and writes of scalar registers. -/

theorem State.waitReg_spec (s : State) (c r : Nat) (h : s.Canon) :
    s.Near (s.waitReg c r) c (issueKeys c) ∧ (s.core c).heldOn ((s.waitReg c r).core c) :=
  State.holdIssue_spec s c _ .feed (issueKeys c) (by simp [issueKeys, HoldCause.row]) (by simp [issueKeys]) h

/-- The clock of a step does not fall back: only the timestamp changes. -/
theorem State.near_notBefore (s : State) (c old : Nat) (keys : List Nat) (h : Reg.CTRL_TIMESTAMP.key 0 0 ∈ keys) : s.Near (s.notBefore old) c keys := by
  unfold State.notBefore
  split
  · exact State.near_wr s c _ _ _ _ keys h
  · exact State.Near.refl s c keys

theorem State.core_notBefore (s : State) (old d : Nat) : (s.notBefore old).core d = s.core d := by
  unfold State.notBefore; split <;> rfl

theorem State.core_setS (s : State) (c r v : Nat) (h : s.Canon) (hr : r < 32) :
    ((s.setS c r v).core c) = { s.core c with
       sreg := (s.core c).sreg.set r (BitVec.ofNat 64 v) hr
       tm := { (s.core c).tm with sReady := Sparse.put 0 (s.core c).tm.sReady r 0 } } := by
  unfold State.setS
  rw [State.core_mapCore _ c _ h]
  simp [hr]

theorem fld_lt (w hi lo : Nat) : fld w hi lo < 2 ^ (hi + 1 - lo) := Nat.mod_lt _ (Nat.two_pow_pos _)

/-- A slot body that changes only scalar registers, loop counters and sequencing after its bundle opened meets the scalar frame. -/
theorem State.ScalarFrame.of (s t u : State) (c : Nat) (sl : Slot) (b : Bundle) (hc : s.Canon) (hu : u = s.opened c sl b) 
   (hn : u.Near t c (issueKeys c)) (hr : (t.core c).rest = (u.core c).rest) (ht : (t.core c).tile = (u.core c).tile) (hw : (t.core c).rowWrites = (u.core c).rowWrites)
   (hh : (t.core c).hod = (u.core c).hod) : s.ScalarFrame t c (issueKeys c) := by
  subst hu
  have o := State.opened_spec s c sl b hc
  have n := o.1.trans hn
  refine ⟨n.frame, fun a => ?_, hr.trans o.2.rest, ?_, ?_⟩
  · simp [State.byteAt, n.mem]
  · intro h
    have := o.2.tile h
    rw [ht, hw]; exact this
  · intro x hx hr
    rw [hh]; exact o.2.hod x hx hr

theorem State.word_eq (s : State) (c r : Nat) (hr : r < 32) : s.word c r = (s.core c).sreg[r] := by
  simp [State.word, State.sregNext, hr]

end Sys2Proof.Machine
end

