-- ==== Sys2Proof/WellFormed.lean ====
section
/-!
DEFINITION. Well-formed commands: operands within the ranges the spec gives them.
A packet command is also well formed with a packet that R273 calls malformed: what the die does with one is the command's meaning.
-/

namespace Sys2Proof

/-- A core ID (R15). -/
def coreFits (c : Nat) : Bool := decide (c < 1024)

/-- A packet of at most 512 payload bytes in whole words (R270). -/
def Packet.fits (p : Packet) : Bool := decide (p.payload.length ≤ 512) && decide (p.payload.length % 8 = 0)

/-- A frame: FSEQ and ACK of 12 bits, eight credit fields, symbol errors of nine codewords, and packets that fit (R262, R263). -/
def Frame.fits (f : Frame) : Bool := decide (f.fseq < 4096) && decide (f.ack < 4096) && decide (f.credits.length = 8) && decide (f.errors.length = 9) && f.packets.all Packet.fits

/-- A sample of the power loop: 64 groups and 128 sensors (R316, R317). -/
def LoopSample.fits (x : LoopSample) : Bool := decide (x.groups.length = 64) && decide (x.temps.length = 128)

/-- A failure lies in a memory, an array or a core that exists (R203, R209, R221, R342). -/
def TestFault.fits : TestFault → Bool
  | .line c b r => coreFits c && decide (b < 16) && decide (r < 48)
  | .spareLine c b => coreFits c && decide (b < 16)
  | .row u r => decide (u < 64) && decide (r < 4096)
  | .spareRow u e => decide (u < 64) && decide (e < 512)
  | .array c a => coreFits c && decide (a < 4)
  | .part c => coreFits c

/-- A command is well formed. -/
def Instr.wf : Instr → Bool
  | .vddPlinthUp => true
  | .vddPlinthLoss => true
  | .pwrgoodRise pos _ => decide (pos < 8)
  | .pwrgoodLow => true
  | .resetNLow => true
  | .resetNRelease => true
  | .compResetNLow => true
  | .compResetNRelease => true
  | .wholeDieReset _ seq target a0 a1 a2 a3 => decide (seq < 2 ^ 16) && decide (target < 2 ^ 64) && decide (a0 < 2 ^ 64) && decide (a1 < 2 ^ 64) && decide (a2 < 2 ^ 64) && decide (a3 < 2 ^ 64)
  | .computePartReset _ seq target a0 a1 a2 a3 => decide (seq < 2 ^ 16) && decide (target < 2 ^ 64) && decide (a0 < 2 ^ 64) && decide (a1 < 2 ^ 64) && decide (a2 < 2 ^ 64) && decide (a3 < 2 ^ 64)
  | .coreGroupReset _ seq target a0 a1 a2 a3 => decide (seq < 2 ^ 16) && decide (target < 2 ^ 64) && decide (a0 < 2 ^ 64) && decide (a1 < 2 ^ 64) && decide (a2 < 2 ^ 64) && decide (a3 < 2 ^ 64)
  | .bootPhase _ => true
  | .stageWrite _ off data => decide (off < 2 ^ 22) && decide (data.length % 8 = 0)
  | .delivered _ => true
  | .enumGo _ => true
  | .enumerationStart => true
  | .hubQueryTimeout port => decide (port < 8)
  | .hubReply port p => decide (port < 9) && p.fits
  | .token port p => decide (port < 9) && p.fits
  | .tokenReturnTimeout => true
  | .tokenWaitTimeout => true
  | .enumDone port p => decide (port < 9) && p.fits
  | .hello port p => decide (port < 9) && p.fits
  | .syncTickEdge _ => true
  | .goAlign _ => true
  | .align port p => decide (port < 9) && p.fits
  | .trainingStateExit port _ mask us => decide (port < 8) && decide (mask < 2 ^ 32) && decide (us < 2 ^ 24)
  | .trainingTimeout port => decide (port < 8)
  | .retrain _ port => decide (port < 8)
  | .frame port f => decide (port < 8) && f.fits
  | .lossOfFrame port => decide (port < 8)
  | .linkDown port p => decide (port < 9) && p.fits
  | .routeTableInstall => true
  | .creditReturn port c vl cls _ => decide (port < 9) && decide (c < 1024) && decide (vl < 4) && decide (cls < 2)
  | .packetForward port p => decide (port < 9) && p.fits
  | .pktWrite port p => decide (port < 9) && p.fits
  | .pktWriteS port p => decide (port < 9) && p.fits
  | .pktReadReq port p => decide (port < 9) && p.fits
  | .pktReadRsp port p => decide (port < 9) && p.fits
  | .pktTieAdd port p => decide (port < 9) && p.fits
  | .pktComplete port p => decide (port < 9) && p.fits
  | .pktNack port p => decide (port < 9) && p.fits
  | .archArrive port p => decide (port < 9) && p.fits
  | .archRelease port p => decide (port < 9) && p.fits
  | .slip port p => decide (port < 9) && p.fits
  | .epochWrite _ v => decide (v < 2 ^ 16)
  | .courseTick => true
  | .demandFetch c => decide (c < 1024)
  | .runaheadFill c index _ depth => decide (c < 1024) && decide (index < 16384) && decide (depth < 8)
  | .courseEndRetire c => decide (c < 1024)
  | .courseOverrun => true
  | .bedGrant c b _ lat => decide (c < 1024) && decide (b < 16) && decide (lat < 2 ^ 16)
  | .yardGrant u b => decide (u < 64) && decide (b < 2)
  | .scrubRead mem u row _ _ => decide (mem < 2) && decide (u < 1024) && decide (row < 4608)
  | .bedRepairWindow c => decide (c < 1024)
  | .yardRepairWindow slice => decide (slice < 64)
  | .tieUpdateDelivered h t _ => decide (h < 1024) && decide (t < 256)
  | .waitRegistration c => decide (c < 1024)
  | .waitTimeout c => decide (c < 1024)
  | .wake c => decide (c < 1024)
  | .windowSignal c w => decide (c < 1024) && decide (w < 32)
  | .archClosure a => decide (a < 8)
  | .archForce _ a => decide (a < 8)
  | .handsetTie _ c index => decide (c < 1024) && decide (index < 256)
  | .handsetOpen _ c index => decide (c < 1024) && decide (index < 32)
  | .handsetClose _ c index => decide (c < 1024) && decide (index < 32)
  | .dumpGo _ base => decide (base < 2 ^ 27)
  | .dumpDone => true
  | .nop c _ _ => coreFits c
  | .add c _ => coreFits c
  | .sub c _ => coreFits c
  | .mul c _ => coreFits c
  | .sAnd c _ => coreFits c
  | .sOr c _ => coreFits c
  | .sXor c _ => coreFits c
  | .shl c _ => coreFits c
  | .shr c _ => coreFits c
  | .sar c _ => coreFits c
  | .slt c _ => coreFits c
  | .sltu c _ => coreFits c
  | .addi c _ => coreFits c
  | .andi c _ => coreFits c
  | .ori c _ => coreFits c
  | .liq c _ => coreFits c
  | .ld c _ => coreFits c
  | .st c _ => coreFits c
  | .rdsys c _ => coreFits c
  | .hset c _ => coreFits c
  | .beq c _ => coreFits c
  | .bne c _ => coreFits c
  | .blt c _ => coreFits c
  | .bge c _ => coreFits c
  | .jmp c _ => coreFits c
  | .jr c _ => coreFits c
  | .lset c _ => coreFits c
  | .lseti c _ => coreFits c
  | .bloop c _ => coreFits c
  | .delayi c _ => coreFits c
  | .phaseHint c _ => coreFits c
  | .courseEnd c _ => coreFits c
  | .mm c _ => coreFits c
  | .kadd c _ => coreFits c
  | .exportTile c _ => coreFits c
  | .fadd c _ => coreFits c
  | .fsub c _ => coreFits c
  | .fmul c _ => coreFits c
  | .fma c _ => coreFits c
  | .fms c _ => coreFits c
  | .fmax c _ => coreFits c
  | .fmin c _ => coreFits c
  | .fabs c _ => coreFits c
  | .fneg c _ => coreFits c
  | .iadd c _ => coreFits c
  | .isub c _ => coreFits c
  | .imul c _ => coreFits c
  | .imax c _ => coreFits c
  | .imin c _ => coreFits c
  | .vShl c _ => coreFits c
  | .vShr c _ => coreFits c
  | .vSar c _ => coreFits c
  | .vAnd c _ => coreFits c
  | .vOr c _ => coreFits c
  | .vXor c _ => coreFits c
  | .andn c _ => coreFits c
  | .mov c _ => coreFits c
  | .fcmp c _ => coreFits c
  | .icmp c _ => coreFits c
  | .sel c _ => coreFits c
  | .perm c _ => coreFits c
  | .shuf c _ => coreFits c
  | .pack c _ => coreFits c
  | .unpack c _ => coreFits c
  | .cvt c _ => coreFits c
  | .cvtS c _ => coreFits c
  | .split2 c _ => coreFits c
  | .split3 c _ => coreFits c
  | .rsum c _ => coreFits c
  | .rmax c _ => coreFits c
  | .rmin c _ => coreFits c
  | .rssq c _ => coreFits c
  | .rmv c _ => coreFits c
  | .amaxs c _ => coreFits c
  | .vld c _ => coreFits c
  | .vst c _ => coreFits c
  | .setvl c _ => coreFits c
  | .setvlR c _ => coreFits c
  | .pull c _ => coreFits c
  | .teval c _ => coreFits c
  | .tload c _ => coreFits c
  | .tloadComplete c => decide (c < 1024)
  | .tswap c _ => coreFits c
  | .tswapEffect c => decide (c < 1024)
  | .beylerWrite c v => decide (c < 1024) && decide (v < 2)
  | .imageCopyDone c => decide (c < 1024)
  | .filla c _ => coreFits c
  | .fillw c _ => coreFits c
  | .fillb c _ => coreFits c
  | .moveCopy c _ => coreFits c
  | .moveBegin c => decide (c < 1024)
  | .signal c _ => coreFits c
  | .tieAdd c _ => coreFits c
  | .tieAddL c _ => coreFits c
  | .dec c _ => coreFits c
  | .waitTie c _ => coreFits c
  | .waitTake c _ => coreFits c
  | .arrive c _ => coreFits c
  | .await c _ => coreFits c
  | .wopen c _ => coreFits c
  | .wclose c _ => coreFits c
  | .registerWrite _ a v => decide (a < 2 ^ 44) && decide (v < 2 ^ 64)
  | .histClear c v => decide (c < 1024) && decide (v < 4)
  | .ackSeq _ v => decide (v < 2 ^ 64)
  | .domOff _ v => decide (v < 2 ^ 64)
  | .domOffYq _ v => decide (v < 16)
  | .domainSwitchDone => true
  | .start _ seq target a0 a1 a2 a3 => decide (seq < 2 ^ 16) && decide (target < 2 ^ 64) && decide (a0 < 2 ^ 64) && decide (a1 < 2 ^ 64) && decide (a2 < 2 ^ 64) && decide (a3 < 2 ^ 64)
  | .suspend _ seq target a0 a1 a2 a3 => decide (seq < 2 ^ 16) && decide (target < 2 ^ 64) && decide (a0 < 2 ^ 64) && decide (a1 < 2 ^ 64) && decide (a2 < 2 ^ 64) && decide (a3 < 2 ^ 64)
  | .resume _ seq target a0 a1 a2 a3 => decide (seq < 2 ^ 16) && decide (target < 2 ^ 64) && decide (a0 < 2 ^ 64) && decide (a1 < 2 ^ 64) && decide (a2 < 2 ^ 64) && decide (a3 < 2 ^ 64)
  | .resumeFromImage _ seq target a0 a1 a2 a3 => decide (seq < 2 ^ 16) && decide (target < 2 ^ 64) && decide (a0 < 2 ^ 64) && decide (a1 < 2 ^ 64) && decide (a2 < 2 ^ 64) && decide (a3 < 2 ^ 64)
  | .cancel _ seq target a0 a1 a2 a3 => decide (seq < 2 ^ 16) && decide (target < 2 ^ 64) && decide (a0 < 2 ^ 64) && decide (a1 < 2 ^ 64) && decide (a2 < 2 ^ 64) && decide (a3 < 2 ^ 64)
  | .memtest _ seq target a0 a1 a2 a3 => decide (seq < 2 ^ 16) && decide (target < 2 ^ 64) && decide (a0 < 2 ^ 64) && decide (a1 < 2 ^ 64) && decide (a2 < 2 ^ 64) && decide (a3 < 2 ^ 64)
  | .memtestDone faults => faults.all TestFault.fits
  | .broadcast _ seq target a0 a1 a2 a3 => decide (seq < 2 ^ 16) && decide (target < 2 ^ 64) && decide (a0 < 2 ^ 64) && decide (a1 < 2 ^ 64) && decide (a2 < 2 ^ 64) && decide (a3 < 2 ^ 64)
  | .floodPacket c k data => decide (c < 1024) && decide (k < 2 ^ 16) && decide (data.length % 8 = 0)
  | .broadcastRound => true
  | .rebond _ seq target a0 a1 a2 a3 => decide (seq < 2 ^ 16) && decide (target < 2 ^ 64) && decide (a0 < 2 ^ 64) && decide (a1 < 2 ^ 64) && decide (a2 < 2 ^ 64) && decide (a3 < 2 ^ 64)
  | .rebondMoverStart => true
  | .rebondPacket m => decide (m < 64)
  | .rebondTimeout m => decide (m < 64)
  | .repair _ seq target a0 a1 a2 a3 => decide (seq < 2 ^ 16) && decide (target < 2 ^ 64) && decide (a0 < 2 ^ 64) && decide (a1 < 2 ^ 64) && decide (a2 < 2 ^ 64) && decide (a3 < 2 ^ 64)
  | .contextTransfer g => decide (g < 64)
  | .powerLoop x => x.fits
  | .powerWindow _ => true
  | .envelopeTarget _ v => decide (v < 2 ^ 64)
  | .telemetry f => decide (f.length ≤ 269)
  | .telemetryLost => true
  | .droopTrip d => decide (d < 256)
  | .droopClear d _ _ => decide (d < 256)
  | .droopLong => true
  | .coolantOkFall => true
  | .coolantStop => true
  | .coolantRestored => true
  | .throttleSummary => true
  | .alert _ v => decide (v < 128)
  | .repointing _ => true
  | .repointingDone mon delay => decide (mon < 512) && decide (delay < 32768)
  | .railReqRepeat => true
  | .railReqTimeout rail => decide (rail < 2)
  | .ledgerRecord => true
  | .ledgerIbiRepeat => true
  | .rateSummary => true
  | .minuteCount => true
  | .attestGo _ => true
  | .attestReportDone => true
  | .markLock _ => true
  | .debugFreeze _ => true
  | .freezeNLow => true
  | .freezeNHigh _ => true
  | .debugMode _ _ => true
  | .traceEnable _ v => decide (v < 2 ^ 64)
  | .traceReady => true
  | .traceRecord c => decide (c < 1024)
  | .idcode => true
  | .ijtag => true
  | .bypass code => decide (code < 256)
  | .freezeCtl _ => true
  | .corescan c => decide (c < 1024)
  | .memrd a => decide (a < 2 ^ 44)
  | .tapReset => true
  | .trowelPeek _ => true
  | .trowelPoke _ => true
  | .trowelFloor _ => true
  | .trowelLedger _ => true
  | .trowelTies _ => true
  | .trowelArches _ => true
  | .trowelPorts _ => true
  | .trowelPower _ => true
  | .trowelFreeze _ => true
  | .trowelThaw _ _ => true
  | .trowelDump _ => true
  | .trowelSetTie _ => true
  | .sbRegWrite f => decide (f.length ≤ 269)
  | .sbRegRead f => decide (f.length ≤ 269)
  | .sbEnvelope f => decide (f.length ≤ 269)
  | .sbRailDone f => decide (f.length ≤ 269)
  | .sbLedgerRead f => decide (f.length ≤ 269)
  | .sbPrivateRead => true
  | .enec => true
  | .disec => true
  | .rstdaa => true
  | .setdasa static dyn => decide (static < 128) && decide (dyn < 128)
  | .setmwl n => decide (n < 2 ^ 16)
  | .setmrl n => decide (n < 2 ^ 16)
  | .getmwl => true
  | .getmrl => true
  | .getpid => true
  | .getbcr => true
  | .getdcr => true
  | .getstatus => true
  | .cmdResult => true
  | .memtestPassEnd _ => true

end Sys2Proof
end

