-- ==== Sys2Proof/Tests/Slice0.lean ====
section
/-! SUPPORT. The package's own tests: ill-formed commands are refused by WellFormed, and for every statement of
Certificates/Slice0/Obligations.lean a theorem `witness` shows concrete states and operands that meet its hypotheses, clause by clause. -/
namespace Sys2Proof.Tests
open Sys2Proof.Machine
set_option maxRecDepth 100000
set_option linter.all false
set_option Elab.async false

/-! Small states. -/

/-- Register fields written one by one. -/
def setR (s : State) (l : List (Row × Nat × Nat × Nat)) : State :=
  { s with regs := l.foldl (fun m x => Sparse.put (x.1.resetOf x.2.1) m (x.1.key x.2.1 x.2.2.1) (x.2.2.2 % 2 ^ x.1.width)) s.regs }
def setDs (s : State) (l : List (Row × Nat)) : State := setR s (l.map fun x => (x.1, 0, 0, x.2))
/-- Fields listed in the order of their keys. -/
def regsOf (l : List (Row × Nat × Nat × Nat)) : Sparse Nat := l.map fun x => (x.1.key x.2.1 x.2.2.1, x.2.2.2)
/-- Die registers of `up`, with more of them in two places. -/
def upRegs (course ops : List (Row × Nat × Nat × Nat)) : List (Row × Nat × Nat × Nat) :=
  [(Reg.DIR_DOM_ON_LO, 0, 0, 2 ^ 64 - 1), (Reg.DIR_DOM_ON_HI, 0, 0, 2 ^ 16 - 1), (Reg.PLACE_DIE_ID, 0, 0, 2), (Reg.PLACE_PACKAGE_ID, 0, 0, 9)] ++
  ((List.range 6).flatMap fun c => [(Reg.FLOOR_STATE, 0, c, 2), (Reg.FLOOR_ARRAYS, 0, c, 15)]) ++ (Reg.CTRL_TIMESTAMP, 0, 0, 5 * 2 ^ 24 + 100) :: course ++
  [(Reg.RING_CURRENT, 0, 0, 4), (Reg.POWER_COOLANT_OK, 0, 0, 1)] ++ ops ++ [(Reg.BOOT_PHASE, 0, 0, 7), (Reg.MARK_VERIFIED, 0, 0, 1), (Reg.MARK_PUF_OK, 0, 0, 1)]
/-- A powered die in phase 7, its domains on, six cores in the floor plan. -/
def up : State :=
  { State.reset with
    boot := { State.reset.boot with plinth := true, pwrgood := true, resetN := true, risen := true, ready := true }
    regs := regsOf (upRegs [] []) }
/-- Core c runs a course. -/
def runCore (s : State) (c : Nat) : State :=
  (s.setC Reg.SEQ_RUN c 1).mapSeq c fun q => { q with inCourse := true, len := 1000, tick := 5, start := 50 }
/-- A task in state RUNNING. -/
def inTask (s : State) (cs : List Nat) : State :=
  let s := (cs.foldl runCore s).wr Reg.CMD_OPS_STATE 0 0 2
  { s with task := { s.task with parts := cs, first := false } }
def ev (code unit : Nat) (data : List Nat) (time sev : Nat) (stop : Bool) : Event := ⟨code, unit, data, time, sev, stop⟩
def fr (s : State) : State := { s with frozen := true }
/-- A packet by its fields. -/
def pk (ty sub vl len : Nat) (payload : List Byte) (addr : Nat := 0) (dst : Nat × Nat × Nat × Nat := (9, 2, 0, 0))
    (src : Nat × Nat × Nat × Nat := (9, 3, 0, 0)) (epoch : Nat := 4) (tag : Nat := 0) (win : Bool := false) (creq : Bool := false) (time : Nat := 77) :
    Packet :=
  { w0 := BitVec.ofNat 64 (dst.1 + dst.2.1 * 2 ^ 16 + dst.2.2.1 * 2 ^ 20 + vl * 2 ^ 30 + ty * 2 ^ 32 + sub * 2 ^ 36 + len * 2 ^ 44 + b2n creq * 2 ^ 54 +
      b2n win * 2 ^ 55 + dst.2.2.2 * 2 ^ 56)
    w1 := BitVec.ofNat 64 (src.1 + src.2.1 * 2 ^ 16 + src.2.2.1 * 2 ^ 20 + src.2.2.2 * 2 ^ 30 + epoch * 2 ^ 32 + tag * 2 ^ 48)
    w2 := BitVec.ofNat 64 addr, w3 := BitVec.ofNat 64 time, payload := payload }
def ports (s : State) (l : List Nat) : State := setR s (l.map fun p => (Reg.LINK_STATE, p, 0, 5))
/-- A core in a course, with a few handles and scalar registers. -/
def lCore (_ c : Nat) : State :=
  let own : Nat := 9 * 2 ^ 48 + 2 * 2 ^ 44 + 0x10000000000 + 2 ^ 20
  let far : Nat := 9 * 2 ^ 48 + 5 * 2 ^ 44 + 0x10000000000 + 2 ^ 20
  let l : List (Row × Nat × Nat × Nat) :=
    [(Reg.SEQ_RUN, c, 0, 1), (Reg.DRESS_VL, c, 0, 20), (Reg.DRESS_RL, c, 0, 2), (Reg.HANDLE_EXTENT, c, 0, 0x4000), (Reg.HANDLE_KIND, c, 0, 1),
     (Reg.HANDLE_BASE, c, 1, 512), (Reg.HANDLE_EXTENT, c, 1, 0x4000), (Reg.HANDLE_KIND, c, 1, 1), (Reg.HANDLE_BASE, c, 2, 0x8000),
     (Reg.HANDLE_EXTENT, c, 2, 0x4000), (Reg.HANDLE_KIND, c, 2, 1), (Reg.HANDLE_EXTENT, c, 8, 4096), (Reg.HANDLE_KIND, c, 8, 2),
     (Reg.HANDLE_BASE, c, 11, 0x1000), (Reg.HANDLE_EXTENT, c, 11, 0x4000), (Reg.HANDLE_KIND, c, 11, 3), (Reg.HANDLE_BASE, c, 12, own),
     (Reg.HANDLE_EXTENT, c, 12, 8), (Reg.HANDLE_KIND, c, 12, 6), (Reg.HANDLE_INDEX, c, 12, 5), (Reg.HANDLE_BASE, c, 13, far),
     (Reg.HANDLE_EXTENT, c, 13, 8), (Reg.HANDLE_KIND, c, 13, 6), (Reg.SEQ_RUN, c + 1, 0, 1)] ++ upRegs [(Reg.CTRL_COURSE_NUMBER, 0, 0, 77)] [(Reg.CMD_OPS_STATE, 0, 0, 2)]
  let run (q : Sequencer) : Sequencer := { q with inCourse := true, len := 1000, tick := 5, start := 50 }
  { up with
    regs := regsOf l
    task := { up.task with parts := [c, c + 1], first := false }
    cores := [(c, { Core.init with
        sreg := Vector.ofFn fun i : Fin 32 => BitVec.ofNat 64 (if i.val < 10 then 16 * i.val else if i.val < 14 then i.val - 10 else if i.val < 16 then 512 * (i.val - 13) else 0)
        lc := Vector.ofFn fun i : Fin 4 => BitVec.ofNat 32 i.val
        ties := [(1, 9), (2, 4), (7, 30)]
        seq := { run Core.init.seq with nextIndex := 100, index := 99, nextCycle := 200, cycle := 199, len := 8000 } }),
      (c + 1, { Core.init with seq := run Core.init.seq })] }

/-! What a witness shows, and how its conditions are met. -/

/-- A state in canonical form meets the premise of a statement about the command. -/
def Meets (_ : Instr) (P : State → Prop) : Prop := ∃ s : State, s.Good ∧ P s
/-- A state in which a slot command issues meets the premise of a statement about it. -/
def MeetsIf (_ : Nat → Bundle → Instr) (sl : Slot) (op : Nat) (P : State → Nat → Bundle → Prop) : Prop :=
  ∃ (s : State) (c : Nat) (b : Bundle), s.Canon ∧ (s.core c).Canon ∧ s.Issues c sl (coded sl op b) ∧ P s c (coded sl op b)
/-- The bundle buffer of core c holds the bundle of a slot command at the index that issues next. -/
def holding (s : State) (c : Nat) (sl : Slot) (op : Nat) (b : Bundle) : State :=
  s.mapCore c fun k => { k with bbuf := Sparse.put emptySlot k.bbuf (k.seq.nextIndex % 128) (k.seq.nextIndex, coded sl op b) }
theorem shown {i : Instr} {P : State → Prop} (s : State) (h : s.goodB = true) (p : P s) : Meets i P := ⟨s, s.good_of_goodB h, p⟩
theorem shownIf {mk : Nat → Bundle → Instr} {sl : Slot} {op : Nat} {P : State → Nat → Bundle → Prop} (s : State) (c : Nat) (b : Bundle)
    (h : (holding s c sl op b).canonB = true) (k : ((holding s c sl op b).core c).canonB = true) (i : (holding s c sl op b).Issues c sl (coded sl op b))
    (p : P (holding s c sl op b) c (coded sl op b)) : MeetsIf mk sl op P :=
  ⟨holding s c sl op b, c, b, State.canon_of_canonB _ h, Core.canon_of_canonB _ k, i, p⟩
theorem State.wordFits_of {s : State} {a : Nat}
    (h : (match pageAt a with
      | some (.core c n o) => (wordFields (Reg.corePage n) o).all fun x => decide (s.field x.1 (x.1.unitOf c n) x.2.1 < 2 ^ x.1.width)
      | some (.die n o) => (wordFields (Reg.diePage n) o).all fun x => decide (s.field x.1 (x.1.unitOf 0 n) x.2.1 < 2 ^ x.1.width)
      | none => true) = true) : s.WordFits a := by
  unfold State.WordFits
  revert h
  cases pageAt a with
  | none => intro _; trivial
  | some q =>
    cases q with
    | core c n o => intro h x hx; exact of_decide_eq_true (List.all_eq_true.mp h x hx)
    | die n o => intro h x hx; exact of_decide_eq_true (List.all_eq_true.mp h x hx)
theorem forall_covers {p : MmArgs} {P : Nat → Nat → Nat → Prop} (h : ∀ a < 4, ∀ i < p.m, ∀ j < p.n, bit p.mask a = true → P a i j) (a i j : Nat) :
    p.covers a i j → P a i j := fun ⟨ha, hb, hi, hj⟩ => h a ha i hi j hj hb
theorem placed_bed {a : Nat} {R : Nat → Nat → Prop} [∀ c o, Decidable (R c o)]
    (h : (match placeOf a with | .bed c o => decide (R c o) | _ => false) = true) : ∃ c o, placeOf a = .bed c o ∧ R c o := by
  split at h
  · rename_i c o e; exact ⟨c, o, e, of_decide_eq_true h⟩
  · cases h
theorem placed_sync {a : Nat} {R : Nat → Nat → Prop} [∀ c o, Decidable (R c o)]
    (h : (match placeOf a with | .sync c o => decide (R c o) | _ => false) = true) : ∃ c o, placeOf a = .sync c o ∧ R c o := by
  split at h
  · rename_i c o e; exact ⟨c, o, e, of_decide_eq_true h⟩
  · cases h
theorem State.branchable_of {s : State} {c : Nat} {i : Int} (h : decide (0 ≤ i ∧ i ≤ 12287 ∧ 32 * (s.cf Reg.SEQ_ENTRY c : Int) + 64 + 32 * i ≤ bedSize) = true) :
    s.branchable c i := by
  unfold State.branchable; exact of_decide_eq_true h
theorem notWaiting_of {l : List (Nat × Packet)} {p : Nat} (h : (l.all fun y => decide (y.1 ≠ p)) = true) : ∀ x, (p, x) ∉ l :=
  fun x hx => of_decide_eq_true (List.all_eq_true.mp h _ hx) rfl
theorem reaches_of {s : State} {a : Nat} (h : (match pageAt a with | some (.core c _ _) => s.coreAlive c | _ => true) = true) : s.reaches a := by
  intro c n o e
  rw [e] at h
  exact h
theorem plainWord_of {a : Nat}
    (h : (decide (a % 8 = 0) && !(fieldsAt a).isEmpty && ((fieldsAt a).all fun x => decide (x.1.acc ≠ .wo) && decide (x.1 ∉ actingRows)) &&
      (match pageAt a with
        | some (.core _ _ o) => decide (0x40 ≤ o)
        | some (.die n o) => decide (0x40 ≤ o) && decide (¬ (n = 9 ∧ o = 0x40)) && decide (¬ (n = 10 ∧ o = 0x60)) && decide (¬ (n = 24 ∧ o = 0x50))
        | none => true)) = true) : plainWord a := by
  simp only [Bool.and_eq_true, decide_eq_true_eq, Bool.not_eq_true', List.isEmpty_eq_false_iff] at h
  refine ⟨h.1.1.1, h.1.1.2, fun x hx => ?_, fun c n o e => ?_, fun n o e => ?_⟩
  · have := List.all_eq_true.mp h.1.2 x hx
    simp only [Bool.and_eq_true, decide_eq_true_eq] at this
    exact this
  · have := h.2
    rw [e] at this
    exact of_decide_eq_true this
  · have := h.2
    rw [e] at this
    simp only [Bool.and_eq_true, decide_eq_true_eq] at this
    exact ⟨this.1.1.1, this.1.1.2, this.1.2, this.2⟩
theorem placed_tie {a : Nat} {R : Nat → Nat → Prop} [∀ c o, Decidable (R c o)]
    (h : (match placeOf a with | .sync c o => decide (o % 8 = 0 ∧ R c (o / 8)) | _ => false) = true) : ∃ c t, placeOf a = .sync c (8 * t) ∧ R c t := by
  split at h
  · rename_i c o e
    have := of_decide_eq_true h
    exact ⟨c, o / 8, by rw [e, Nat.mul_div_cancel' (Nat.dvd_of_mod_eq_zero this.1)], this.2⟩
  · cases h
theorem ok_of {ε α : Type} [DecidableEq α] {x : Except ε α} {a : α} (h : (match x with | .ok b => decide (b = a) | .error _ => false) = true) :
    x = .ok a := by
  split at h
  · rw [of_decide_eq_true h]
  · cases h
theorem error_of {ε α : Type} [DecidableEq ε] {x : Except ε α} {a : ε} (h : (match x with | .error b => decide (b = a) | .ok _ => false) = true) :
    x = .error a := by
  split at h
  · rw [of_decide_eq_true h]
  · cases h
theorem sidecars_of {s : State} {c : Nat} {p : ExportArgs}
    (h : (p.sidecars.all fun x =>
      let h := s.handleNow c x.1
      let d := Sidecar.ofHeader (s.bytesAt (windowBase c + h.base) 8)
      decide (d.kind < 2) && h.wide 8 ((x.2.1 + x.2.2) * d.size) && decide (x.2.1 + x.2.2 ≤ d.count)) = true) : s.sidecarsOk c p := by
  intro x hx
  have := List.all_eq_true.mp h x hx
  simp only [Bool.and_eq_true, decide_eq_true_eq] at this
  exact ⟨this.1.1, this.1.2, this.2⟩
theorem apart_of {s : State} {c : Nat} {p : ExportArgs} (h1 : p.stats = 0) (h2 : p.oh = none) (h3 : p.fop = 0) : Apart s c p := by
  intro x
  simp [statsByte, outByte, readByte, h1, h2, h3]
theorem Sparse.get_append {α : Type} (d : α) (a m : Sparse α) (x : Nat) (h : ∀ y ∈ a, y.1 ≠ x) : Sparse.get d (a ++ m) x = Sparse.get d m x := by
  induction a with
  | nil => rfl
  | cons y r ih =>
    have := h y (by simp)
    simp [Sparse.get, this, ih fun z hz => h z (by simp [hz])]
theorem Sparse.get_all {α : Type} (d v : α) (m : Sparse α) (x : Nat) (h : ∀ y ∈ m, y.2 = v) (k : ∃ y ∈ m, y.1 = x) : Sparse.get d m x = v := by
  induction m with
  | nil => simp at k
  | cons y r ih =>
    by_cases e : y.1 = x
    · simp [Sparse.get, e, h y (by simp)]
    · obtain ⟨z, hz, hx⟩ := k
      have : z ∈ r := by rcases List.mem_cons.mp hz with rfl | h; exact absurd hx e; exact h
      simp only [Sparse.get, e, if_false]
      exact ih (fun w hw => h w (by simp [hw])) ⟨z, this, hx⟩
theorem freeSpare_none {s : State} {u : Nat} (a : Sparse Nat) (h : s.regs = a ++ (List.range 512).map fun i => (Reg.YREP_VALID.key u 0 + 256 * i, 1))
    (k : (a.all fun y => decide (y.1 < Reg.YREP_VALID.key u 0)) = true) (f : (List.range 512).all (fun i => decide (Reg.YREP_VALID.key u i = Reg.YREP_VALID.key u 0 + 256 * i)) = true) :
    s.freeSpare u = none := by
  refine List.find?_eq_none.mpr fun e he => ?_
  have ke := of_decide_eq_true (List.all_eq_true.mp f e he)
  have : s.rd Reg.YREP_VALID u e = 1 := by
    unfold State.rd
    rw [h, ke, Sparse.get_append _ _ _ _ fun y hy => by have := of_decide_eq_true (List.all_eq_true.mp k y hy); omega]
    exact Sparse.get_all _ _ _ _ (fun y hy => by obtain ⟨i, -, rfl⟩ := List.mem_map.mp hy; rfl) ⟨_, List.mem_map.mpr ⟨e, he, rfl⟩, rfl⟩
  simp [this]

/-! Ill-formed commands: one term for each check of WellFormed, which the check refuses, beside a term at the ends of its ranges. -/

def okPacket : Packet := ⟨0, 0, 0, 0, List.replicate 512 0#8⟩
def badPackets : List Packet := [⟨0, 0, 0, 0, List.replicate 520 0#8⟩, ⟨0, 0, 0, 0, [1#8]⟩]
def okFrame : Frame := ⟨4095, 4095, true, List.replicate 8 0, List.replicate 9 0, [okPacket]⟩
def badFrames : List Frame := [⟨4096, 0, false, List.replicate 8 0, List.replicate 9 0, []⟩, ⟨0, 4096, false, List.replicate 8 0, List.replicate 9 0, []⟩,
  ⟨0, 0, false, List.replicate 7 0, List.replicate 9 0, []⟩, ⟨0, 0, false, List.replicate 8 0, List.replicate 10 0, []⟩] ++
  badPackets.map fun p => ⟨0, 0, false, List.replicate 8 0, List.replicate 9 0, [okPacket, p]⟩
def okSample : LoopSample := ⟨List.replicate 64 0, 0, 0, List.replicate 128 0⟩
def badSamples : List LoopSample := [⟨List.replicate 63 0, 0, 0, List.replicate 128 0⟩, ⟨List.replicate 64 0, 0, 0, List.replicate 129 0⟩]
def badFaults : List (List TestFault) := [[.line 1024 0 0], [.line 0 16 0], [.line 0 0 48], [.spareLine 1024 0], [.spareLine 0 16], [.row 64 0], [.row 0 4096],
  [.spareRow 64 0], [.spareRow 0 512], [.array 1024 0], [.array 0 3, .array 0 4], [.part 1024]]
theorem test_wf_slots : (
    ([Instr.add, .sub, .mul, .sAnd, .sOr, .sXor, .shl, .shr, .sar, .slt, .sltu, .addi, .andi, .ori, .liq, .ld, .st, .rdsys, .hset, .beq, .bne, .blt, .bge, .jmp, .jr, .lset, .lseti, .bloop, .delayi, .phaseHint, .courseEnd, .mm] ++
      [Instr.kadd, .exportTile, .fadd, .fsub, .fmul, .fma, .fms, .fmax, .fmin, .fabs, .fneg, .iadd, .isub, .imul, .imax, .imin, .vShl, .vShr, .vSar, .vAnd, .vOr, .vXor, .andn, .mov, .fcmp, .icmp, .sel, .perm, .shuf, .pack, .unpack, .cvt] ++
      [Instr.cvtS, .split2, .split3, .rsum, .rmax, .rmin, .rssq, .rmv, .amaxs, .vld, .vst, .setvl, .setvlR, .pull, .teval, .tload, .tswap, .filla, .fillw, .fillb, .moveCopy, .signal, .tieAdd, .tieAddL, .dec, .waitTie, .waitTake, .arrive, .await, .wopen, .wclose]).all (fun f => (f (1024 - 1) 0).wf && !(f 1024 0).wf)) = true := by decide +kernel
theorem test_wf_packets : (
    [Instr.hubReply, .token, .enumDone, .hello, .align, .linkDown, .packetForward, .pktWrite, .pktWriteS, .pktReadReq, .pktReadRsp, .pktTieAdd, .pktComplete, .pktNack, .archArrive, .archRelease, .slip].all (fun f => (f (9 - 1) okPacket).wf && !(f 9 okPacket).wf && (badPackets.all fun x => !(f 0 x).wf)) &&
    [Instr.frame].all (fun f => (f (8 - 1) okFrame).wf && !(f 8 okFrame).wf && (badFrames.all fun x => !(f 0 x).wf)) &&
    [Instr.memtestDone].all (fun f => (f [.array 1023 3]).wf && (badFaults.all fun x => !(f x).wf)) &&
    [Instr.powerLoop].all (fun f => (f okSample).wf && (badSamples.all fun x => !(f x).wf))) = true := by decide +kernel
theorem test_wf_ranges : (
    [Instr.pwrgoodRise].all (fun f => (f (8 - 1) false).wf && !(f 8 false).wf) &&
    [Instr.wholeDieReset, .computePartReset, .coreGroupReset, .start, .suspend, .resume, .resumeFromImage, .cancel, .memtest, .broadcast, .rebond, .repair].all (fun f => (f .hub (2 ^ 16 - 1) (2 ^ 64 - 1) (2 ^ 64 - 1) (2 ^ 64 - 1) (2 ^ 64 - 1) (2 ^ 64 - 1)).wf && !(f .hub (2 ^ 16) 0 0 0 0 0).wf && !(f .hub 0 (2 ^ 64) 0 0 0 0).wf && !(f .hub 0 0 (2 ^ 64) 0 0 0).wf && !(f .hub 0 0 0 (2 ^ 64) 0 0).wf && !(f .hub 0 0 0 0 (2 ^ 64) 0).wf && !(f .hub 0 0 0 0 0 (2 ^ 64)).wf) &&
    [Instr.stageWrite].all (fun f => (f .hub (2 ^ 22 - 1) []).wf && !(f .hub (2 ^ 22) []).wf && !(f .hub 0 [0#8]).wf) &&
    [Instr.hubQueryTimeout, .trainingTimeout, .lossOfFrame, .archClosure].all (fun f => (f (8 - 1)).wf && !(f 8).wf) &&
    [Instr.trainingStateExit].all (fun f => (f (8 - 1) false (2 ^ 32 - 1) (2 ^ 24 - 1)).wf && !(f 8 false 0 0).wf && !(f 0 false (2 ^ 32) 0).wf && !(f 0 false 0 (2 ^ 24)).wf) &&
    [Instr.retrain, .archForce].all (fun f => (f .hub (8 - 1)).wf && !(f .hub 8).wf) &&
    [Instr.creditReturn].all (fun f => (f (9 - 1) (1024 - 1) (4 - 1) (2 - 1) 0).wf && !(f 9 0 0 0 0).wf && !(f 0 1024 0 0 0).wf && !(f 0 0 4 0 0).wf && !(f 0 0 0 2 0).wf) &&
    [Instr.epochWrite].all (fun f => (f .hub (2 ^ 16 - 1)).wf && !(f .hub (2 ^ 16)).wf) &&
    [Instr.demandFetch, .courseEndRetire, .bedRepairWindow, .waitRegistration, .waitTimeout, .wake, .tloadComplete, .tswapEffect, .imageCopyDone, .moveBegin, .traceRecord, .corescan].all (fun f => (f (1024 - 1)).wf && !(f 1024).wf) &&
    [Instr.runaheadFill].all (fun f => (f (1024 - 1) (16384 - 1) 0 (8 - 1)).wf && !(f 1024 0 0 0).wf && !(f 0 16384 0 0).wf && !(f 0 0 0 8).wf) &&
    [Instr.bedGrant].all (fun f => (f (1024 - 1) (16 - 1) false (2 ^ 16 - 1)).wf && !(f 1024 0 false 0).wf && !(f 0 16 false 0).wf && !(f 0 0 false (2 ^ 16)).wf) &&
    [Instr.yardGrant].all (fun f => (f (64 - 1) (2 - 1)).wf && !(f 64 0).wf && !(f 0 2).wf) &&
    [Instr.scrubRead].all (fun f => (f (2 - 1) (1024 - 1) (4608 - 1) [] []).wf && !(f 2 0 0 [] []).wf && !(f 0 1024 0 [] []).wf && !(f 0 0 4608 [] []).wf) &&
    [Instr.yardRepairWindow, .rebondPacket, .rebondTimeout, .contextTransfer].all (fun f => (f (64 - 1)).wf && !(f 64).wf) &&
    [Instr.tieUpdateDelivered].all (fun f => (f (1024 - 1) (256 - 1) 0).wf && !(f 1024 0 0).wf && !(f 0 256 0).wf) &&
    [Instr.windowSignal].all (fun f => (f (1024 - 1) (32 - 1)).wf && !(f 1024 0).wf && !(f 0 32).wf) &&
    [Instr.handsetTie].all (fun f => (f .hub (1024 - 1) (256 - 1)).wf && !(f .hub 1024 0).wf && !(f .hub 0 256).wf) &&
    [Instr.handsetOpen, .handsetClose].all (fun f => (f .hub (1024 - 1) (32 - 1)).wf && !(f .hub 1024 0).wf && !(f .hub 0 32).wf) &&
    [Instr.dumpGo].all (fun f => (f .hub (2 ^ 27 - 1)).wf && !(f .hub (2 ^ 27)).wf) &&
    [Instr.nop].all (fun f => (f (1024 - 1) .s 0).wf && !(f 1024 .s 0).wf) &&
    [Instr.beylerWrite].all (fun f => (f (1024 - 1) (2 - 1)).wf && !(f 1024 0).wf && !(f 0 2).wf) &&
    [Instr.registerWrite].all (fun f => (f .hub (2 ^ 44 - 1) (2 ^ 64 - 1)).wf && !(f .hub (2 ^ 44) 0).wf && !(f .hub 0 (2 ^ 64)).wf) &&
    [Instr.histClear].all (fun f => (f (1024 - 1) (4 - 1)).wf && !(f 1024 0).wf && !(f 0 4).wf) &&
    [Instr.ackSeq, .domOff, .envelopeTarget, .traceEnable].all (fun f => (f .hub (2 ^ 64 - 1)).wf && !(f .hub (2 ^ 64)).wf) &&
    [Instr.domOffYq].all (fun f => (f .hub (16 - 1)).wf && !(f .hub 16).wf) &&
    [Instr.floodPacket].all (fun f => (f (1024 - 1) (2 ^ 16 - 1) []).wf && !(f 1024 0 []).wf && !(f 0 (2 ^ 16) []).wf && !(f 0 0 [0#8]).wf) &&
    [Instr.telemetry, .sbRegWrite, .sbRegRead, .sbEnvelope, .sbRailDone, .sbLedgerRead].all (fun f => (f []).wf && !(f (List.replicate 270 0#8)).wf) &&
    [Instr.droopTrip, .bypass].all (fun f => (f (256 - 1)).wf && !(f 256).wf) &&
    [Instr.droopClear].all (fun f => (f (256 - 1) 0 0).wf && !(f 256 0 0).wf) &&
    [Instr.alert].all (fun f => (f .hub (128 - 1)).wf && !(f .hub 128).wf) &&
    [Instr.repointingDone].all (fun f => (f (512 - 1) (32768 - 1)).wf && !(f 512 0).wf && !(f 0 32768).wf) &&
    [Instr.railReqTimeout].all (fun f => (f (2 - 1)).wf && !(f 2).wf) &&
    [Instr.memrd].all (fun f => (f (2 ^ 44 - 1)).wf && !(f (2 ^ 44)).wf) &&
    [Instr.setdasa].all (fun f => (f (128 - 1) (128 - 1)).wf && !(f 128 0).wf && !(f 0 128).wf) &&
    [Instr.setmwl, .setmrl].all (fun f => (f (2 ^ 16 - 1)).wf && !(f (2 ^ 16)).wf)) = true := by decide +kernel

/-! The statements about every step. -/

/-- A queue with a command in front. -/
theorem witness_StepRunsFront : ∃ (s : State) (c : Instr) (rest : List Instr), s.pending = c :: rest :=
  ⟨{ up with pending := [.courseTick, .minuteCount] }, .courseTick, [.minuteCount], rfl⟩

/-- A frozen state with a command that does nothing while the die is frozen, and one with an empty queue. -/
theorem witness_FreezeHoldsState :
    (∃ (i : Instr) (s : State), s.frozen = true ∧ worksFrozen i = false) ∧
    (∃ s : State, s.frozen = true ∧ s.pending ≠ [] ∧ ∀ i ∈ s.pending.head?, breaksFreeze i = false) ∧
    (∃ s : State, s.frozen = true ∧ s.pending = []) :=
  ⟨⟨.courseTick, fr up, rfl, rfl⟩, ⟨{ fr up with pending := [.courseTick] }, rfl, by decide, by decide⟩, ⟨fr up, rfl, rfl⟩⟩

/-- A step from a state in canonical form that answers a next state. -/
theorem witness_StepKeepsForm : ∃ s t : State, s.Good ∧ step s = .next t :=
  ⟨{ up with pending := [.getpid] }, _, State.good_of_goodB _ (by decide +kernel), rfl⟩

/-! ScalarRegisterOps -/
namespace ScalarRegisterOps
def S3 : List (State × Nat) := [(lCore 5 1, 1), (lCore 9 2, 2)]
def slotStates : List (State × Nat) := S3
theorem witness :
  (MeetsIf .add .s 0x01 (fun _ _ _ => True)) ∧
  (MeetsIf .sub .s 0x02 (fun _ _ _ => True)) ∧
  (MeetsIf .mul .s 0x03 (fun _ _ _ => True)) ∧
  (MeetsIf .sAnd .s 0x04 (fun _ _ _ => True)) ∧
  (MeetsIf .sOr .s 0x05 (fun _ _ _ => True)) ∧
  (MeetsIf .sXor .s 0x06 (fun _ _ _ => True)) ∧
  (MeetsIf .shl .s 0x07 (fun _ _ _ => True)) ∧
  (MeetsIf .shr .s 0x08 (fun _ _ _ => True)) ∧
  (MeetsIf .sar .s 0x09 (fun _ _ _ => True)) ∧
  (MeetsIf .slt .s 0x0A (fun _ _ _ => True)) ∧
  (MeetsIf .sltu .s 0x0B (fun _ _ _ => True)) := by
  refine ⟨shownIf (slotStates.getD 0 (State.reset, 0)).1 (slotStates.getD 0 (State.reset, 0)).2 134217984#256 ?_ ?_ ?_ ?_,
    shownIf (slotStates.getD 0 (State.reset, 0)).1 (slotStates.getD 0 (State.reset, 0)).2 67109376#256 ?_ ?_ ?_ ?_,
    shownIf (slotStates.getD 0 (State.reset, 0)).1 (slotStates.getD 0 (State.reset, 0)).2 768#256 ?_ ?_ ?_ ?_,
    shownIf (slotStates.getD 0 (State.reset, 0)).1 (slotStates.getD 0 (State.reset, 0)).2 67109888#256 ?_ ?_ ?_ ?_,
    shownIf (slotStates.getD 0 (State.reset, 0)).1 (slotStates.getD 0 (State.reset, 0)).2 218105088#256 ?_ ?_ ?_ ?_,
    shownIf (slotStates.getD 0 (State.reset, 0)).1 (slotStates.getD 0 (State.reset, 0)).2 167904768#256 ?_ ?_ ?_ ?_,
    shownIf (slotStates.getD 0 (State.reset, 0)).1 (slotStates.getD 0 (State.reset, 0)).2 134940416#256 ?_ ?_ ?_ ?_,
    shownIf (slotStates.getD 0 (State.reset, 0)).1 (slotStates.getD 0 (State.reset, 0)).2 16779264#256 ?_ ?_ ?_ ?_,
    shownIf (slotStates.getD 0 (State.reset, 0)).1 (slotStates.getD 0 (State.reset, 0)).2 2304#256 ?_ ?_ ?_ ?_,
    shownIf (slotStates.getD 0 (State.reset, 0)).1 (slotStates.getD 0 (State.reset, 0)).2 67652096#256 ?_ ?_ ?_ ?_,
    shownIf (slotStates.getD 0 (State.reset, 0)).1 (slotStates.getD 0 (State.reset, 0)).2 269093632#256 ?_ ?_ ?_ ?_⟩
  all_goals repeat' first | decide +kernel | (with_reducible first | refine State.wordFits_of ?_ | refine sidecars_of ?_ | refine apart_of ?_ ?_ ?_ | refine notWaiting_of ?_ | refine reaches_of ?_ | refine plainWord_of ?_ | refine forall_covers ?_ | refine placed_bed ?_ | refine placed_sync ?_ | refine placed_tie ?_ | refine State.branchable_of ?_ | refine ok_of ?_ | refine Sparse.sorted_of_sortedB _ ?_ | exact List.mem_cons_self | unfold vectorOk | refine error_of ?_ | refine ⟨1, 3, by decide +kernel, ?_⟩) | (intro h; exact absurd h (by decide +kernel)) | (intro q h4 h8; revert h4; revert h8; revert q; decide +kernel) | (refine Or.inl (by decide +kernel)) | (refine Or.inr (by decide +kernel)) | apply And.intro | (refine Exists.intro _ ?_) | (with_reducible constructor) | rfl | intro _
end ScalarRegisterOps

/-! ScalarImmediateOps -/
namespace ScalarImmediateOps
def S3 : List (State × Nat) := [(lCore 5 1, 1), (lCore 9 2, 2)]
def slotStates : List (State × Nat) := S3
theorem witness :
  (MeetsIf .addi .s 0x10 (fun _ _ _ => True)) ∧
  (MeetsIf .andi .s 0x11 (fun _ _ _ => True)) ∧
  (MeetsIf .ori .s 0x12 (fun _ _ _ => True)) ∧
  (MeetsIf .liq .s 0x13 (fun _ _ _ => True)) := by
  refine ⟨shownIf (slotStates.getD 0 (State.reset, 0)).1 (slotStates.getD 0 (State.reset, 0)).2 510616293384#256 ?_ ?_ ?_ ?_,
    shownIf (slotStates.getD 0 (State.reset, 0)).1 (slotStates.getD 0 (State.reset, 0)).2 328565002496#256 ?_ ?_ ?_ ?_,
    shownIf (slotStates.getD 0 (State.reset, 0)).1 (slotStates.getD 0 (State.reset, 0)).2 201331200#256 ?_ ?_ ?_ ?_,
    shownIf (slotStates.getD 0 (State.reset, 0)).1 (slotStates.getD 0 (State.reset, 0)).2 6443045632#256 ?_ ?_ ?_ ?_⟩
  all_goals repeat' first | decide +kernel | (with_reducible first | refine State.wordFits_of ?_ | refine sidecars_of ?_ | refine apart_of ?_ ?_ ?_ | refine notWaiting_of ?_ | refine reaches_of ?_ | refine plainWord_of ?_ | refine forall_covers ?_ | refine placed_bed ?_ | refine placed_sync ?_ | refine placed_tie ?_ | refine State.branchable_of ?_ | refine ok_of ?_ | refine Sparse.sorted_of_sortedB _ ?_ | exact List.mem_cons_self | unfold vectorOk | refine error_of ?_ | refine ⟨1, 3, by decide +kernel, ?_⟩) | (intro h; exact absurd h (by decide +kernel)) | (intro q h4 h8; revert h4; revert h8; revert q; decide +kernel) | (refine Or.inl (by decide +kernel)) | (refine Or.inr (by decide +kernel)) | apply And.intro | (refine Exists.intro _ ?_) | (with_reducible constructor) | rfl | intro _
end ScalarImmediateOps

/-! Branches -/
namespace Branches
def S3 : List (State × Nat) := [(lCore 5 1, 1), (lCore 9 2, 2)]
def slotStates : List (State × Nat) := S3
theorem witness :
  let ok (p : Word → Word → Bool) (s : State) (c : Nat) (b : Bundle) : Prop :=
    p (s.word c (sBa b)) (s.word c (sBb b)) = true → s.branchable c (s.next c + signedOf 16 (sImm16 b))
  (MeetsIf .beq .s 0x20 (ok fun x y => x == y)) ∧
  (MeetsIf .bne .s 0x21 (ok fun x y => x != y)) ∧
  (MeetsIf .blt .s 0x22 (ok fun x y => decide (x.toInt < y.toInt))) ∧
  (MeetsIf .bge .s 0x23 (ok fun x y => decide (y.toInt ≤ x.toInt))) ∧
  (MeetsIf .jmp .s 0x24 (fun s c b => s.branchable c (s.next c + signedOf 16 (sImm16 b)))) ∧
  (MeetsIf .jr .s 0x25 (fun s c b => s.branchable c (s.word c (sBa b)).toNat)) := by
  refine ⟨shownIf (slotStates.getD 0 (State.reset, 0)).1 (slotStates.getD 0 (State.reset, 0)).2 561727512584#256 ?_ ?_ ?_ ?_,
    shownIf (slotStates.getD 0 (State.reset, 0)).1 (slotStates.getD 0 (State.reset, 0)).2 38654861568#256 ?_ ?_ ?_ ?_,
    shownIf (slotStates.getD 0 (State.reset, 0)).1 (slotStates.getD 0 (State.reset, 0)).2 139653554696#256 ?_ ?_ ?_ ?_,
    shownIf (slotStates.getD 0 (State.reset, 0)).1 (slotStates.getD 0 (State.reset, 0)).2 88252031744#256 ?_ ?_ ?_ ?_,
    shownIf (slotStates.getD 0 (State.reset, 0)).1 (slotStates.getD 0 (State.reset, 0)).2 38856041472#256 ?_ ?_ ?_ ?_,
    shownIf (slotStates.getD 0 (State.reset, 0)).1 (slotStates.getD 0 (State.reset, 0)).2 42240#256 ?_ ?_ ?_ ?_⟩
  all_goals repeat' first | decide +kernel | (with_reducible first | refine State.wordFits_of ?_ | refine sidecars_of ?_ | refine apart_of ?_ ?_ ?_ | refine notWaiting_of ?_ | refine reaches_of ?_ | refine plainWord_of ?_ | refine forall_covers ?_ | refine placed_bed ?_ | refine placed_sync ?_ | refine placed_tie ?_ | refine State.branchable_of ?_ | refine ok_of ?_ | refine Sparse.sorted_of_sortedB _ ?_ | exact List.mem_cons_self | unfold vectorOk | refine error_of ?_ | refine ⟨1, 3, by decide +kernel, ?_⟩) | (intro h; exact absurd h (by decide +kernel)) | (intro q h4 h8; revert h4; revert h8; revert q; decide +kernel) | (refine Or.inl (by decide +kernel)) | (refine Or.inr (by decide +kernel)) | apply And.intro | (refine Exists.intro _ ?_) | (with_reducible constructor) | rfl | intro _
end Branches

/-! LoopCounters -/
namespace LoopCounters
def S3 : List (State × Nat) := [(lCore 5 1, 1), (lCore 9 2, 2)]
def slotStates : List (State × Nat) := S3
theorem witness :
  (MeetsIf .lset .s 0x26 (fun _ _ _ => True)) ∧
  (MeetsIf .lseti .s 0x27 (fun _ _ _ => True)) ∧
  (MeetsIf .bloop .s 0x28 (fun s c b => 1 < (s.lc c (sLc b)).toNat → s.branchable c (s.next c + signedOf 16 (sImm16 b)))) := by
  refine ⟨shownIf (slotStates.getD 0 (State.reset, 0)).1 (slotStates.getD 0 (State.reset, 0)).2 9728#256 ?_ ?_ ?_ ?_,
    shownIf (slotStates.getD 0 (State.reset, 0)).1 (slotStates.getD 0 (State.reset, 0)).2 34628183808#256 ?_ ?_ ?_ ?_,
    shownIf (slotStates.getD 0 (State.reset, 0)).1 (slotStates.getD 0 (State.reset, 0)).2 584115562496#256 ?_ ?_ ?_ ?_⟩
  all_goals repeat' first | decide +kernel | (with_reducible first | refine State.wordFits_of ?_ | refine sidecars_of ?_ | refine apart_of ?_ ?_ ?_ | refine notWaiting_of ?_ | refine reaches_of ?_ | refine plainWord_of ?_ | refine forall_covers ?_ | refine placed_bed ?_ | refine placed_sync ?_ | refine placed_tie ?_ | refine State.branchable_of ?_ | refine ok_of ?_ | refine Sparse.sorted_of_sortedB _ ?_ | exact List.mem_cons_self | unfold vectorOk | refine error_of ?_ | refine ⟨1, 3, by decide +kernel, ?_⟩) | (intro h; exact absurd h (by decide +kernel)) | (intro q h4 h8; revert h4; revert h8; revert q; decide +kernel) | (refine Or.inl (by decide +kernel)) | (refine Or.inr (by decide +kernel)) | apply And.intro | (refine Exists.intro _ ?_) | (with_reducible constructor) | rfl | intro _
end LoopCounters

/-! ScalarMemory -/
namespace ScalarMemory
def S3 : List (State × Nat) := [(lCore 5 1, 1), (lCore 9 2, 2)]
def slotStates : List (State × Nat) := S3
theorem witness :
  (MeetsIf .ld .s 0x14 (fun s c b => ldFits s c b ∧ s.ueWords (ldAddress s c b) 8 = [])) ∧
  (MeetsIf .st .s 0x15 (fun s c b => ldFits s c b ∧ s.writable c (ldHandle s c b) = true)) := by
  refine ⟨shownIf (slotStates.getD 0 (State.reset, 0)).1 (slotStates.getD 0 (State.reset, 0)).2 191126197248#256 ?_ ?_ ?_ ?_,
    shownIf (slotStates.getD 0 (State.reset, 0)).1 (slotStates.getD 0 (State.reset, 0)).2 5376#256 ?_ ?_ ?_ ?_⟩
  all_goals repeat' first | decide +kernel | (with_reducible first | refine State.wordFits_of ?_ | refine sidecars_of ?_ | refine apart_of ?_ ?_ ?_ | refine notWaiting_of ?_ | refine reaches_of ?_ | refine plainWord_of ?_ | refine forall_covers ?_ | refine placed_bed ?_ | refine placed_sync ?_ | refine placed_tie ?_ | refine State.branchable_of ?_ | refine ok_of ?_ | refine Sparse.sorted_of_sortedB _ ?_ | exact List.mem_cons_self | unfold vectorOk | refine error_of ?_ | refine ⟨1, 3, by decide +kernel, ?_⟩) | (intro h; exact absurd h (by decide +kernel)) | (intro q h4 h8; revert h4; revert h8; revert q; decide +kernel) | (refine Or.inl (by decide +kernel)) | (refine Or.inr (by decide +kernel)) | apply And.intro | (refine Exists.intro _ ?_) | (with_reducible constructor) | rfl | intro _
end ScalarMemory

/-! SystemValues -/
namespace SystemValues
def S3 : List (State × Nat) := [(lCore 5 1, 1), (lCore 9 2, 2)]
def slotStates : List (State × Nat) := S3
theorem witness :
  MeetsIf .rdsys .s 0x16 (fun _ _ _ => True) := by
  refine shownIf (slotStates.getD 0 (State.reset, 0)).1 (slotStates.getD 0 (State.reset, 0)).2 71168#256 ?_ ?_ ?_ ?_
  all_goals repeat' first | decide +kernel | (with_reducible first | refine State.wordFits_of ?_ | refine sidecars_of ?_ | refine apart_of ?_ ?_ ?_ | refine notWaiting_of ?_ | refine reaches_of ?_ | refine plainWord_of ?_ | refine forall_covers ?_ | refine placed_bed ?_ | refine placed_sync ?_ | refine placed_tie ?_ | refine State.branchable_of ?_ | refine ok_of ?_ | refine Sparse.sorted_of_sortedB _ ?_ | exact List.mem_cons_self | unfold vectorOk | refine error_of ?_ | refine ⟨1, 3, by decide +kernel, ?_⟩) | (intro h; exact absurd h (by decide +kernel)) | (intro q h4 h8; revert h4; revert h8; revert q; decide +kernel) | (refine Or.inl (by decide +kernel)) | (refine Or.inr (by decide +kernel)) | apply And.intro | (refine Exists.intro _ ?_) | (with_reducible constructor) | rfl | intro _
end SystemValues

/-! HandleSet -/
namespace HandleSet
def S3 : List (State × Nat) := [(lCore 5 1, 1), (lCore 9 2, 2)]
def slotStates : List (State × Nat) := S3
theorem witness :
  MeetsIf .hset .s 0x17 (fun _ _ _ => True) := by
  refine shownIf (slotStates.getD 0 (State.reset, 0)).1 (slotStates.getD 0 (State.reset, 0)).2 20977416#256 ?_ ?_ ?_ ?_
  all_goals repeat' first | decide +kernel | (with_reducible first | refine State.wordFits_of ?_ | refine sidecars_of ?_ | refine apart_of ?_ ?_ ?_ | refine notWaiting_of ?_ | refine reaches_of ?_ | refine plainWord_of ?_ | refine forall_covers ?_ | refine placed_bed ?_ | refine placed_sync ?_ | refine placed_tie ?_ | refine State.branchable_of ?_ | refine ok_of ?_ | refine Sparse.sorted_of_sortedB _ ?_ | exact List.mem_cons_self | unfold vectorOk | refine error_of ?_ | refine ⟨1, 3, by decide +kernel, ?_⟩) | (intro h; exact absurd h (by decide +kernel)) | (intro q h4 h8; revert h4; revert h8; revert q; decide +kernel) | (refine Or.inl (by decide +kernel)) | (refine Or.inr (by decide +kernel)) | apply And.intro | (refine Exists.intro _ ?_) | (with_reducible constructor) | rfl | intro _
end HandleSet

/-! SequencerOps -/
namespace SequencerOps
def H1 : HintSlot := ⟨70, 9, 3⟩
def H2 : HintSlot := ⟨75, 9, 4⟩
def H3 : HintSlot := ⟨60, 3, 4⟩
def hh (a b : Option HintSlot) : State × Nat := ((lCore 5 1).mapCore 1 fun k => { k with hint0 := a, hint1 := b }, 1)
def slotStates : List (State × Nat) := [hh none none, hh (some H1) none, hh (some H1) (some H2), hh (some H2) (some H1), hh (some H3) (some H1), hh (some H1) (some H3), hh (some H1) (some H1)]
theorem witness :
  (MeetsIf .delayi .s 0x29 (fun _ _ _ => True)) ∧
  (MeetsIf .courseEnd .s 0x2B (fun s c b => laterSlot b 1 = false ∧ (s.core c).seq.drainAt ≤ (s.core c).seq.nextCycle ∧ s.drained c = true ∧
      (s.opened c .s b).coreLin c ≤ s.deadlineLin)) ∧
  (∃ (sl : Slot), MeetsIf (fun c b => .nop c sl b) sl 0 (fun _ _ _ => True)) ∧
  (MeetsIf .phaseHint .s 0x2A (fun _ _ _ => True)) := by
  refine ⟨shownIf (slotStates.getD 0 (State.reset, 0)).1 (slotStates.getD 0 (State.reset, 0)).2 166354495752#256 ?_ ?_ ?_ ?_,
    shownIf (slotStates.getD 0 (State.reset, 0)).1 (slotStates.getD 0 (State.reset, 0)).2 5319424#256 ?_ ?_ ?_ ?_,
    ⟨(Sys2Proof.Slot.s), shownIf (slotStates.getD 0 (State.reset, 0)).1 (slotStates.getD 0 (State.reset, 0)).2 0#256 ?_ ?_ ?_ ?_⟩,
    shownIf (slotStates.getD 0 (State.reset, 0)).1 (slotStates.getD 0 (State.reset, 0)).2 740899383808#256 ?_ ?_ ?_ ?_⟩
  all_goals repeat' first | decide +kernel | (with_reducible first | refine State.wordFits_of ?_ | refine sidecars_of ?_ | refine apart_of ?_ ?_ ?_ | refine notWaiting_of ?_ | refine reaches_of ?_ | refine plainWord_of ?_ | refine forall_covers ?_ | refine placed_bed ?_ | refine placed_sync ?_ | refine placed_tie ?_ | refine State.branchable_of ?_ | refine ok_of ?_ | refine Sparse.sorted_of_sortedB _ ?_ | exact List.mem_cons_self | unfold vectorOk | refine error_of ?_ | refine ⟨1, 3, by decide +kernel, ?_⟩) | (intro h; exact absurd h (by decide +kernel)) | (intro q h4 h8; revert h4; revert h8; revert q; decide +kernel) | (refine Or.inl (by decide +kernel)) | (refine Or.inr (by decide +kernel)) | apply And.intro | (refine Exists.intro _ ?_) | (with_reducible constructor) | rfl | intro _
end SequencerOps

/-! MatrixIntegers -/
namespace MatrixIntegers
def bufs (s : State) (c _ : Nat) : State := s.mapCore c fun k => { k with
  fbuf := [(0, 5#8), (1, 0x3C#8), (8192, 7#8), (8193, 0x40#8), (16384, 3#8)]
  curBank := [(1, 1), (3, 1)], acc := [(accKey 0 0 0 0, ⟨5, 0#32⟩), (accKey 1 0 0 1, ⟨9, 0#32⟩)] }
def mat (seed c : Nat) (int : Bool) : State := let s := { bufs (lCore seed c) c seed with mem := [(0x10000000000 + c * 0x100000 + 5, 3#8)] }; s
def m1 : State := mat 5 1 true
def m2 : State := mat 9 2 false
def m3 : State := m1
def m4 : State := m2
def slotStates : List (State × Nat) := [(m1, 1), (m2, 2), (m3, 1), (m4, 2)]
theorem witness :
  MeetsIf .mm .m 1 (fun s c b => s.MatrixReady c (mmArgs (bM b)) ∧ (mmArgs (bM b)).fa.isInt = true ∧ (mmArgs (bM b)).fw.isInt = true ∧ (mmArgs (bM b)).ow = true) := by
  refine shownIf (slotStates.getD 0 (State.reset, 0)).1 (slotStates.getD 0 (State.reset, 0)).2 11894131675347989348696411078656#256 ?_ ?_ ?_ ?_
  all_goals repeat' first | decide +kernel | (with_reducible first | refine State.wordFits_of ?_ | refine sidecars_of ?_ | refine apart_of ?_ ?_ ?_ | refine notWaiting_of ?_ | refine reaches_of ?_ | refine plainWord_of ?_ | refine forall_covers ?_ | refine placed_bed ?_ | refine placed_sync ?_ | refine placed_tie ?_ | refine State.branchable_of ?_ | refine ok_of ?_ | refine Sparse.sorted_of_sortedB _ ?_ | exact List.mem_cons_self | unfold vectorOk | refine error_of ?_ | refine ⟨1, 3, by decide +kernel, ?_⟩) | (intro h; exact absurd h (by decide +kernel)) | (intro q h4 h8; revert h4; revert h8; revert q; decide +kernel) | (refine Or.inl (by decide +kernel)) | (refine Or.inr (by decide +kernel)) | apply And.intro | (refine Exists.intro _ ?_) | (with_reducible constructor) | rfl | intro _
end MatrixIntegers

/-! MatrixMultiply -/
namespace MatrixMultiply
def bufs (s : State) (c _ : Nat) : State := s.mapCore c fun k => { k with
  fbuf := [(0, 5#8), (1, 0x3C#8), (8192, 7#8), (8193, 0x40#8), (16384, 3#8)]
  curBank := [(1, 1), (3, 1)], acc := [(accKey 0 0 0 0, ⟨5, 0#32⟩), (accKey 1 0 0 1, ⟨9, 0#32⟩)] }
def mat (seed c : Nat) (int : Bool) : State := let s := { bufs (lCore seed c) c seed with mem := [(0x10000000000 + c * 0x100000 + 5, 3#8)] }; s
def m1 : State := mat 5 1 true
def m2 : State := mat 9 2 false
def m3 : State := m1
def m4 : State := m2
def slotStates : List (State × Nat) := [(m1, 1), (m2, 2), (m3, 1), (m4, 2)]
theorem witness :
  MeetsIf .mm .m 1 (fun s c b => s.MatrixReady c (mmArgs (bM b)) ∧ ∀ a i j, (mmArgs (bM b)).covers a i j →
      ((s.core c).mmElem (mmArgs (bM b)) (s.handleNow c (mmArgs (bM b)).ah).base a i j).mismatch = false) := by
  refine shownIf (slotStates.getD 0 (State.reset, 0)).1 (slotStates.getD 0 (State.reset, 0)).2 11894131675347989348696411078656#256 ?_ ?_ ?_ ?_
  all_goals repeat' first | decide +kernel | (with_reducible first | refine State.wordFits_of ?_ | refine sidecars_of ?_ | refine apart_of ?_ ?_ ?_ | refine notWaiting_of ?_ | refine reaches_of ?_ | refine plainWord_of ?_ | refine forall_covers ?_ | refine placed_bed ?_ | refine placed_sync ?_ | refine placed_tie ?_ | refine State.branchable_of ?_ | refine ok_of ?_ | refine Sparse.sorted_of_sortedB _ ?_ | exact List.mem_cons_self | unfold vectorOk | refine error_of ?_ | refine ⟨1, 3, by decide +kernel, ?_⟩) | (intro h; exact absurd h (by decide +kernel)) | (intro q h4 h8; revert h4; revert h8; revert q; decide +kernel) | (refine Or.inl (by decide +kernel)) | (refine Or.inr (by decide +kernel)) | apply And.intro | (refine Exists.intro _ ?_) | (with_reducible constructor) | rfl | intro _
end MatrixMultiply

/-! KeystoneAdd -/
namespace KeystoneAdd
def bufs (s : State) (c _ : Nat) : State := s.mapCore c fun k => { k with
  fbuf := [(0, 5#8), (1, 0x3C#8), (8192, 7#8), (8193, 0x40#8), (16384, 3#8)]
  curBank := [(1, 1), (3, 1)], acc := [(accKey 0 0 0 0, ⟨5, 0#32⟩), (accKey 1 0 0 1, ⟨9, 0#32⟩)] }
def mat (seed c : Nat) (int : Bool) : State := let s := { bufs (lCore seed c) c seed with mem := [(0x10000000000 + c * 0x100000 + 5, 3#8)] }; s
def m1 : State := mat 5 1 true
def m2 : State := mat 9 2 false
def m4 : State := m2
def img (s : State) (_ : Nat) : State := s
def slotStates : List (State × Nat) := [(img m1 1, 1), (img m4 2, 2)]
theorem witness :
  let handle (s : State) (c : Nat) (b : Bundle) : Handle := s.handleNow c (fld (bM b) 18 13)
  let offset (s : State) (c : Nat) (b : Bundle) : Nat := fld (s.word c (fld (bM b) 23 19)).toNat 19 0
  let image (s : State) (c : Nat) (b : Bundle) (i j : Nat) : Elem :=
    let at_ := windowBase c + ((handle s c b).base + offset s c b)
    ⟨BitVec.ofNat 128 (ofBytes (s.bytesAt (at_ + 256 * i + 16 * j) 16)), BitVec.ofNat 32 (ofBytes (s.bytesAt (at_ + 4096 + 64 * i + 4 * j) 4))⟩
  let named (b : Bundle) (a i j : Nat) : Prop := a < 4 ∧ bit (fld (bM b) 7 4) a = true ∧ i < 16 ∧ j < 16
  MeetsIf .kadd .m 3 (fun s c b => s.maskBad c (fld (bM b) 7 4) = false ∧ fld (bM b) 11 8 ≤ 11 ∧ (s.core c).tm.promos = [] ∧ (s.core c).accMarks = [] ∧
      s.marks = [] ∧ offset s c b % 16 = 0 ∧ (handle s c b).wide (offset s c b) 5120 = true ∧
      ∀ a i j, named b a i j → (kaddElem (bit (bM b) 12) ((s.core c).elem a (fld (bM b) 11 8) i j) (image s c b i j)).mismatch = false) := by
  refine shownIf (slotStates.getD 0 (State.reset, 0)).1 (slotStates.getD 0 (State.reset, 0)).2 592384979208503296#256 ?_ ?_ ?_ ?_
  all_goals repeat' first | decide +kernel | (with_reducible first | refine State.wordFits_of ?_ | refine sidecars_of ?_ | refine apart_of ?_ ?_ ?_ | refine notWaiting_of ?_ | refine reaches_of ?_ | refine plainWord_of ?_ | refine forall_covers ?_ | refine placed_bed ?_ | refine placed_sync ?_ | refine placed_tie ?_ | refine State.branchable_of ?_ | refine ok_of ?_ | refine Sparse.sorted_of_sortedB _ ?_ | exact List.mem_cons_self | unfold vectorOk | refine error_of ?_ | refine ⟨1, 3, by decide +kernel, ?_⟩) | (intro h; exact absurd h (by decide +kernel)) | (intro q h4 h8; revert h4; revert h8; revert q; decide +kernel) | (refine Or.inl (by decide +kernel)) | (refine Or.inr (by decide +kernel)) | apply And.intro | (refine Exists.intro _ ?_) | (with_reducible constructor) | rfl | intro _
end KeystoneAdd

/-! VectorFloat -/
namespace VectorFloat
def vs (seed c vl rl : Nat) (hod : Bool) (f : State → State := id) : State × Nat :=
  let s := setR (lCore seed c) [(Reg.DRESS_VL, c, 0, vl), (Reg.DRESS_RL, c, 0, rl), (Reg.NUM_SEED, c, 0, 77)]
  let s := { s with mem := s.mem.filter fun x => x.1 % 11 = 0 }
  (f (if hod then s.mapCore c fun k => { k with hod := [⟨1, 150, none⟩] } else s), c)
def slotStates : List (State × Nat) := [vs 5 1 20 2 true, vs 9 2 64 3 false, vs 11 1 7 1 true, vs 12 1 33 2 true]
theorem witness :
  (MeetsIf .fadd .v 0x01 vectorOk) ∧
  (MeetsIf .fsub .v 0x02 vectorOk) ∧
  (MeetsIf .fmul .v 0x03 vectorOk) ∧
  (MeetsIf .fma .v 0x04 vectorOk) ∧
  (MeetsIf .fms .v 0x05 vectorOk) ∧
  (MeetsIf .fmax .v 0x06 vectorOk) ∧
  (MeetsIf .fmin .v 0x07 vectorOk) ∧
  (MeetsIf .fabs .v 0x08 vectorOk) ∧
  (MeetsIf .fneg .v 0x09 vectorOk) ∧
  (MeetsIf .fcmp .v 0x20 vectorOk) ∧
  (MeetsIf .cvt .v 0x30 vectorOk) := by
  refine ⟨shownIf (slotStates.getD 0 (State.reset, 0)).1 (slotStates.getD 0 (State.reset, 0)).2 2730413457866246258149274427886437138432#256 ?_ ?_ ?_ ?_,
    shownIf (slotStates.getD 0 (State.reset, 0)).1 (slotStates.getD 0 (State.reset, 0)).2 51064496346950459274490045786142708404316074955243521#256 ?_ ?_ ?_ ?_,
    shownIf (slotStates.getD 0 (State.reset, 0)).1 (slotStates.getD 0 (State.reset, 0)).2 30839708038496419654668154789156618240#256 ?_ ?_ ?_ ?_,
    shownIf (slotStates.getD 0 (State.reset, 0)).1 (slotStates.getD 0 (State.reset, 0)).2 2982922703389311538921166531962658095104#256 ?_ ?_ ?_ ?_,
    shownIf (slotStates.getD 0 (State.reset, 0)).1 (slotStates.getD 0 (State.reset, 0)).2 129602427149506583280287573361754636288#256 ?_ ?_ ?_ ?_,
    shownIf (slotStates.getD 0 (State.reset, 0)).1 (slotStates.getD 0 (State.reset, 0)).2 8196162285654847321657932139181637632#256 ?_ ?_ ?_ ?_,
    shownIf (slotStates.getD 0 (State.reset, 0)).1 (slotStates.getD 0 (State.reset, 0)).2 28406490757256045243544248031101074631259464941961217#256 ?_ ?_ ?_ ?_,
    shownIf (slotStates.getD 0 (State.reset, 0)).1 (slotStates.getD 0 (State.reset, 0)).2 267565547491372836232712138965123072#256 ?_ ?_ ?_ ?_,
    shownIf (slotStates.getD 0 (State.reset, 0)).1 (slotStates.getD 0 (State.reset, 0)).2 799796257900796319827511959961468928#256 ?_ ?_ ?_ ?_,
    shownIf (slotStates.getD 0 (State.reset, 0)).1 (slotStates.getD 0 (State.reset, 0)).2 91184790000345898814653794405201808116063156182188033#256 ?_ ?_ ?_ ?_,
    shownIf (slotStates.getD 0 (State.reset, 0)).1 (slotStates.getD 0 (State.reset, 0)).2 2921734973485930423406247551650020458496#256 ?_ ?_ ?_ ?_⟩
  all_goals repeat' first | decide +kernel | (with_reducible first | refine State.wordFits_of ?_ | refine sidecars_of ?_ | refine apart_of ?_ ?_ ?_ | refine notWaiting_of ?_ | refine reaches_of ?_ | refine plainWord_of ?_ | refine forall_covers ?_ | refine placed_bed ?_ | refine placed_sync ?_ | refine placed_tie ?_ | refine State.branchable_of ?_ | refine ok_of ?_ | refine Sparse.sorted_of_sortedB _ ?_ | exact List.mem_cons_self | unfold vectorOk | refine error_of ?_ | refine ⟨1, 3, by decide +kernel, ?_⟩) | (intro h; exact absurd h (by decide +kernel)) | (intro q h4 h8; revert h4; revert h8; revert q; decide +kernel) | (refine Or.inl (by decide +kernel)) | (refine Or.inr (by decide +kernel)) | apply And.intro | (refine Exists.intro _ ?_) | (with_reducible constructor) | rfl | intro _
end VectorFloat

/-! VectorInteger -/
namespace VectorInteger
def vs (seed c vl rl : Nat) (hod : Bool) (f : State → State := id) : State × Nat :=
  let s := setR (lCore seed c) [(Reg.DRESS_VL, c, 0, vl), (Reg.DRESS_RL, c, 0, rl), (Reg.NUM_SEED, c, 0, 77)]
  let s := { s with mem := s.mem.filter fun x => x.1 % 11 = 0 }
  (f (if hod then s.mapCore c fun k => { k with hod := [⟨1, 150, none⟩] } else s), c)
def slotStates : List (State × Nat) := [vs 5 1 20 2 true, vs 9 2 64 3 false, vs 11 1 7 1 true, vs 12 1 33 2 true]
theorem witness :
  (MeetsIf .iadd .v 0x10 vectorOk) ∧
  (MeetsIf .isub .v 0x11 vectorOk) ∧
  (MeetsIf .imul .v 0x12 vectorOk) ∧
  (MeetsIf .imax .v 0x13 vectorOk) ∧
  (MeetsIf .imin .v 0x14 vectorOk) ∧
  (MeetsIf .vShl .v 0x15 vectorOk) ∧
  (MeetsIf .vShr .v 0x16 vectorOk) ∧
  (MeetsIf .vSar .v 0x17 vectorOk) ∧
  (MeetsIf .vAnd .v 0x18 vectorOk) ∧
  (MeetsIf .vOr .v 0x19 vectorOk) ∧
  (MeetsIf .vXor .v 0x1A vectorOk) ∧
  (MeetsIf .andn .v 0x1B vectorOk) ∧
  (MeetsIf .mov .v 0x1C vectorOk) ∧
  (MeetsIf .icmp .v 0x21 vectorOk) ∧
  (MeetsIf .sel .v 0x22 vectorOk) := by
  refine ⟨shownIf (slotStates.getD 0 (State.reset, 0)).1 (slotStates.getD 0 (State.reset, 0)).2 20356416906332885120113202721845426821731232876855297#256 ?_ ?_ ?_ ?_,
    shownIf (slotStates.getD 0 (State.reset, 0)).1 (slotStates.getD 0 (State.reset, 0)).2 1420401363943394469707671284230726650792247296000#256 ?_ ?_ ?_ ?_,
    shownIf (slotStates.getD 0 (State.reset, 0)).1 (slotStates.getD 0 (State.reset, 0)).2 1390220739618573826827012547234388809953514748903425#256 ?_ ?_ ?_ ?_,
    shownIf (slotStates.getD 0 (State.reset, 0)).1 (slotStates.getD 0 (State.reset, 0)).2 29422535514670070138806112447300108288#256 ?_ ?_ ?_ ?_,
    shownIf (slotStates.getD 0 (State.reset, 0)).1 (slotStates.getD 0 (State.reset, 0)).2 8154907864521019824015623430065881088#256 ?_ ?_ ?_ ?_,
    shownIf (slotStates.getD 0 (State.reset, 0)).1 (slotStates.getD 0 (State.reset, 0)).2 229073254690374367594423559871935625207440474112#256 ?_ ?_ ?_ ?_,
    shownIf (slotStates.getD 0 (State.reset, 0)).1 (slotStates.getD 0 (State.reset, 0)).2 650178226266237199793167031945716625621450227712#256 ?_ ?_ ?_ ?_,
    shownIf (slotStates.getD 0 (State.reset, 0)).1 (slotStates.getD 0 (State.reset, 0)).2 1332290639635067275137823095224532992#256 ?_ ?_ ?_ ?_,
    shownIf (slotStates.getD 0 (State.reset, 0)).1 (slotStates.getD 0 (State.reset, 0)).2 1996924919937128863260150572615991296#256 ?_ ?_ ?_ ?_,
    shownIf (slotStates.getD 0 (State.reset, 0)).1 (slotStates.getD 0 (State.reset, 0)).2 10681061698246231723647829630487887872#256 ?_ ?_ ?_ ?_,
    shownIf (slotStates.getD 0 (State.reset, 0)).1 (slotStates.getD 0 (State.reset, 0)).2 1297568859376938391620593120744458233297493819392#256 ?_ ?_ ?_ ?_,
    shownIf (slotStates.getD 0 (State.reset, 0)).1 (slotStates.getD 0 (State.reset, 0)).2 92221010465472861474847620163216239268576767934201857#256 ?_ ?_ ?_ ?_,
    shownIf (slotStates.getD 0 (State.reset, 0)).1 (slotStates.getD 0 (State.reset, 0)).2 267971195683445869641191083990843392#256 ?_ ?_ ?_ ?_,
    shownIf (slotStates.getD 0 (State.reset, 0)).1 (slotStates.getD 0 (State.reset, 0)).2 5575186567705263516848057561472910623768576#256 ?_ ?_ ?_ ?_,
    shownIf (slotStates.getD 0 (State.reset, 0)).1 (slotStates.getD 0 (State.reset, 0)).2 706331502716029969016592295046290090557922344960#256 ?_ ?_ ?_ ?_⟩
  all_goals repeat' first | decide +kernel | (with_reducible first | refine State.wordFits_of ?_ | refine sidecars_of ?_ | refine apart_of ?_ ?_ ?_ | refine notWaiting_of ?_ | refine reaches_of ?_ | refine plainWord_of ?_ | refine forall_covers ?_ | refine placed_bed ?_ | refine placed_sync ?_ | refine placed_tie ?_ | refine State.branchable_of ?_ | refine ok_of ?_ | refine Sparse.sorted_of_sortedB _ ?_ | exact List.mem_cons_self | unfold vectorOk | refine error_of ?_ | refine ⟨1, 3, by decide +kernel, ?_⟩) | (intro h; exact absurd h (by decide +kernel)) | (intro q h4 h8; revert h4; revert h8; revert q; decide +kernel) | (refine Or.inl (by decide +kernel)) | (refine Or.inr (by decide +kernel)) | apply And.intro | (refine Exists.intro _ ?_) | (with_reducible constructor) | rfl | intro _
end VectorInteger

/-! VectorScaledConversions -/
namespace VectorScaledConversions
def vs (seed c vl rl : Nat) (hod : Bool) (f : State → State := id) : State × Nat :=
  let s := setR (lCore seed c) [(Reg.DRESS_VL, c, 0, vl), (Reg.DRESS_RL, c, 0, rl), (Reg.NUM_SEED, c, 0, 77)]
  let s := { s with mem := s.mem.filter fun x => x.1 % 11 = 0 }
  (f (if hod then s.mapCore c fun k => { k with hod := [⟨1, 150, none⟩] } else s), c)
def slotStates : List (State × Nat) := [vs 5 1 20 2 true, vs 9 2 64 3 false, vs 11 1 7 1 true, vs 12 1 33 2 true]
theorem witness :
  let ts (b : Bundle) : Nat := fld (bV b) 38 36
  let at_ (b : Bundle) (l : Nat) : Nat := fld (bV b) 46 41 + l / blockOf (fld (bV b) 40 39)
  let room (n : Nat) (s : State) (c : Nat) (b : Bundle) : Prop :=
    s.VectorReady c b (vSources (bV b)) [] ∧ vDst (bV b) + n ≤ if s.cf Reg.DRESS_BEYLER c = 1 then 4 else 8
  (MeetsIf .cvtS .v 0x31 (fun s c b => s.VectorReady c b (vSources (bV b) ++ [ts b]) [vDst (bV b)] ∧ (0 < s.lanes c → at_ b (s.lanes c - 1) ≤ 63))) ∧
  (MeetsIf .split2 .v 0x32 (room 2)) ∧
  (MeetsIf .split3 .v 0x33 (room 3)) := by
  refine ⟨shownIf (slotStates.getD 0 (State.reset, 0)).1 (slotStates.getD 0 (State.reset, 0)).2 1637718023375688750729016725681128864231718912#256 ?_ ?_ ?_ ?_,
    shownIf (slotStates.getD 0 (State.reset, 0)).1 (slotStates.getD 0 (State.reset, 0)).2 94475463933809480834746296490262528#256 ?_ ?_ ?_ ?_,
    shownIf (slotStates.getD 0 (State.reset, 0)).1 (slotStates.getD 0 (State.reset, 0)).2 3630551319053649005886557980196864#256 ?_ ?_ ?_ ?_⟩
  all_goals repeat' first | decide +kernel | (with_reducible first | refine State.wordFits_of ?_ | refine sidecars_of ?_ | refine apart_of ?_ ?_ ?_ | refine notWaiting_of ?_ | refine reaches_of ?_ | refine plainWord_of ?_ | refine forall_covers ?_ | refine placed_bed ?_ | refine placed_sync ?_ | refine placed_tie ?_ | refine State.branchable_of ?_ | refine ok_of ?_ | refine Sparse.sorted_of_sortedB _ ?_ | exact List.mem_cons_self | unfold vectorOk | refine error_of ?_ | refine ⟨1, 3, by decide +kernel, ?_⟩) | (intro h; exact absurd h (by decide +kernel)) | (intro q h4 h8; revert h4; revert h8; revert q; decide +kernel) | (refine Or.inl (by decide +kernel)) | (refine Or.inr (by decide +kernel)) | apply And.intro | (refine Exists.intro _ ?_) | (with_reducible constructor) | rfl | intro _
end VectorScaledConversions

/-! VectorPermutes -/
namespace VectorPermutes
def vs (seed c vl rl : Nat) (hod : Bool) (f : State → State := id) : State × Nat :=
  let s := setR (lCore seed c) [(Reg.DRESS_VL, c, 0, vl), (Reg.DRESS_RL, c, 0, rl), (Reg.NUM_SEED, c, 0, 77)]
  let s := { s with mem := s.mem.filter fun x => x.1 % 11 = 0 }
  (f (if hod then s.mapCore c fun k => { k with hod := [⟨1, 150, none⟩] } else s), c)
def slotStates : List (State × Nat) := [vs 5 1 20 2 true, vs 9 2 64 3 false, vs 11 1 7 1 true, vs 12 1 33 2 true]
theorem witness :
  let w (b : Bundle) : Nat := match vSUB (bV b) with | 0 => 4 | 1 => 6 | 2 => 8 | _ => 16
  (MeetsIf .perm .v 0x23 vectorOk) ∧
  (MeetsIf .shuf .v 0x24 vectorOk) ∧
  (∃ (n : Nat), MeetsIf .pack .v 0x28 (fun s c b => vectorOk s c b ∧ w b = n)) ∧
  (MeetsIf .unpack .v 0x29 vectorOk) := by
  refine ⟨shownIf (slotStates.getD 0 (State.reset, 0)).1 (slotStates.getD 0 (State.reset, 0)).2 1174736354828738429288123411200103040896278200320#256 ?_ ?_ ?_ ?_,
    shownIf (slotStates.getD 0 (State.reset, 0)).1 (slotStates.getD 0 (State.reset, 0)).2 581213172692817154342414401265771347372408832#256 ?_ ?_ ?_ ?_,
    ⟨(4), shownIf (slotStates.getD 0 (State.reset, 0)).1 (slotStates.getD 0 (State.reset, 0)).2 781708021444520512619035534543499474458179010560#256 ?_ ?_ ?_ ?_⟩,
    shownIf (slotStates.getD 0 (State.reset, 0)).1 (slotStates.getD 0 (State.reset, 0)).2 1393796575739742740095700879422359896850432#256 ?_ ?_ ?_ ?_⟩
  all_goals repeat' first | decide +kernel | (with_reducible first | refine State.wordFits_of ?_ | refine sidecars_of ?_ | refine apart_of ?_ ?_ ?_ | refine notWaiting_of ?_ | refine reaches_of ?_ | refine plainWord_of ?_ | refine forall_covers ?_ | refine placed_bed ?_ | refine placed_sync ?_ | refine placed_tie ?_ | refine State.branchable_of ?_ | refine ok_of ?_ | refine Sparse.sorted_of_sortedB _ ?_ | exact List.mem_cons_self | unfold vectorOk | refine error_of ?_ | refine ⟨1, 3, by decide +kernel, ?_⟩) | (intro h; exact absurd h (by decide +kernel)) | (intro q h4 h8; revert h4; revert h8; revert q; decide +kernel) | (refine Or.inl (by decide +kernel)) | (refine Or.inr (by decide +kernel)) | apply And.intro | (refine Exists.intro _ ?_) | (with_reducible constructor) | rfl | intro _
end VectorPermutes

/-! VectorReductions -/
namespace VectorReductions
def vs (seed c vl rl : Nat) (hod : Bool) (f : State → State := id) : State × Nat :=
  let s := setR (lCore seed c) [(Reg.DRESS_VL, c, 0, vl), (Reg.DRESS_RL, c, 0, rl), (Reg.NUM_SEED, c, 0, 77)]
  let s := { s with mem := s.mem.filter fun x => x.1 % 11 = 0 }
  (f (if hod then s.mapCore c fun k => { k with hod := [⟨1, 150, none⟩] } else s), c)
def slotStates : List (State × Nat) := [vs 5 1 20 2 true, vs 9 2 64 3 false, vs 11 1 7 1 true, vs 12 1 33 2 true]
theorem witness :
  let axisR (b : Bundle) : Bool := bit (bV b) 16
  let at_ (b : Bundle) : Nat := fld (bV b) 22 17
  let add (b : Bundle) (x y : Nat) : Nat := (fpAdd (vRm b) 0 x y).bits
  let fixNaN (x : Nat) : Nat := if (fp32 x).isNan then nan32 else x
  let one (mk : Nat → Bundle → Instr) (op : Nat) (f : Bundle → List Nat → Nat) : Prop := (MeetsIf mk .v op vectorOk)
  (one .rsum 0x38 (fun b x => fixNaN (tree (add b) 0 x))) ∧
  (one .rmax 0x39 (fun _ x => fixNaN (tree (fun a b => (fpMax false a b).bits) 0 x))) ∧
  (one .rmin 0x3A (fun _ x => fixNaN (tree (fun a b => (fpMax true a b).bits) 0 x))) ∧
  (one .rssq 0x3B (fun b x => fixNaN (tree (add b) 0 (x.map fun y => (fpMul (vRm b) 0 y y).bits)))) ∧
  (MeetsIf .rmv .v 0x3C (fun s c b => vectorOk s c b ∧ (axisR b = false → at_ b ≤ 62))) := by
  refine ⟨shownIf (slotStates.getD 0 (State.reset, 0)).1 (slotStates.getD 0 (State.reset, 0)).2 6291603459052748165508437348922163200#256 ?_ ?_ ?_ ?_,
    shownIf (slotStates.getD 0 (State.reset, 0)).1 (slotStates.getD 0 (State.reset, 0)).2 1597787381346867640987292614558482432#256 ?_ ?_ ?_ ?_,
    shownIf (slotStates.getD 0 (State.reset, 0)).1 (slotStates.getD 0 (State.reset, 0)).2 164960447575408485555298457319897038848#256 ?_ ?_ ?_ ?_,
    shownIf (slotStates.getD 0 (State.reset, 0)).1 (slotStates.getD 0 (State.reset, 0)).2 27517773863971934465952378184527773696#256 ?_ ?_ ?_ ?_,
    shownIf (slotStates.getD 0 (State.reset, 0)).1 (slotStates.getD 0 (State.reset, 0)).2 106518590848988940485714303780862820352#256 ?_ ?_ ?_ ?_⟩
  all_goals repeat' first | decide +kernel | (with_reducible first | refine State.wordFits_of ?_ | refine sidecars_of ?_ | refine apart_of ?_ ?_ ?_ | refine notWaiting_of ?_ | refine reaches_of ?_ | refine plainWord_of ?_ | refine forall_covers ?_ | refine placed_bed ?_ | refine placed_sync ?_ | refine placed_tie ?_ | refine State.branchable_of ?_ | refine ok_of ?_ | refine Sparse.sorted_of_sortedB _ ?_ | exact List.mem_cons_self | unfold vectorOk | refine error_of ?_ | refine ⟨1, 3, by decide +kernel, ?_⟩) | (intro h; exact absurd h (by decide +kernel)) | (intro q h4 h8; revert h4; revert h8; revert q; decide +kernel) | (refine Or.inl (by decide +kernel)) | (refine Or.inr (by decide +kernel)) | apply And.intro | (refine Exists.intro _ ?_) | (with_reducible constructor) | rfl | intro _
end VectorReductions

/-! VectorScales -/
namespace VectorScales
def vs (seed c vl rl : Nat) (hod : Bool) (f : State → State := id) : State × Nat :=
  let s := setR (lCore seed c) [(Reg.DRESS_VL, c, 0, vl), (Reg.DRESS_RL, c, 0, rl), (Reg.NUM_SEED, c, 0, 77)]
  let s := { s with mem := s.mem.filter fun x => x.1 % 11 = 0 }
  (f (if hod then s.mapCore c fun k => { k with hod := [⟨1, 150, none⟩] } else s), c)
def slotStates : List (State × Nat) := [vs 5 1 20 2 true, vs 9 2 64 3 false, vs 11 1 7 1 true, vs 12 1 33 2 true]
theorem witness :
  let axisR (b : Bundle) : Bool := bit (bV b) 16
  let lane0 (b : Bundle) : Nat := fld (bV b) 22 17
  let bs (b : Bundle) : Nat := blockOf (fld (bV b) 41 40)
  MeetsIf .amaxs .v 0x3D (fun s c b => vectorOk s c b ∧ (axisR b = false → 0 < s.lanes c → lane0 b + (s.lanes c - 1) / bs b ≤ 63)) := by
  refine shownIf (slotStates.getD 0 (State.reset, 0)).1 (slotStates.getD 0 (State.reset, 0)).2 11151735105928889822173786091196217397608448#256 ?_ ?_ ?_ ?_
  all_goals repeat' first | decide +kernel | (with_reducible first | refine State.wordFits_of ?_ | refine sidecars_of ?_ | refine apart_of ?_ ?_ ?_ | refine notWaiting_of ?_ | refine reaches_of ?_ | refine plainWord_of ?_ | refine forall_covers ?_ | refine placed_bed ?_ | refine placed_sync ?_ | refine placed_tie ?_ | refine State.branchable_of ?_ | refine ok_of ?_ | refine Sparse.sorted_of_sortedB _ ?_ | exact List.mem_cons_self | unfold vectorOk | refine error_of ?_ | refine ⟨1, 3, by decide +kernel, ?_⟩) | (intro h; exact absurd h (by decide +kernel)) | (intro q h4 h8; revert h4; revert h8; revert q; decide +kernel) | (refine Or.inl (by decide +kernel)) | (refine Or.inr (by decide +kernel)) | apply And.intro | (refine Exists.intro _ ?_) | (with_reducible constructor) | rfl | intro _
end VectorScales

/-! VectorMemory -/
namespace VectorMemory
def vs (seed c vl rl : Nat) (hod : Bool) (f : State → State := id) : State × Nat :=
  let s := setR (lCore seed c) [(Reg.DRESS_VL, c, 0, vl), (Reg.DRESS_RL, c, 0, rl), (Reg.NUM_SEED, c, 0, 77)]
  let s := { s with mem := s.mem.filter fun x => x.1 % 11 = 0 }
  (f (if hod then s.mapCore c fun k => { k with hod := [⟨1, 150, none⟩] } else s), c)
def slotStates : List (State × Nat) := [vs 5 1 20 2 true, vs 9 2 64 3 false, vs 11 1 7 1 true, vs 12 1 33 2 true]
theorem witness :
  (MeetsIf .vld .v 0x40 (fun s c b => s.VectorReady c b [] [vDst (bV b)] ∧ vldFits s c b)) ∧
  (MeetsIf .vst .v 0x41 (fun s c b => s.VectorReady c b [vSA (bV b)] [] ∧ vldFits s c b ∧ s.writable c (vldHandle s c b) = true)) := by
  refine ⟨shownIf (slotStates.getD 0 (State.reset, 0)).1 (slotStates.getD 0 (State.reset, 0)).2 766984024681115964269103663142993395712#256 ?_ ?_ ?_ ?_,
    shownIf (slotStates.getD 0 (State.reset, 0)).1 (slotStates.getD 0 (State.reset, 0)).2 85279601961200246329562428282444447744#256 ?_ ?_ ?_ ?_⟩
  all_goals repeat' first | decide +kernel | (with_reducible first | refine State.wordFits_of ?_ | refine sidecars_of ?_ | refine apart_of ?_ ?_ ?_ | refine notWaiting_of ?_ | refine reaches_of ?_ | refine plainWord_of ?_ | refine forall_covers ?_ | refine placed_bed ?_ | refine placed_sync ?_ | refine placed_tie ?_ | refine State.branchable_of ?_ | refine ok_of ?_ | refine Sparse.sorted_of_sortedB _ ?_ | exact List.mem_cons_self | unfold vectorOk | refine error_of ?_ | refine ⟨1, 3, by decide +kernel, ?_⟩) | (intro h; exact absurd h (by decide +kernel)) | (intro q h4 h8; revert h4; revert h8; revert q; decide +kernel) | (refine Or.inl (by decide +kernel)) | (refine Or.inr (by decide +kernel)) | apply And.intro | (refine Exists.intro _ ?_) | (with_reducible constructor) | rfl | intro _
end VectorMemory

/-! LoopShape -/
namespace LoopShape
def vs (seed c vl rl : Nat) (hod : Bool) (f : State → State := id) : State × Nat :=
  let s := setR (lCore seed c) [(Reg.DRESS_VL, c, 0, vl), (Reg.DRESS_RL, c, 0, rl), (Reg.NUM_SEED, c, 0, 77)]
  let s := { s with mem := s.mem.filter fun x => x.1 % 11 = 0 }
  (f (if hod then s.mapCore c fun k => { k with hod := [⟨1, 150, none⟩] } else s), c)
def pend (s : State) (c : Nat) : State := s.mapCore c fun k => { k with rowWrites := [⟨201, 3, 0, .dresser, [(0, 5#32), (1, 6#32)]⟩, ⟨203, 3, 1, .dresser, [(2, 7#32)]⟩] }
def slotStates : List (State × Nat) := [(pend (vs 5 1 20 2 true).1 1, 1), vs 5 1 20 2 true, vs 9 2 64 3 false, vs 11 1 7 1 true, vs 12 1 33 2 true]
theorem witness :
  let free (s : State) (c : Nat) : Prop := (s.core c).tm.vNext ≤ s.issueCycle c
  let ahead (s : State) (c : Nat) : Prop := ∀ w ∈ (s.core c).rowWrites, s.issueCycle c < w.cycle
  (MeetsIf .setvl .v 0x48 (fun s c b => free s c ∧ ahead s c ∧ fld (bV b) 13 7 ≤ 64 ∧ 1 ≤ fld (bV b) 18 14 ∧ fld (bV b) 18 14 ≤ 16)) ∧
  (MeetsIf .setvl .v 0x48 (fun s c b => free s c ∧ (64 < fld (bV b) 13 7 ∨ fld (bV b) 18 14 = 0 ∨ 16 < fld (bV b) 18 14))) ∧
  (MeetsIf .setvlR .v 0x49 (fun s c _ => free s c ∧ ahead s c)) := by
  refine ⟨shownIf (slotStates.getD 0 (State.reset, 0)).1 (slotStates.getD 0 (State.reset, 0)).2 5037988286270245719945105641436086272#256 ?_ ?_ ?_ ?_,
    shownIf (slotStates.getD 0 (State.reset, 0)).1 (slotStates.getD 0 (State.reset, 0)).2 7299233568162163152170136792811438080#256 ?_ ?_ ?_ ?_,
    shownIf (slotStates.getD 0 (State.reset, 0)).1 (slotStates.getD 0 (State.reset, 0)).2 962055534730009683219089970249596928#256 ?_ ?_ ?_ ?_⟩
  all_goals repeat' first | decide +kernel | (with_reducible first | refine State.wordFits_of ?_ | refine sidecars_of ?_ | refine apart_of ?_ ?_ ?_ | refine notWaiting_of ?_ | refine reaches_of ?_ | refine plainWord_of ?_ | refine forall_covers ?_ | refine placed_bed ?_ | refine placed_sync ?_ | refine placed_tie ?_ | refine State.branchable_of ?_ | refine ok_of ?_ | refine Sparse.sorted_of_sortedB _ ?_ | exact List.mem_cons_self | unfold vectorOk | refine error_of ?_ | refine ⟨1, 3, by decide +kernel, ?_⟩) | (intro h; exact absurd h (by decide +kernel)) | (intro q h4 h8; revert h4; revert h8; revert q; decide +kernel) | (refine Or.inl (by decide +kernel)) | (refine Or.inr (by decide +kernel)) | apply And.intro | (refine Exists.intro _ ?_) | (with_reducible constructor) | rfl | intro _
end LoopShape

/-! ExportToBed -/
namespace ExportToBed
def withAcc (s : State) (c : Nat) (a : List (Nat × Elem)) : State := s.mapCore c fun k => { k with acc := a }
def m3 : State := withAcc (lCore 5 1) 1 ((List.range 4).map fun a => (accKey a 0 0 0, ⟨BitVec.ofNat 128 (5 + a), 0#32⟩))
def m4 : State := withAcc (lCore 9 2) 2 ((List.range 4).map fun a => (accKey a 0 0 1, ⟨BitVec.ofNat 128 (7 + a), 0#32⟩))
def es (s : State) (c _ : Nat) : State :=
  let s := setR s ((List.range 8).flatMap fun h => [(Reg.HANDLE_EXTENT, c, h, 0x8000), (Reg.HANDLE_BASE, c, h, 0x8000 * h), (Reg.HANDLE_VIEW, c, h, 0)])
  (((s.setS c 10 (256 + 512 * 2 ^ 20 + 1024 * 2 ^ 40)).setS c 11 (16 + 64 * 2 ^ 40)).setS c 13 (3 + 5 * 2 ^ 24)).setS c 14 0
def E3 : State := es m3 1 3
def E4 : State := es m4 2 4
def slotStates : List (State × Nat) := [(E3, 1), (E4, 2)]
theorem witness :
  MeetsIf .exportTile .m 2 (fun s c b => let p := exportOf s c b; p.mode ≠ 2 ∧ p.dest = 1 ∧ s.ExportReady c p .m b ∧ Apart s c p) := by
  refine shownIf (slotStates.getD 0 (State.reset, 0)).1 (slotStates.getD 0 (State.reset, 0)).2 257807046741660624188604416#256 ?_ ?_ ?_ ?_
  all_goals repeat' first | decide +kernel | (with_reducible first | refine State.wordFits_of ?_ | refine sidecars_of ?_ | refine apart_of ?_ ?_ ?_ | refine notWaiting_of ?_ | refine reaches_of ?_ | refine plainWord_of ?_ | refine forall_covers ?_ | refine placed_bed ?_ | refine placed_sync ?_ | refine placed_tie ?_ | refine State.branchable_of ?_ | refine ok_of ?_ | refine Sparse.sorted_of_sortedB _ ?_ | exact List.mem_cons_self | unfold vectorOk | refine error_of ?_ | refine ⟨1, 3, by decide +kernel, ?_⟩) | (intro h; exact absurd h (by decide +kernel)) | (intro q h4 h8; revert h4; revert h8; revert q; decide +kernel) | (refine Or.inl (by decide +kernel)) | (refine Or.inr (by decide +kernel)) | apply And.intro | (refine Exists.intro _ ?_) | (with_reducible constructor) | rfl | intro _
end ExportToBed

/-! ExportRaw -/
namespace ExportRaw
def withAcc (s : State) (c : Nat) (a : List (Nat × Elem)) : State := s.mapCore c fun k => { k with acc := a }
def m3 : State := withAcc (lCore 5 1) 1 ((List.range 4).map fun a => (accKey a 0 0 0, ⟨BitVec.ofNat 128 (5 + a), 0#32⟩))
def m4 : State := withAcc (lCore 9 2) 2 ((List.range 4).map fun a => (accKey a 0 0 1, ⟨BitVec.ofNat 128 (7 + a), 0#32⟩))
def es (s : State) (c _ : Nat) : State :=
  let s := setR s ((List.range 8).flatMap fun h => [(Reg.HANDLE_EXTENT, c, h, 0x8000), (Reg.HANDLE_BASE, c, h, 0x8000 * h), (Reg.HANDLE_VIEW, c, h, 0)])
  (((s.setS c 10 (256 + 512 * 2 ^ 20 + 1024 * 2 ^ 40)).setS c 11 (16 + 64 * 2 ^ 40)).setS c 13 (3 + 5 * 2 ^ 24)).setS c 14 0
def E3 : State := es m3 1 3
def E4 : State := es m4 2 4
def slotStates : List (State × Nat) := [(E3, 1), (E4, 2)]
theorem witness :
  MeetsIf .exportTile .m 2 (fun s c b => let p := exportOf s c b; p.mode = 2 ∧ p.dest = 1 ∧ s.ExportReady c p .m b) := by
  refine shownIf (slotStates.getD 0 (State.reset, 0)).1 (slotStates.getD 0 (State.reset, 0)).2 276848283118335776163627010#256 ?_ ?_ ?_ ?_
  all_goals repeat' first | decide +kernel | (with_reducible first | refine State.wordFits_of ?_ | refine sidecars_of ?_ | refine apart_of ?_ ?_ ?_ | refine notWaiting_of ?_ | refine reaches_of ?_ | refine plainWord_of ?_ | refine forall_covers ?_ | refine placed_bed ?_ | refine placed_sync ?_ | refine placed_tie ?_ | refine State.branchable_of ?_ | refine ok_of ?_ | refine Sparse.sorted_of_sortedB _ ?_ | exact List.mem_cons_self | unfold vectorOk | refine error_of ?_ | refine ⟨1, 3, by decide +kernel, ?_⟩) | (intro h; exact absurd h (by decide +kernel)) | (intro q h4 h8; revert h4; revert h8; revert q; decide +kernel) | (refine Or.inl (by decide +kernel)) | (refine Or.inr (by decide +kernel)) | apply And.intro | (refine Exists.intro _ ?_) | (with_reducible constructor) | rfl | intro _
end ExportRaw

/-! ExportToTile -/
namespace ExportToTile
def withAcc (s : State) (c : Nat) (a : List (Nat × Elem)) : State := s.mapCore c fun k => { k with acc := a }
def m3 : State := withAcc (lCore 5 1) 1 ((List.range 4).map fun a => (accKey a 0 0 0, ⟨BitVec.ofNat 128 (5 + a), 0#32⟩))
def m4 : State := withAcc (lCore 9 2) 2 ((List.range 4).map fun a => (accKey a 0 0 1, ⟨BitVec.ofNat 128 (7 + a), 0#32⟩))
def es (s : State) (c _ : Nat) : State :=
  let s := setR s ((List.range 8).flatMap fun h => [(Reg.HANDLE_EXTENT, c, h, 0x8000), (Reg.HANDLE_BASE, c, h, 0x8000 * h), (Reg.HANDLE_VIEW, c, h, 0)])
  (((s.setS c 10 (256 + 512 * 2 ^ 20 + 1024 * 2 ^ 40)).setS c 11 (16 + 64 * 2 ^ 40)).setS c 13 (3 + 5 * 2 ^ 24)).setS c 14 0
def E3 : State := es m3 1 3
def E4 : State := es m4 2 4
def slotStates : List (State × Nat) := [(E3, 1), (E4, 2)]
theorem witness :
  (MeetsIf .exportTile .m 2 (fun s c b => let p := exportOf s c b; p.mode ≠ 2 ∧ p.dest = 2 ∧ s.ExportReady c p .m b ∧ Apart s c p)) ∧
  (MeetsIf .exportTile .m 2 (fun s c b => let p := exportOf s c b; p.mode ≠ 2 ∧ p.dest = 0 ∧ s.ExportReady c p .m b ∧ Apart s c p)) ∧
  (MeetsIf .pull .v 0x50 (fun s c b => s.ExportReady c (pullArgs (bV b)) .v b)) := by
  refine ⟨shownIf (slotStates.getD 0 (State.reset, 0)).1 (slotStates.getD 0 (State.reset, 0)).2 104883084489048448363401314304#256 ?_ ?_ ?_ ?_,
    shownIf (slotStates.getD 0 (State.reset, 0)).1 (slotStates.getD 0 (State.reset, 0)).2 277600384617907547185086464#256 ?_ ?_ ?_ ?_,
    shownIf (slotStates.getD 0 (State.reset, 0)).1 (slotStates.getD 0 (State.reset, 0)).2 825729911806827264952502244930400808861696#256 ?_ ?_ ?_ ?_⟩
  all_goals repeat' first | decide +kernel | (with_reducible first | refine State.wordFits_of ?_ | refine sidecars_of ?_ | refine apart_of ?_ ?_ ?_ | refine notWaiting_of ?_ | refine reaches_of ?_ | refine plainWord_of ?_ | refine forall_covers ?_ | refine placed_bed ?_ | refine placed_sync ?_ | refine placed_tie ?_ | refine State.branchable_of ?_ | refine ok_of ?_ | refine Sparse.sorted_of_sortedB _ ?_ | exact List.mem_cons_self | unfold vectorOk | refine error_of ?_ | refine ⟨1, 3, by decide +kernel, ?_⟩) | (intro h; exact absurd h (by decide +kernel)) | (intro q h4 h8; revert h4; revert h8; revert q; decide +kernel) | (refine Or.inl (by decide +kernel)) | (refine Or.inr (by decide +kernel)) | apply And.intro | (refine Exists.intro _ ?_) | (with_reducible constructor) | rfl | intro _
end ExportToTile

/-! TemplateEval -/
namespace TemplateEval
def vs (seed c vl rl : Nat) (hod : Bool) (f : State → State := id) : State × Nat :=
  let s := setR (lCore seed c) [(Reg.DRESS_VL, c, 0, vl), (Reg.DRESS_RL, c, 0, rl), (Reg.NUM_SEED, c, 0, 77)]
  let s := { s with mem := s.mem.filter fun x => x.1 % 11 = 0 }
  (f (if hod then s.mapCore c fun k => { k with hod := [⟨1, 150, none⟩] } else s), c)
def bf (f : State → State) (x : State × Nat) : State × Nat := (f x.1, x.2)
def V := [vs 5 1 20 2 true, vs 9 2 64 2 false, vs 11 1 7 1 true, bf (fun s => s.wr Reg.NUM_VSTRICT 1 0 1) (vs 12 1 33 2 true), bf (fun s => s.wr Reg.DRESS_BEYLER 2 0 1) (vs 12 2 33 2 true), bf (fun s => s.wr Reg.TPL_ACTIVE 2 0 1) (vs 12 2 33 2 true)]
def slotStates : List (State × Nat) := V
theorem witness :
  let src (b : Bundle) : Nat := fld (bT b) 8 6
  let dst (b : Bundle) : Nat := fld (bT b) 11 9
  MeetsIf .teval .t 1 (fun s c b => (s.core c).tm.tNext ≤ s.issueCycle c ∧ (s.core c).tm.swapAt = none ∧ s.cf Reg.TPL_LOADING c ≠ 1 ∧
      (s.core c).rowWrites = [] ∧ (s.cf Reg.DRESS_BEYLER c = 1 → src b < 4 ∧ dst b < 4)) := by
  refine shownIf (slotStates.getD 0 (State.reset, 0)).1 (slotStates.getD 0 (State.reset, 0)).2 10115052831967179096887702727229394779038709129936896#256 ?_ ?_ ?_ ?_
  all_goals repeat' first | decide +kernel | (with_reducible first | refine State.wordFits_of ?_ | refine sidecars_of ?_ | refine apart_of ?_ ?_ ?_ | refine notWaiting_of ?_ | refine reaches_of ?_ | refine plainWord_of ?_ | refine forall_covers ?_ | refine placed_bed ?_ | refine placed_sync ?_ | refine placed_tie ?_ | refine State.branchable_of ?_ | refine ok_of ?_ | refine Sparse.sorted_of_sortedB _ ?_ | exact List.mem_cons_self | unfold vectorOk | refine error_of ?_ | refine ⟨1, 3, by decide +kernel, ?_⟩) | (intro h; exact absurd h (by decide +kernel)) | (intro q h4 h8; revert h4; revert h8; revert q; decide +kernel) | (refine Or.inl (by decide +kernel)) | (refine Or.inr (by decide +kernel)) | apply And.intro | (refine Exists.intro _ ?_) | (with_reducible constructor) | rfl | intro _
end TemplateEval

/-! TemplateBanks -/
namespace TemplateBanks
def vs (seed c vl rl : Nat) (hod : Bool) (f : State → State := id) : State × Nat :=
  let s := setR (lCore seed c) [(Reg.DRESS_VL, c, 0, vl), (Reg.DRESS_RL, c, 0, rl), (Reg.NUM_SEED, c, 0, 77)]
  let s := { s with mem := s.mem.filter fun x => x.1 % 11 = 0 }
  (f (if hod then s.mapCore c fun k => { k with hod := [⟨1, 150, none⟩] } else s), c)
def bf (f : State → State) (x : State × Nat) : State × Nat := (f x.1, x.2)
def big (x : State × Nat) : State × Nat := ((setR x.1 ((List.range 8).flatMap fun h => [(Reg.HANDLE_EXTENT, x.2, h, 0x8000), (Reg.HANDLE_BASE, x.2, h, 512 * h)])), x.2)
def V := [vs 5 1 20 2 true, vs 9 2 64 2 false, vs 11 1 7 1 true, bf (fun s => s.wr Reg.NUM_VSTRICT 1 0 1) (vs 12 1 33 2 true), bf (fun s => s.wr Reg.DRESS_BEYLER 2 0 1) (vs 12 2 33 2 true), bf (fun s => s.wr Reg.TPL_ACTIVE 2 0 1) (vs 12 2 33 2 true)]
def slotStates : List (State × Nat) := V.map big
theorem witness :
  let count (b : Bundle) : Nat := match fld (bT b) 5 3 with | 0 => 256 | 1 => 256 | 2 => 256 | 3 => 512 | _ => 1280
  let off (s : State) (c : Nat) (b : Bundle) : Nat := fld (s.amount c (fld (bT b) 16 12)) 23 0
  let h (s : State) (c : Nat) (b : Bundle) : Handle := s.handleNow c (fld (bT b) 11 6)
  (MeetsIf .tload .t 2 (fun s c b => s.cf Reg.DRESS_BEYLER c ≠ 1 ∧ (s.core c).tm.tloadNext ≤ s.issueCycle c ∧ (s.core c).tm.swapAt = none ∧ s.marks = [] ∧
      off s c b % 16 = 0 ∧ (h s c b).wide (off s c b) (16 * count b) = true)) ∧
  (MeetsIf .tswap .t 3 (fun s c _ => s.cf Reg.DRESS_BEYLER c ≠ 1 ∧ (s.core c).tm.swapAt = none)) ∧
  (MeetsIf .tload .t 2 (fun s c _ => s.cf Reg.DRESS_BEYLER c = 1 ∧ (s.core c).tm.swapAt = none)) ∧
  (MeetsIf .tswap .t 3 (fun s c _ => s.cf Reg.DRESS_BEYLER c = 1 ∧ (s.core c).tm.swapAt = none)) := by
  refine ⟨shownIf (slotStates.getD 0 (State.reset, 0)).1 (slotStates.getD 0 (State.reset, 0)).2 18078775253783269098179581380700420953143885556613120#256 ?_ ?_ ?_ ?_,
    shownIf (slotStates.getD 0 (State.reset, 0)).1 (slotStates.getD 0 (State.reset, 0)).2 4384504911992708754611054498148849058967797628928#256 ?_ ?_ ?_ ?_,
    shownIf (slotStates.getD 4 (State.reset, 0)).1 (slotStates.getD 4 (State.reset, 0)).2 18078775253783269098179581380700420953143885556613120#256 ?_ ?_ ?_ ?_,
    shownIf (slotStates.getD 4 (State.reset, 0)).1 (slotStates.getD 4 (State.reset, 0)).2 4384504911992708754611054498148849058967797628928#256 ?_ ?_ ?_ ?_⟩
  all_goals repeat' first | decide +kernel | (with_reducible first | refine State.wordFits_of ?_ | refine sidecars_of ?_ | refine apart_of ?_ ?_ ?_ | refine notWaiting_of ?_ | refine reaches_of ?_ | refine plainWord_of ?_ | refine forall_covers ?_ | refine placed_bed ?_ | refine placed_sync ?_ | refine placed_tie ?_ | refine State.branchable_of ?_ | refine ok_of ?_ | refine Sparse.sorted_of_sortedB _ ?_ | exact List.mem_cons_self | unfold vectorOk | refine error_of ?_ | refine ⟨1, 3, by decide +kernel, ?_⟩) | (intro h; exact absurd h (by decide +kernel)) | (intro q h4 h8; revert h4; revert h8; revert q; decide +kernel) | (refine Or.inl (by decide +kernel)) | (refine Or.inr (by decide +kernel)) | apply And.intro | (refine Exists.intro _ ?_) | (with_reducible constructor) | rfl | intro _
end TemplateBanks

/-! Fills -/
namespace Fills
def sh (b src n : Nat) : State := (lCore 5 1).mapCore 1 fun k => { k with shadow := [⟨100, BitVec.ofNat 256 b, 0, src, (lCore 5 1).bytesAt (windowBase 1 + src) n⟩, ⟨7, 5#256, 1, 0, []⟩] }
def slotStates : List (State × Nat) := [(lCore 5 1, 1), (sh 1145997934146004187546194137149729676659921766684735807888031744 80 32, 1), (sh 8152815124704466014037402252959873450914029007850831961858768896 32864 48, 1)]
theorem witness :
  let fill (mk : Nat → Bundle → Instr) (op size : Nat) (buf dst len so h : Nat → Nat) (ok : State → Nat → Nat → Prop) : Prop := (
  let off (s : State) (c x : Nat) : Nat := fld (s.amount c (so x)) 23 0;
  let src (s : State) (c x : Nat) : Nat := (s.handleNow c (h x)).base + off s c x;
  let ahead (s : State) (c : Nat) (b : Bundle) (f : ShadowFill) : Prop :=
      f.index = s.next c ∧ f.bundle = b ∧ f.depth = 0 ∧ f.src = src s c (bX b) ∧ s.aheadFresh c f.src f.data = true;
  let good (s : State) (c : Nat) (b : Bundle) : Prop :=
      ok s c (bX b) ∧ off s c (bX b) % 16 = 0 ∧ dst (bX b) + len (bX b) ≤ size ∧
      (s.handleNow c (h (bX b))).wide (off s c (bX b)) (len (bX b)) = true;
    MeetsIf mk .x op (fun s c b => good s c b ∧ s.marks = [] ∧ ∀ f ∈ (s.core c).shadow, ¬ ahead s c b f)) ∧ (
  let off (s : State) (c x : Nat) : Nat := fld (s.amount c (so x)) 23 0;
  let src (s : State) (c x : Nat) : Nat := (s.handleNow c (h x)).base + off s c x;
  let ahead (s : State) (c : Nat) (b : Bundle) (f : ShadowFill) : Prop :=
      f.index = s.next c ∧ f.bundle = b ∧ f.depth = 0 ∧ f.src = src s c (bX b) ∧ s.aheadFresh c f.src f.data = true;
  let good (s : State) (c : Nat) (b : Bundle) : Prop :=
      ok s c (bX b) ∧ off s c (bX b) % 16 = 0 ∧ dst (bX b) + len (bX b) ≤ size ∧
      (s.handleNow c (h (bX b))).wide (off s c (bX b)) (len (bX b)) = true;
    MeetsIf mk .x op (fun s c b => good s c b ∧ ∃ f rest, (s.core c).shadow = f :: rest ∧ ahead s c b f ∧ f.data.length = len (bX b)))
  (fill .filla 1 8192 (fun _ => 0) (fun x => 16 * fld x 24 16) (fun x => 16 * (fld x 33 25 + 1)) (fun x => fld x 15 11) (fun x => fld x 10 5)
    (fun _ _ _ => True)) ∧
  (fill .fillw 2 4096 (fun x => 1 + 2 * fld x 6 5 + fld x 7 7) (fun x => 16 * fld x 26 19) (fun x => 16 * (fld x 34 27 + 1)) (fun x => fld x 18 14)
    (fun x => fld x 13 8) (fun s c x => s.arrayGood c (fld x 6 5) = true)) ∧
  (MeetsIf .fillb .x 3 (fun s c b =>
      let p := fld (bX b) 18 5
      let n := fld (bX b) 25 19 + 1
      p + n ≤ 12288 ∧ 32 * s.cf Reg.SEQ_ENTRY c + 32 + 32 * p + 32 * n ≤ bedSize ∧ s.marks = [])) := by
  refine ⟨⟨shownIf (slotStates.getD 0 (State.reset, 0)).1 (slotStates.getD 0 (State.reset, 0)).2 54832242056246210319908811845964694626613832417612047912752119808#256 ?_ ?_ ?_ ?_, shownIf (slotStates.getD 1 (State.reset, 0)).1 (slotStates.getD 1 (State.reset, 0)).2 1145997934146004187546194137149729676659921766684735807888031744#256 ?_ ?_ ?_ ?_⟩,
    ⟨shownIf (slotStates.getD 0 (State.reset, 0)).1 (slotStates.getD 0 (State.reset, 0)).2 240874798181195827126404004527344049218012945612054809424879943680#256 ?_ ?_ ?_ ?_, shownIf (slotStates.getD 2 (State.reset, 0)).1 (slotStates.getD 2 (State.reset, 0)).2 8152815124704466014037402252959873450914029007850831961858768896#256 ?_ ?_ ?_ ?_⟩,
    shownIf (slotStates.getD 0 (State.reset, 0)).1 (slotStates.getD 0 (State.reset, 0)).2 1002764721874657443580146123137048310312286057569315704235098112#256 ?_ ?_ ?_ ?_⟩
  all_goals repeat' first | decide +kernel | (with_reducible first | refine State.wordFits_of ?_ | refine sidecars_of ?_ | refine apart_of ?_ ?_ ?_ | refine notWaiting_of ?_ | refine reaches_of ?_ | refine plainWord_of ?_ | refine forall_covers ?_ | refine placed_bed ?_ | refine placed_sync ?_ | refine placed_tie ?_ | refine State.branchable_of ?_ | refine ok_of ?_ | refine Sparse.sorted_of_sortedB _ ?_ | exact List.mem_cons_self | unfold vectorOk | refine error_of ?_ | refine ⟨1, 3, by decide +kernel, ?_⟩) | (intro h; exact absurd h (by decide +kernel)) | (intro q h4 h8; revert h4; revert h8; revert q; decide +kernel) | (refine Or.inl (by decide +kernel)) | (refine Or.inr (by decide +kernel)) | apply And.intro | (refine Exists.intro _ ?_) | (with_reducible constructor) | rfl | intro _
end Fills

/-! Moves -/
namespace Moves
def st (seed c : Nat) : State × Nat := let s := (lCore seed c).setS c 20 (48 + 64 * 2 ^ 24); let s := (s.setS c 21 700).setS c 22 0; ({ s with mem := [(0x10000000000 + c * 0x100000 + 5, 3#8)] }.setS c 23 512, c)
def slotStates : List (State × Nat) := [st 5 1, st 9 2]
theorem witness :
  let len (s : State) (c : Nat) (b : Bundle) : Nat := fld (s.amount c (fld (bX b) 26 22)) 23 0
  let so (s : State) (c : Nat) (b : Bundle) : Nat := s.amount c (fld (bX b) 21 17)
  let ready (s : State) (c : Nat) (b : Bundle) : Prop :=
    moveAdmits s c (s.handleNow c (fld (bX b) 10 5)) (s.handleNow c (fld (bX b) 16 11)) (fld (so s c b) 23 0) (fld (so s c b) 47 24)
      (len s c b) (bit (bX b) 27) = true ∧ (s.core c).moves.length < 8
  (MeetsIf .moveCopy .x 4 (fun s c b => ready s c b ∧ len s c b ≠ 0)) ∧
  (MeetsIf .moveCopy .x 4 (fun s c b => ready s c b ∧ len s c b = 0 ∧ (bit (bX b) 28 = true → s.coreAlive (s.home c (fld (bX b) 36 29)).1 = true))) := by
  refine ⟨shownIf (slotStates.getD 0 (State.reset, 0)).1 (slotStates.getD 0 (State.reset, 0)).2 2429699052014194068722383892764504503174680818937622724773675008#256 ?_ ?_ ?_ ?_,
    shownIf (slotStates.getD 0 (State.reset, 0)).1 (slotStates.getD 0 (State.reset, 0)).2 2326847955442166381071839003591568987988541712185648961275559936#256 ?_ ?_ ?_ ?_⟩
  all_goals repeat' first | decide +kernel | (with_reducible first | refine State.wordFits_of ?_ | refine sidecars_of ?_ | refine apart_of ?_ ?_ ?_ | refine notWaiting_of ?_ | refine reaches_of ?_ | refine plainWord_of ?_ | refine forall_covers ?_ | refine placed_bed ?_ | refine placed_sync ?_ | refine placed_tie ?_ | refine State.branchable_of ?_ | refine ok_of ?_ | refine Sparse.sorted_of_sortedB _ ?_ | exact List.mem_cons_self | unfold vectorOk | refine error_of ?_ | refine ⟨1, 3, by decide +kernel, ?_⟩) | (intro h; exact absurd h (by decide +kernel)) | (intro q h4 h8; revert h4; revert h8; revert q; decide +kernel) | (refine Or.inl (by decide +kernel)) | (refine Or.inr (by decide +kernel)) | apply And.intro | (refine Exists.intro _ ?_) | (with_reducible constructor) | rfl | intro _
end Moves

/-! TieUpdates -/
namespace TieUpdates
def bnd (s : State) (c : Nat) : State := setR s [(Reg.SYNC_BOUND, c, 5, 1), (Reg.SYNC_HOME_CORE, c, 5, 3), (Reg.SYNC_HOME_TIE, c, 5, 5), (Reg.SYNC_BOUND, c, 6, 1), (Reg.SYNC_HOME_CORE, c, 6, 900), (Reg.SYNC_HOME_TIE, c, 6, 5)]
def slotStates : List (State × Nat) := [(bnd (lCore 5 1) 1, 1), (bnd (lCore 9 2) 2, 2)]
theorem witness :
  let named (mk : Nat → Bundle → Instr) (op : Nat) (amt : State → Nat → Bundle → Nat) : Prop := (
  let h (s : State) (c : Nat) (b : Bundle) : Handle := s.handleNow c (fld (bY b) 9 4);
    MeetsIf mk .y op (fun s c b => ∃ k, (h s c b).tieCore = some k))
  let loc (mk : Nat → Bundle → Instr) (op : Nat) (dec : Bool) (amt : State → Nat → Bundle → Nat) : Prop := (MeetsIf mk .y op (fun s c b => s.coreAlive (s.home c (fld (bY b) 11 4)).1 = true))
  (named .signal 1 (fun _ _ _ => 1)) ∧
  (named .tieAdd 2 (fun s c b => s.amount c (fld (bY b) 14 10))) ∧
  (loc .tieAddL 3 false (fun _ _ b => fld (bY b) 23 12)) ∧
  (loc .dec 4 true (fun s c b => s.amount c (fld (bY b) 16 12))) := by
  refine ⟨shownIf (slotStates.getD 0 (State.reset, 0)).1 (slotStates.getD 0 (State.reset, 0)).2 1442464986479227831573863975215898319562281775183610790028967562774052864#256 ?_ ?_ ?_ ?_,
    shownIf (slotStates.getD 0 (State.reset, 0)).1 (slotStates.getD 0 (State.reset, 0)).2 1449366732826018395361298731078175345014732884155781176584130086997852160#256 ?_ ?_ ?_ ?_,
    shownIf (slotStates.getD 0 (State.reset, 0)).1 (slotStates.getD 0 (State.reset, 0)).2 66277987799205793343020018152135946196796933292925134868217357310461424435208#256 ?_ ?_ ?_ ?_,
    shownIf (slotStates.getD 0 (State.reset, 0)).1 (slotStates.getD 0 (State.reset, 0)).2 3561301114943930914316334024934945133464772229639919462463862499480436736#256 ?_ ?_ ?_ ?_⟩
  all_goals repeat' first | decide +kernel | (with_reducible first | refine State.wordFits_of ?_ | refine sidecars_of ?_ | refine apart_of ?_ ?_ ?_ | refine notWaiting_of ?_ | refine reaches_of ?_ | refine plainWord_of ?_ | refine forall_covers ?_ | refine placed_bed ?_ | refine placed_sync ?_ | refine placed_tie ?_ | refine State.branchable_of ?_ | refine ok_of ?_ | refine Sparse.sorted_of_sortedB _ ?_ | exact List.mem_cons_self | unfold vectorOk | refine error_of ?_ | refine ⟨1, 3, by decide +kernel, ?_⟩) | (intro h; exact absurd h (by decide +kernel)) | (intro q h4 h8; revert h4; revert h8; revert q; decide +kernel) | (refine Or.inl (by decide +kernel)) | (refine Or.inr (by decide +kernel)) | apply And.intro | (refine Exists.intro _ ?_) | (with_reducible constructor) | rfl | intro _
end TieUpdates

/-! Waits -/
namespace Waits
def bnd (s : State) (c : Nat) : State := setR s [(Reg.SYNC_BOUND, c, 5, 1), (Reg.SYNC_HOME_CORE, c, 5, 3), (Reg.SYNC_HOME_TIE, c, 5, 5)]
def slotStates : List (State × Nat) := [(bnd (lCore 5 1) 1, 1), (bnd (lCore 9 2) 2, 2)]
theorem witness :
  let tie (b : Bundle) : Nat := fld (bY b) 11 4
  let thr (s : State) (c : Nat) (b : Bundle) : Nat := s.amount c (fld (bY b) 16 12)
  let alone (s : State) (c : Nat) (b : Bundle) : Prop := s.coreAlive c = true ∧ s.bound c (tie b) = false ∧
    (∀ u ∈ s.sync.updates, u.home ≠ c) ∧ (∀ q ∈ s.sync.registering, q.home ≠ c) ∧ (∀ x ∈ s.sync.slots, x.req.home = c → x.req.tie ≠ tie b) ∧
    (∀ r ∈ s.sync.results, r.core ≠ c) ∧ s.sync.freed = []
  let wait (mk : Nat → Bundle → Instr) (op : Nat) (take : Bool) : Prop := (MeetsIf mk .y op (fun s c b => s.coreAlive (s.home c (tie b)).1 = true ∧ s.bound c (tie b) = true)) ∧ (∃ i, MeetsIf mk .y op (fun s c b => alone s c b ∧ s.freeSlot c 0 = some i ∧ s.tie c (tie b) < thr s c b)) ∧ (∃ i, MeetsIf mk .y op (fun s c b => alone s c b ∧ s.freeSlot c 0 = some i ∧ thr s c b ≤ s.tie c (tie b)))
  (wait .waitTie 5 false) ∧
  (wait .waitTake 6 true) := by
  refine ⟨⟨shownIf (slotStates.getD 0 (State.reset, 0)).1 (slotStates.getD 0 (State.reset, 0)).2 3986593626579512245461851115924317718870262015614030852379532404675173154816#256 ?_ ?_ ?_ ?_, ⟨(0), shownIf (slotStates.getD 0 (State.reset, 0)).1 (slotStates.getD 0 (State.reset, 0)).2 15707415342553119291835050911477653423240833316512668115818737542500089593880#256 ?_ ?_ ?_ ?_⟩, ⟨(0), shownIf (slotStates.getD 0 (State.reset, 0)).1 (slotStates.getD 0 (State.reset, 0)).2 5435518647639336044740754022627307334256038028795593124224132090122702159872#256 ?_ ?_ ?_ ?_⟩⟩,
    ⟨shownIf (slotStates.getD 0 (State.reset, 0)).1 (slotStates.getD 0 (State.reset, 0)).2 10516867279746767518165506113426006830394094949575290691983544087176919646208#256 ?_ ?_ ?_ ?_, ⟨(0), shownIf (slotStates.getD 0 (State.reset, 0)).1 (slotStates.getD 0 (State.reset, 0)).2 1838004069613795042231749833682994648242254830378695643505331826039990517760#256 ?_ ?_ ?_ ?_⟩, ⟨(0), shownIf (slotStates.getD 0 (State.reset, 0)).1 (slotStates.getD 0 (State.reset, 0)).2 3618544199144211850369317890056670782567401727455100648552380475392628097024#256 ?_ ?_ ?_ ?_⟩⟩⟩
  all_goals repeat' first | decide +kernel | (with_reducible first | refine State.wordFits_of ?_ | refine sidecars_of ?_ | refine apart_of ?_ ?_ ?_ | refine notWaiting_of ?_ | refine reaches_of ?_ | refine plainWord_of ?_ | refine forall_covers ?_ | refine placed_bed ?_ | refine placed_sync ?_ | refine placed_tie ?_ | refine State.branchable_of ?_ | refine ok_of ?_ | refine Sparse.sorted_of_sortedB _ ?_ | exact List.mem_cons_self | unfold vectorOk | refine error_of ?_ | refine ⟨1, 3, by decide +kernel, ?_⟩) | (intro h; exact absurd h (by decide +kernel)) | (intro q h4 h8; revert h4; revert h8; revert q; decide +kernel) | (refine Or.inl (by decide +kernel)) | (refine Or.inr (by decide +kernel)) | apply And.intro | (refine Exists.intro _ ?_) | (with_reducible constructor) | rfl | intro _
end Waits

/-! Arches -/
namespace Arches
def nm (x : State × Nat) : State × Nat := ({ x.1 with mem := [(0x10000000000 + 5, 3#8)] }, x.2)
def few : State :=
  let s : State := { State.reset with boot := { State.reset.boot with plinth := true, pwrgood := true, resetN := true, risen := true, ready := true } }
  setR s [(Reg.BOOT_PHASE, 0, 0, 7), (Reg.DIR_DOM_ON_LO, 0, 0, 1), (Reg.FLOOR_STATE, 0, 1, 2), (Reg.FLOOR_STATE, 0, 2, 2)]
def ars (master : Bool) (others : Nat) (_ : Nat) : State × Nat := nm (setR ((inTask few [1, 2]).mapCore 1 fun k => { k with seq := { k.seq with nextIndex := 100, index := 99, nextCycle := 200, cycle := 199, len := 8000 } })
  [(Reg.PLACE_MASTER, 0, 0, if master then 1 else 0), (Reg.PLACE_DIE_ID, 0, 0, if master then 0 else 2), (Reg.SYNC_ARRIVED, 2, 0, others), (Reg.SYNC_ARRIVED, 1, 0, 0x80),
   (Reg.ARCH_MASK, 0, 0, 6), (Reg.ARCH_MASK, 0, 16, 6), (Reg.ARCH_CROSS, 0, 1, 1), (Reg.ARCH_DIES, 0, 1, 13)], 1)
def ph (x : State × Nat) (l : List (Nat × ArchPhase)) : State × Nat := ({ x.1 with sync := { x.1.sync with arches := l } }, x.2)
def slotStates : List (State × Nat) := [ars false 0 0, ars true 255 0, ars false 255 0, ph (ars true 255 0) [(1, ⟨false, 12, 0, none⟩), (3, ⟨false, 255, 0, none⟩), (5, ⟨false, 2, 0, none⟩)]]
theorem witness :
  let a (b : Bundle) : Nat := fld (bY b) 6 4
  let idle (s : State) (b : Bundle) : Prop := (s.phase (a b)).ready = none
  let ready (s : State) (c : Nat) (b : Bundle) : Prop := idle s b ∧ s.member (a b) c = true ∧ s.arrived c (a b) = false
  let last (s : State) (c : Nat) (b : Bundle) : Prop := ∀ d, d < 1024 → d ≠ c → s.member (a b) d = true → s.arrived d (a b) = true
  (MeetsIf .arrive .y 7 (fun s c b => ready s c b ∧ ¬ last s c b)) ∧
  (MeetsIf .arrive .y 7 (fun s c b => Sparse.sorted s.sync.arches ∧ ready s c b ∧ last s c b ∧ s.cross (a b) = false)) ∧
  (MeetsIf .arrive .y 7 (fun s c b => Sparse.sorted s.sync.arches ∧ ready s c b ∧ last s c b ∧ s.cross (a b) = true ∧ s.isMaster = false)) ∧
  (MeetsIf .arrive .y 7 (fun s c b => Sparse.sorted s.sync.arches ∧ ready s c b ∧ last s c b ∧ s.cross (a b) = true ∧ s.isMaster = true)) ∧
  (MeetsIf .await .y 8 (fun s c b => idle s b ∧ s.arrived c (a b) = false)) ∧
  (MeetsIf .await .y 8 (fun s c b => idle s b ∧ s.arrived c (a b) = true)) := by
  refine ⟨shownIf (slotStates.getD 0 (State.reset, 0)).1 (slotStates.getD 0 (State.reset, 0)).2 158740165976182967110999384832371585406375506359918890768738057147383808#256 ?_ ?_ ?_ ?_,
    shownIf (slotStates.getD 1 (State.reset, 0)).1 (slotStates.getD 1 (State.reset, 0)).2 48312224427533946512043291035939178167157762805192705886137669566595072#256 ?_ ?_ ?_ ?_,
    shownIf (slotStates.getD 2 (State.reset, 0)).1 (slotStates.getD 2 (State.reset, 0)).2 158740165976182967110999384832371585406375506359918890768738057147383808#256 ?_ ?_ ?_ ?_,
    shownIf (slotStates.getD 1 (State.reset, 0)).1 (slotStates.getD 1 (State.reset, 0)).2 158740165976182967110999384832371585406375506359918890768738057147383808#256 ?_ ?_ ?_ ?_,
    shownIf (slotStates.getD 0 (State.reset, 0)).1 (slotStates.getD 0 (State.reset, 0)).2 938637503163516675091126797269675461533350820215172571502103294436704256#256 ?_ ?_ ?_ ?_,
    shownIf (slotStates.getD 0 (State.reset, 0)).1 (slotStates.getD 0 (State.reset, 0)).2 6128750755950020643242063205701998601776584767287303260984321510733774848#256 ?_ ?_ ?_ ?_⟩
  all_goals repeat' first | decide +kernel | (with_reducible first | refine State.wordFits_of ?_ | refine sidecars_of ?_ | refine apart_of ?_ ?_ ?_ | refine notWaiting_of ?_ | refine reaches_of ?_ | refine plainWord_of ?_ | refine forall_covers ?_ | refine placed_bed ?_ | refine placed_sync ?_ | refine placed_tie ?_ | refine State.branchable_of ?_ | refine ok_of ?_ | refine Sparse.sorted_of_sortedB _ ?_ | exact List.mem_cons_self | unfold vectorOk | refine error_of ?_ | refine ⟨1, 3, by decide +kernel, ?_⟩) | (intro h; exact absurd h (by decide +kernel)) | (intro q h4 h8; revert h4; revert h8; revert q; decide +kernel) | (refine Or.inl (by decide +kernel)) | (refine Or.inr (by decide +kernel)) | apply And.intro | (refine Exists.intro _ ?_) | (with_reducible constructor) | rfl | intro _
end Arches

/-! Windows -/
namespace Windows
def wins : State := ({ lCore 5 1 with mem := [] }).mapCore 1 fun k => { k with windows := [(8, 1 + 7 * 2 ^ 8), (9, 1024), (10, 5), (11, 7), (12, 2 ^ 30), (16, 7 * 2 ^ 8), (17, 1024), (18, 5), (19, 7), (20, 2 ^ 30), (24, 2), (25, 1032), (26, 5)] }
def slotStates : List (State × Nat) := [(wins, 1), ({ lCore 5 1 with mem := [] }, 1)]
theorem witness :
  let w (b : Bundle) : Nat := fld (bY b) 8 4
  (MeetsIf .wopen .y 9 (fun s c b => s.windowOpen c (w b) = false ∧ s.winOk c (w b) = true)) ∧
  (MeetsIf .wopen .y 9 (fun s c b => s.windowOpen c (w b) = true)) ∧
  (MeetsIf .wopen .y 9 (fun s c b => s.windowOpen c (w b) = false ∧ s.winOk c (w b) = false)) ∧
  (MeetsIf .wclose .y 10 (fun _ _ _ => True)) := by
  refine ⟨shownIf (slotStates.getD 0 (State.reset, 0)).1 (slotStates.getD 0 (State.reset, 0)).2 614255424864360177081693271742655265268148698523164403409464655918137344#256 ?_ ?_ ?_ ?_,
    shownIf (slotStates.getD 0 (State.reset, 0)).1 (slotStates.getD 0 (State.reset, 0)).2 172543658669764094685868896556925636311277724304259663879063105594982400#256 ?_ ?_ ?_ ?_,
    shownIf (slotStates.getD 0 (State.reset, 0)).1 (slotStates.getD 0 (State.reset, 0)).2 393399541767062135883781084149790450789713211413712033644263880756559872#256 ?_ ?_ ?_ ?_,
    shownIf (slotStates.getD 0 (State.reset, 0)).1 (slotStates.getD 0 (State.reset, 0)).2 1173296878954395843863908496587094326916688525268965714377629118045880320#256 ?_ ?_ ?_ ?_⟩
  all_goals repeat' first | decide +kernel | (with_reducible first | refine State.wordFits_of ?_ | refine sidecars_of ?_ | refine apart_of ?_ ?_ ?_ | refine notWaiting_of ?_ | refine reaches_of ?_ | refine plainWord_of ?_ | refine forall_covers ?_ | refine placed_bed ?_ | refine placed_sync ?_ | refine placed_tie ?_ | refine State.branchable_of ?_ | refine ok_of ?_ | refine Sparse.sorted_of_sortedB _ ?_ | exact List.mem_cons_self | unfold vectorOk | refine error_of ?_ | refine ⟨1, 3, by decide +kernel, ?_⟩) | (intro h; exact absurd h (by decide +kernel)) | (intro q h4 h8; revert h4; revert h8; revert q; decide +kernel) | (refine Or.inl (by decide +kernel)) | (refine Or.inr (by decide +kernel)) | apply And.intro | (refine Exists.intro _ ?_) | (with_reducible constructor) | rfl | intro _
end Windows

/-! Pins -/
namespace Pins
def bt (s : State) (f : Boot → Boot) : State := { s with boot := f s.boot }
def off : State := State.reset
def pl : State := bt off fun b => { b with plinth := true, cause := some 0 }
def some1 (s : State) : State := { inTask s [0, 1] with mem := [(5, 1#8), (0x10000000005, 2#8)], marks := [(8, 1)], detected := [ev 3 4 [] 5 0 false], pending := [.enec], ledger := { s.ledger with steps := 7, fine := 5, slots := [(3, 3)] } }
def states : List State := [off, pl, bt pl fun b => { b with resetN := true }, bt (setDs pl [(Reg.LEDGER_CYCLES, 8191)]) fun b => { b with risen := true }, bt (setDs pl [(Reg.LEDGER_CYCLES, 8192)]) fun b => { b with risen := true, resetN := true }, setDs pl [(Reg.LEDGER_CYCLES, 8191), (Reg.POWER_MARGIN, 50)],
  bt (setDs pl [(Reg.LEDGER_CYCLES, 8192)]) fun b => { b with resetN := true },
  up, fr up, some1 up, setDs (some1 up) [(Reg.BOOT_PHASE, 4)], fr (some1 up), bt (some1 up) fun b => { b with compHeld := true, compResetN := false }, bt (some1 pl) fun b => { b with pwrgood := true, risen := true },
  bt (setDs (some1 up) [(Reg.BOOT_PHASE, 0)]) fun b => { b with resetN := false, cause := some 2 }]
theorem witness :
  let up (s : State) : Prop := s.boot.plinth = true
  (Meets .vddPlinthUp (fun s => s.boot.plinth = false)) ∧
  (Meets .vddPlinthLoss (fun _ => True)) ∧
  (∃ pos, ∃ master, Meets (.pwrgoodRise pos master) (fun s => up s ∧ s.boot.pwrgood = false ∧ s.df Reg.BOOT_PHASE = 0)) ∧
  (Meets .pwrgoodLow (fun s => up s ∧ s.boot.pwrgood = true)) ∧
  (Meets .resetNLow (fun s => up s ∧ s.boot.resetN = true)) ∧
  (Meets .resetNRelease (fun s => up s ∧ s.boot.pwrgood = true ∧ s.df Reg.BOOT_PHASE = 0)) ∧
  (Meets .compResetNLow (fun s => s.frozen = false ∧ s.df Reg.BOOT_PHASE = 7)) ∧
  (Meets .compResetNLow (fun s => s.df Reg.BOOT_PHASE ≠ 0 ∧ (s.frozen = true ∨ s.df Reg.BOOT_PHASE < 7))) ∧
  (Meets .compResetNRelease (fun s => s.boot.compHeld = false)) ∧
  (Meets .compResetNRelease (fun s => s.boot.compHeld = true ∧ s.frozen = false ∧ s.df Reg.BOOT_PHASE = 7)) := by
  refine ⟨shown (states.getD 0 State.reset) ?_ ?_,
    shown (states.getD 0 State.reset) ?_ ?_,
    ⟨(0), (false), shown (states.getD 1 State.reset) ?_ ?_⟩,
    shown (states.getD 7 State.reset) ?_ ?_,
    shown (states.getD 2 State.reset) ?_ ?_,
    shown (states.getD 13 State.reset) ?_ ?_,
    shown (states.getD 7 State.reset) ?_ ?_,
    shown (states.getD 8 State.reset) ?_ ?_,
    shown (states.getD 0 State.reset) ?_ ?_,
    shown (states.getD 12 State.reset) ?_ ?_⟩
  all_goals repeat' first | decide +kernel | (with_reducible first | refine State.wordFits_of ?_ | refine sidecars_of ?_ | refine apart_of ?_ ?_ ?_ | refine notWaiting_of ?_ | refine reaches_of ?_ | refine plainWord_of ?_ | refine forall_covers ?_ | refine placed_bed ?_ | refine placed_sync ?_ | refine placed_tie ?_ | refine State.branchable_of ?_ | refine ok_of ?_ | refine Sparse.sorted_of_sortedB _ ?_ | exact List.mem_cons_self | unfold vectorOk | refine error_of ?_ | refine ⟨1, 3, by decide +kernel, ?_⟩) | (intro h; exact absurd h (by decide +kernel)) | (intro q h4 h8; revert h4; revert h8; revert q; decide +kernel) | (refine Or.inl (by decide +kernel)) | (refine Or.inr (by decide +kernel)) | apply And.intro | (refine Exists.intro _ ?_) | (with_reducible constructor) | rfl | intro _
end Pins

/-! ResetCommands -/
namespace ResetCommands
def some1 (s : State) : State := { inTask s [0, 1] with mem := [(5, 1#8), (0x10000000005, 2#8), (0x10000400007, 3#8)], marks := [(8, 1)], detected := [ev 3 4 [] 5 0 false], pending := [.enec], ledger := { s.ledger with steps := 7, fine := 5, slots := [(3, 3)] } }
def states : List State := [up, fr up, some1 up, setDs up [(Reg.CMD_BUSY, 1)], { some1 up with ops := { up.ops with group := [5, 3, 1] } }, setR (some1 up) [(Reg.CMD_OPS_STATE, 0, 3, 2), (Reg.CMD_OPS_STATE, 0, 1, 2)], setR up [(Reg.CMD_OPS_STATE, 0, 3, 2)], some1 (setR up [(Reg.CMD_OPS_STATE, 0, 2, 2)])]
theorem witness :
  let given (path : Path) (a0 : Nat) (s : State) : Prop := path ≠ .other ∧ a0 < 256 ∧ s.frozen = false ∧ s.df Reg.CMD_BUSY ≠ 1
  (∃ path, ∃ seq, ∃ target, ∃ a0, Meets (.wholeDieReset path seq target a0 0 0 0) (fun s => given path a0 s ∧ s.boot.plinth = true ∧ s.boot.pwrgood = true ∧ s.boot.resetN = true)) ∧
  (∃ path, ∃ seq, ∃ target, ∃ a0, Meets (.computePartReset path seq target a0 0 0 0) (given path a0)) ∧
  (∃ path, ∃ seq, ∃ target, ∃ a0, Meets (.coreGroupReset path seq target a0 0 0 0) (fun s => given path a0 s ∧ s.groupBusy (fld a0 7 2) = false)) ∧
  (∃ path, ∃ seq, ∃ target, ∃ a0, Meets (.coreGroupReset path seq target a0 0 0 0) (fun s => given path a0 s ∧ s.groupBusy (fld a0 7 2) = true)) := by
  refine ⟨⟨(Sys2Proof.Path.sideband), (0), (0), (0), shown (states.getD 0 State.reset) ?_ ?_⟩,
    ⟨(Sys2Proof.Path.sideband), (0), (0), (0), shown (states.getD 0 State.reset) ?_ ?_⟩,
    ⟨(Sys2Proof.Path.sideband), (0), (0), (0), shown (states.getD 0 State.reset) ?_ ?_⟩,
    ⟨(Sys2Proof.Path.sideband), (0), (0), (0), shown (states.getD 2 State.reset) ?_ ?_⟩⟩
  all_goals repeat' first | decide +kernel | (with_reducible first | refine State.wordFits_of ?_ | refine sidecars_of ?_ | refine apart_of ?_ ?_ ?_ | refine notWaiting_of ?_ | refine reaches_of ?_ | refine plainWord_of ?_ | refine forall_covers ?_ | refine placed_bed ?_ | refine placed_sync ?_ | refine placed_tie ?_ | refine State.branchable_of ?_ | refine ok_of ?_ | refine Sparse.sorted_of_sortedB _ ?_ | exact List.mem_cons_self | unfold vectorOk | refine error_of ?_ | refine ⟨1, 3, by decide +kernel, ?_⟩) | (intro h; exact absurd h (by decide +kernel)) | (intro q h4 h8; revert h4; revert h8; revert q; decide +kernel) | (refine Or.inl (by decide +kernel)) | (refine Or.inr (by decide +kernel)) | apply And.intro | (refine Exists.intro _ ?_) | (with_reducible constructor) | rfl | intro _
end ResetCommands

/-! BringUpPhases -/
namespace BringUpPhases
def ph (n : Nat) (l : List (Row × Nat)) : State :=
  let s := setDs { up with boot := { up.boot with ready := false } } ([(Reg.BOOT_PHASE, n)] ++ l)
  s
def sites (s : State) : State := { s with boot := { s.boot with sites := [(0, ⟨15, true, 0⟩), (1, ⟨7, true, 0⟩), (2, ⟨3, true, 0⟩), (3, ⟨15, false, 5⟩)] } }
def states : List State := [ph 1 [], ph 2 [], ph 3 [], sites (ph 3 []), ph 4 [], ph 5 [(Reg.RING_ENUM_STATE, 3)], sites (ph 5 [(Reg.RING_ENUM_STATE, 3)]), ph 6 [], ph 6 [(Reg.MARK_LOCKED, 1)], ph 7 [], sites (ph 7 [(Reg.BOOT_WARM_TAKEN, 1)]), sites (inTask (ph 7 []) [0])]
theorem witness :
  let at_ (n : Nat) (s : State) : Prop := s.frozen = false ∧ s.df Reg.BOOT_PHASE = n ∧ s.boot.ready = false ∧ s.phaseOver = true ∧ s.boot.part = false
  (∃ (r : PhaseResult), Meets (.bootPhase r) (at_ 1)) ∧
  (∃ (r : PhaseResult), Meets (.bootPhase r) (at_ 2)) ∧
  (∃ (r : PhaseResult), Meets (.bootPhase r) (fun s => at_ 3 s ∧ r.pll = true ∧ s.df Reg.BOOT_WARM = 0)) ∧
  (∃ (r : PhaseResult), Meets (.bootPhase r) (fun s => at_ 3 s ∧ r.pll = false ∧ s.df Reg.BOOT_STATUS = 0)) ∧
  (∃ (r : PhaseResult), Meets (.bootPhase r) (at_ 4)) ∧
  (∃ (r : PhaseResult), Meets (.bootPhase r) (fun s => at_ 5 s ∧ s.df Reg.BOOT_STATUS ≠ 5)) ∧
  (∃ (r : PhaseResult), Meets (.bootPhase r) (fun s => at_ 6 s ∧ s.boot.compHeld = false)) ∧
  (∃ (r : PhaseResult), Meets (.bootPhase r) (at_ 7)) := by
  refine ⟨⟨({ ms := 5, puf := true, pll := true }), shown (states.getD 0 State.reset) ?_ ?_⟩,
    ⟨({ ms := 5, puf := true, pll := true }), shown (states.getD 1 State.reset) ?_ ?_⟩,
    ⟨({ ms := 5, puf := true, pll := true }), shown (states.getD 2 State.reset) ?_ ?_⟩,
    ⟨({ ms := 7, puf := true, pll := false }), shown (states.getD 2 State.reset) ?_ ?_⟩,
    ⟨({ ms := 5, puf := true, pll := true }), shown (states.getD 4 State.reset) ?_ ?_⟩,
    ⟨({ ms := 5, puf := true, pll := true }), shown (states.getD 5 State.reset) ?_ ?_⟩,
    ⟨({ ms := 5, puf := true, pll := true }), shown (states.getD 7 State.reset) ?_ ?_⟩,
    ⟨({ ms := 5, puf := true, pll := true }), shown (states.getD 9 State.reset) ?_ ?_⟩⟩
  all_goals repeat' first | decide +kernel | (with_reducible first | refine State.wordFits_of ?_ | refine sidecars_of ?_ | refine apart_of ?_ ?_ ?_ | refine notWaiting_of ?_ | refine reaches_of ?_ | refine plainWord_of ?_ | refine forall_covers ?_ | refine placed_bed ?_ | refine placed_sync ?_ | refine placed_tie ?_ | refine State.branchable_of ?_ | refine ok_of ?_ | refine Sparse.sorted_of_sortedB _ ?_ | exact List.mem_cons_self | unfold vectorOk | refine error_of ?_ | refine ⟨1, 3, by decide +kernel, ?_⟩) | (intro h; exact absurd h (by decide +kernel)) | (intro q h4 h8; revert h4; revert h8; revert q; decide +kernel) | (refine Or.inl (by decide +kernel)) | (refine Or.inr (by decide +kernel)) | apply And.intro | (refine Exists.intro _ ?_) | (with_reducible constructor) | rfl | intro _
end BringUpPhases

/-! Deliveries -/
namespace Deliveries
def stagingM : Sparse Byte := [(0, 81#8), (1, 90#8), (2, 77#8), (3, 78#8), (4, 1#8), (6, 161#8), (7, 1#8), (8, 3#8), (9, 5#8), (10, 3#8), (11, 1#8), (12, 16#8), (17, 16#8), (21, 32#8), (64, 160#8), (65, 36#8), (66, 13#8), (67, 224#8), (68, 28#8), (69, 251#8), (70, 251#8), (71, 86#8), (72, 215#8), (73, 240#8), (74, 74#8), (75, 63#8), (76, 58#8), (77, 76#8), (78, 174#8), (79, 168#8), (80, 63#8), (81, 183#8), (82, 169#8), (83, 48#8), (84, 75#8), (85, 176#8), (86, 86#8), (87, 35#8), (88, 107#8), (89, 242#8), (90, 171#8), (91, 63#8), (92, 8#8), (93, 218#8), (94, 213#8), (95, 40#8), (96, 34#8), (97, 145#8), (98, 93#8), (99, 231#8), (100, 200#8), (101, 136#8), (102, 136#8), (103, 49#8), (104, 133#8), (105, 123#8), (106, 134#8), (107, 232#8), (108, 40#8), (109, 54#8), (110, 94#8), (111, 255#8), (112, 48#8), (113, 12#8), (114, 117#8), (115, 251#8), (116, 223#8), (117, 39#8), (118, 186#8), (119, 155#8), (120, 2#8), (121, 205#8), (122, 40#8), (123, 24#8), (124, 143#8), (125, 169#8), (126, 215#8), (127, 243#8), (352, 172#8), (353, 248#8), (354, 68#8), (355, 148#8), (356, 142#8), (357, 128#8), (358, 118#8), (359, 191#8), (360, 140#8), (361, 147#8), (362, 107#8), (363, 109#8), (364, 44#8), (365, 148#8), (366, 2#8), (367, 225#8), (368, 29#8), (369, 39#8), (370, 17#8), (371, 19#8), (372, 59#8), (373, 176#8), (374, 57#8), (375, 134#8), (376, 205#8), (377, 79#8), (378, 184#8), (379, 163#8), (380, 193#8), (381, 187#8), (382, 168#8), (383, 180#8), (384, 116#8), (385, 254#8), (386, 168#8), (387, 226#8), (388, 44#8), (389, 93#8), (390, 165#8), (391, 186#8), (392, 101#8), (393, 7#8), (394, 35#8), (395, 125#8), (396, 233#8), (397, 133#8), (398, 79#8), (399, 3#8), (400, 147#8), (401, 144#8), (402, 81#8), (403, 131#8), (404, 70#8), (405, 227#8), (406, 73#8), (407, 36#8), (408, 104#8), (409, 148#8), (410, 27#8), (411, 80#8), (412, 155#8), (413, 189#8), (414, 100#8), (415, 185#8), (416, 107#8), (417, 195#8), (418, 75#8), (419, 118#8), (420, 239#8), (421, 44#8), (422, 116#8), (423, 225#8), (424, 159#8), (425, 134#8), (426, 29#8), (427, 68#8), (428, 71#8), (429, 137#8), (430, 29#8), (431, 164#8), (432, 1#8), (433, 169#8), (434, 108#8), (435, 81#8), (436, 128#8), (437, 16#8), (438, 136#8), (439, 71#8), (440, 71#8), (441, 152#8), (442, 95#8), (443, 22#8), (444, 149#8), (445, 201#8), (446, 96#8), (447, 5#8), (448, 197#8), (449, 51#8), (450, 189#8), (451, 228#8), (452, 171#8), (453, 126#8), (454, 6#8), (455, 215#8), (456, 148#8), (457, 89#8), (458, 137#8), (459, 148#8), (460, 175#8), (461, 241#8), (462, 195#8), (463, 178#8), (464, 27#8), (465, 222#8), (466, 182#8), (467, 183#8), (468, 154#8), (469, 143#8), (470, 245#8), (471, 186#8), (472, 62#8), (473, 59#8), (474, 76#8), (475, 170#8), (476, 64#8), (477, 78#8), (478, 99#8), (479, 6#8), (480, 214#8), (481, 199#8), (482, 199#8), (483, 155#8), (484, 39#8), (485, 45#8), (486, 225#8), (487, 252#8), (488, 249#8), (489, 198#8), (490, 170#8), (491, 131#8), (492, 249#8), (493, 28#8), (494, 66#8), (495, 14#8), (496, 53#8), (497, 139#8), (498, 210#8), (499, 195#8), (500, 183#8), (501, 198#8), (502, 48#8), (503, 87#8), (504, 82#8), (505, 17#8), (506, 33#8), (507, 104#8), (508, 97#8), (509, 18#8), (510, 219#8), (511, 95#8), (512, 106#8), (513, 201#8), (514, 214#8), (515, 20#8), (516, 196#8), (517, 227#8), (518, 80#8), (519, 9#8), (520, 253#8), (521, 251#8), (522, 58#8), (523, 217#8), (524, 178#8), (525, 239#8), (526, 221#8), (528, 234#8), (529, 242#8), (530, 118#8), (531, 121#8), (532, 77#8), (533, 156#8), (534, 242#8), (535, 92#8), (536, 11#8), (537, 108#8), (538, 182#8), (539, 48#8), (540, 145#8), (541, 219#8), (542, 181#8), (543, 19#8), (544, 37#8), (545, 169#8), (546, 191#8), (547, 5#8), (548, 220#8), (549, 129#8), (550, 224#8), (551, 105#8), (552, 138#8), (553, 169#8), (554, 94#8), (555, 40#8), (556, 54#8), (557, 155#8), (558, 180#8), (559, 7#8), (560, 114#8), (561, 189#8), (562, 212#8), (563, 56#8), (564, 105#8), (565, 70#8), (566, 66#8), (567, 74#8), (568, 21#8), (569, 33#8), (570, 43#8), (571, 154#8), (572, 154#8), (573, 137#8), (574, 30#8), (575, 73#8), (576, 147#8), (577, 44#8), (578, 226#8), (579, 81#8), (580, 124#8), (581, 253#8), (582, 204#8), (583, 214#8), (584, 147#8), (585, 145#8), (586, 40#8), (587, 162#8), (588, 149#8), (589, 111#8), (590, 35#8), (591, 164#8), (592, 71#8), (593, 150#8), (594, 170#8), (595, 16#8), (596, 201#8), (597, 39#8), (598, 169#8), (599, 246#8), (600, 233#8), (601, 39#8), (602, 85#8), (603, 124#8), (604, 121#8), (605, 245#8), (606, 4#8), (607, 155#8), (608, 104#8), (609, 122#8), (610, 14#8), (611, 80#8), (612, 191#8), (613, 65#8), (614, 200#8), (615, 85#8), (616, 204#8), (617, 173#8), (618, 172#8), (619, 38#8), (620, 199#8), (621, 32#8), (622, 42#8), (623, 255#8), (624, 98#8), (625, 143#8), (626, 162#8), (627, 244#8), (628, 14#8), (629, 111#8), (630, 90#8), (631, 86#8), (632, 59#8), (633, 158#8), (634, 61#8), (635, 16#8), (636, 75#8), (637, 108#8), (638, 178#8), (639, 181#8), (640, 226#8), (641, 103#8), (642, 62#8), (643, 161#8), (644, 85#8), (645, 61#8), (646, 56#8), (647, 199#8), (648, 92#8), (649, 186#8), (650, 240#8), (651, 234#8), (652, 166#8), (653, 175#8), (654, 199#8), (655, 152#8), (656, 174#8), (657, 126#8), (658, 67#8), (659, 151#8), (660, 48#8), (661, 144#8), (662, 165#8), (663, 149#8), (664, 181#8), (665, 82#8), (666, 195#8), (667, 15#8), (668, 125#8), (669, 246#8), (670, 143#8), (671, 128#8), (672, 185#8), (673, 217#8), (674, 148#8), (675, 62#8), (676, 236#8), (677, 147#8), (678, 90#8), (679, 217#8), (680, 93#8), (681, 211#8), (682, 138#8), (683, 70#8), (684, 182#8), (685, 198#8), (686, 79#8), (687, 41#8), (688, 24#8), (689, 29#8), (690, 158#8), (691, 89#8), (692, 186#8), (693, 245#8), (694, 124#8), (695, 149#8), (696, 136#8), (697, 212#8), (698, 169#8), (699, 27#8), (700, 21#8), (701, 37#8), (702, 253#8), (703, 202#8), (704, 119#8), (705, 101#8), (706, 68#8), (707, 177#8), (708, 206#8), (709, 74#8), (710, 222#8), (711, 209#8), (712, 229#8), (713, 11#8), (714, 61#8), (715, 167#8), (716, 244#8), (717, 86#8), (718, 119#8), (719, 156#8), (720, 122#8), (721, 80#8), (722, 196#8), (723, 104#8), (724, 55#8), (725, 170#8), (726, 100#8), (727, 8#8), (728, 125#8), (729, 53#8), (730, 121#8), (731, 113#8), (732, 148#8), (733, 108#8), (734, 85#8), (735, 175#8), (736, 166#8), (737, 24#8), (738, 130#8), (739, 108#8), (740, 217#8), (741, 156#8), (742, 6#8), (743, 247#8), (744, 36#8), (745, 63#8), (746, 133#8), (747, 63#8), (748, 202#8), (749, 93#8), (750, 40#8), (751, 66#8), (752, 4#8), (753, 111#8), (754, 182#8), (755, 191#8), (756, 187#8), (757, 166#8), (758, 217#8), (759, 118#8), (760, 83#8), (761, 57#8), (762, 206#8), (763, 61#8), (764, 11#8), (765, 143#8), (766, 248#8), (767, 220#8), (768, 51#8), (769, 253#8), (770, 89#8), (771, 247#8), (772, 151#8), (773, 103#8), (774, 72#8), (775, 118#8), (776, 86#8), (777, 113#8), (778, 21#8), (779, 185#8), (780, 108#8), (781, 208#8), (782, 50#8), (783, 172#8), (784, 222#8), (785, 131#8), (786, 6#8), (787, 51#8), (788, 145#8), (789, 187#8), (790, 71#8), (791, 82#8), (792, 88#8), (793, 19#8), (794, 219#8), (795, 183#8), (796, 156#8), (797, 199#8), (798, 245#8), (799, 43#8), (800, 48#8), (801, 27#8), (802, 244#8), (803, 62#8), (804, 62#8), (805, 142#8), (806, 231#8), (807, 120#8), (808, 6#8), (809, 149#8), (810, 98#8), (811, 198#8), (812, 230#8), (813, 97#8), (814, 97#8), (815, 237#8), (816, 118#8), (817, 240#8), (818, 219#8), (819, 88#8), (820, 57#8), (821, 109#8), (822, 210#8), (823, 52#8), (824, 50#8), (825, 84#8), (826, 40#8), (827, 166#8), (828, 241#8), (829, 61#8), (830, 36#8), (831, 117#8), (832, 59#8), (833, 205#8), (834, 152#8), (835, 11#8), (836, 212#8), (837, 163#8), (838, 89#8), (839, 97#8), (840, 45#8), (841, 26#8), (842, 110#8), (843, 225#8), (844, 255#8), (845, 225#8), (846, 180#8), (847, 133#8), (848, 62#8), (849, 207#8), (850, 111#8), (851, 137#8), (852, 105#8), (853, 125#8), (854, 211#8), (855, 171#8), (856, 229#8), (857, 250#8), (858, 22#8), (859, 91#8), (860, 207#8), (861, 70#8), (862, 87#8), (863, 42#8), (864, 123#8), (865, 249#8), (866, 63#8), (867, 179#8), (868, 192#8), (869, 62#8), (870, 121#8), (871, 103#8), (872, 106#8), (873, 237#8), (874, 139#8), (875, 240#8), (876, 247#8), (877, 161#8), (878, 108#8), (879, 59#8), (880, 15#8), (881, 229#8), (882, 138#8), (883, 91#8), (884, 174#8), (885, 240#8), (886, 232#8), (887, 164#8), (888, 183#8), (889, 75#8), (890, 33#8), (891, 106#8), (892, 97#8), (893, 255#8), (894, 34#8), (895, 38#8), (896, 164#8), (897, 213#8), (898, 76#8), (899, 238#8), (900, 225#8), (901, 68#8), (902, 40#8), (903, 36#8), (904, 117#8), (905, 162#8), (906, 38#8), (907, 154#8), (908, 81#8), (909, 239#8), (910, 175#8), (911, 67#8), (912, 140#8), (913, 54#8), (914, 201#8), (915, 155#8), (916, 83#8), (917, 16#8), (918, 90#8), (919, 193#8), (920, 72#8), (921, 127#8), (922, 221#8), (923, 11#8), (924, 243#8), (925, 230#8), (926, 108#8), (927, 243#8), (928, 196#8), (929, 74#8), (930, 66#8), (931, 196#8), (932, 154#8), (933, 111#8), (934, 222#8), (935, 31#8), (936, 205#8), (937, 9#8), (938, 139#8), (939, 248#8), (940, 132#8), (941, 215#8), (942, 190#8), (943, 245#8), (944, 172#8), (945, 19#8), (946, 62#8), (947, 74#8), (948, 187#8), (949, 46#8), (950, 112#8), (951, 238#8), (952, 77#8), (953, 8#8), (954, 234#8), (955, 43#8), (956, 48#8), (957, 114#8), (958, 173#8), (959, 207#8), (960, 194#8), (961, 97#8), (962, 62#8), (963, 89#8), (964, 227#8), (965, 251#8), (966, 2#8), (967, 214#8), (968, 127#8), (969, 81#8), (970, 7#8), (971, 30#8), (972, 109#8), (973, 88#8), (974, 209#8), (975, 91#8), (976, 160#8), (977, 107#8), (978, 46#8), (979, 212#8), (980, 132#8), (981, 199#8), (982, 102#8), (983, 177#8), (984, 226#8), (985, 53#8), (986, 137#8), (987, 79#8), (988, 12#8), (989, 63#8), (990, 44#8), (991, 69#8), (992, 86#8), (993, 238#8), (994, 102#8), (995, 175#8), (996, 196#8), (997, 192#8), (998, 107#8), (999, 227#8), (1000, 30#8), (1001, 245#8), (1002, 29#8), (1003, 14#8), (1004, 253#8), (1005, 37#8), (1006, 43#8), (1007, 36#8), (1008, 33#8), (1009, 158#8), (1010, 88#8), (1011, 241#8), (1012, 184#8), (1013, 118#8), (1014, 137#8), (1015, 78#8), (1016, 26#8), (1017, 105#8), (1018, 241#8), (1019, 98#8), (1020, 222#8), (1021, 50#8), (1022, 241#8), (1023, 182#8), (1024, 233#8), (1025, 197#8), (1026, 210#8), (1027, 210#8), (1028, 212#8), (1029, 108#8), (1030, 228#8), (1031, 17#8), (1032, 249#8), (1033, 165#8), (1034, 148#8), (1035, 170#8), (1036, 72#8), (1037, 168#8), (1038, 15#8), (1039, 171#8), (1040, 189#8), (1041, 217#8), (1042, 55#8), (1043, 99#8), (1044, 4#8), (1045, 237#8), (1046, 198#8), (1047, 98#8), (1048, 21#8), (1049, 46#8), (1050, 154#8), (1051, 45#8), (1052, 174#8), (1053, 195#8), (1054, 72#8), (1055, 115#8), (1056, 5#8), (1057, 164#8), (1058, 9#8), (1059, 234#8), (1060, 233#8), (1061, 238#8), (1062, 234#8), (1063, 128#8), (1064, 77#8), (1065, 168#8), (1066, 39#8), (1067, 198#8), (1068, 143#8), (1069, 116#8), (1070, 16#8), (1071, 155#8), (1072, 198#8), (1073, 57#8), (1074, 125#8), (1075, 140#8), (1076, 60#8), (1077, 48#8), (1078, 22#8), (1079, 130#8), (1080, 40#8), (1081, 10#8), (1082, 149#8), (1083, 97#8), (1084, 176#8), (1085, 239#8), (1086, 158#8), (1087, 251#8), (1088, 106#8), (1089, 99#8), (1090, 183#8), (1091, 7#8), (1092, 91#8), (1093, 115#8), (1094, 180#8), (1095, 205#8), (1096, 65#8), (1097, 154#8), (1098, 79#8), (1099, 159#8), (1100, 121#8), (1101, 228#8), (1102, 18#8), (1103, 184#8), (1104, 124#8), (1105, 87#8), (1106, 248#8), (1107, 152#8), (1108, 247#8), (1109, 207#8), (1110, 83#8), (1111, 132#8), (1112, 31#8), (1113, 103#8), (1114, 100#8), (1115, 146#8), (1116, 134#8), (1117, 140#8), (1118, 51#8), (1119, 215#8), (4096, 7#8), (4111, 9#8), (8192, 1#8), (12287, 2#8), (12291, 3#8)]
def rootD : List Nat := [12635701614719259792, 2533286678673767238, 3451731711163372800, 1892649123505577765]
def bt (s : State) (f : Boot → Boot) : State := { s with boot := f s.boot }
def ph2 : State := setR (setDs up [(Reg.BOOT_PHASE, 2), (Reg.MARK_VERIFIED, 0), (Reg.MARK_SVN, 1), (Reg.MARK_REVOKED, 1)]) ((List.range 4).map fun w => (Reg.MARK_ROOT_DIGEST, 0, 4 + w, rootD.getD w 0))
def gd : State := bt ph2 fun b => { b with staging := stagingM }
def bad (i : Nat) (s : State) : State := bt s fun b => { b with staging := Sparse.put 0#8 b.staging i 0x77#8 }
def states : List State := [up, fr up, ph2, gd, bad 0 gd, bad 0x300 gd, bad 0x1001 gd, bad 0x2001 gd, setDs gd [(Reg.MARK_SVN, 9)], setDs gd [(Reg.MARK_REVOKED, 2)], bad 4 (setDs gd [(Reg.BOOT_STATUS, 3)]),
 setDs up [(Reg.BOOT_ENUM_WAIT, 1)], { ph2 with ring := { ph2.ring with placed := true } }, { gd with ring := { ph2.ring with placed := true } }]
/-- The values of `n` keys from `x` on, in one pass. -/
def walk {α : Type} (d : α) : Sparse α → Nat → Nat → List α
  | [], _, n => List.replicate n d
  | (k, v) :: r, x, n =>
    if k < x then walk d r x n
    else if x + n ≤ k then List.replicate n d
    else List.replicate (k - x) d ++ v :: walk d r (k + 1) (n - (k - x) - 1)
theorem walk_length {α : Type} (d : α) (m : Sparse α) (x n : Nat) : (walk d m x n).length = n := by
  induction m generalizing x n with
  | nil => simp [walk]
  | cons y r ih =>
    obtain ⟨k, v⟩ := y
    unfold walk
    split
    · exact ih x n
    · split
      · simp
      · simp [ih]; omega
theorem walk_getElem {α : Type} (d : α) (m : Sparse α) (h : m.sorted) (x n i : Nat) (hi : i < n) :
    (walk d m x n)[i]? = some (Sparse.get d m (x + i)) := by
  induction m generalizing x n i with
  | nil => simp [walk, hi, Sparse.get]
  | cons y r ih =>
    obtain ⟨k, v⟩ := y
    have hr : Sparse.sorted r := (List.pairwise_cons.mp h).2
    have hk : ∀ z ∈ r, k < z.1 := (List.pairwise_cons.mp h).1
    unfold walk
    split
    · rw [ih hr x n i hi]; simp only [Sparse.get]; rw [if_neg (by omega)]
    · split
      · simp only [Sparse.get]; rw [if_neg (by omega), Sparse.get_eq_of_lt d r _ fun z hz => by have := hk z hz; omega]; simp [hi]
      · rcases Nat.lt_trichotomy i (k - x) with c | c | c
        · rw [List.getElem?_append_left (by simpa using c)]
          simp only [Sparse.get]; rw [if_neg (by omega), Sparse.get_eq_of_lt d r _ fun z hz => by have := hk z hz; omega]; simp [c]
        · rw [List.getElem?_append_right (by simp; omega)]
          simp [c, Sparse.get]; omega
        · rw [List.getElem?_append_right (by simp; omega)]
          obtain ⟨j, rfl⟩ : ∃ j, i = k - x + 1 + j := ⟨i - (k - x) - 1, by omega⟩
          have e : k - x + 1 + j - (List.replicate (k - x) d).length = j + 1 := by simp; omega
          rw [e, List.getElem?_cons_succ, ih hr _ _ j (by omega)]
          simp only [Sparse.get]; rw [if_neg (by omega)]
          congr 2; omega
theorem staged_walk (s : State) (h : Sparse.sorted s.boot.staging) (x n : Nat) : s.staged x n = walk 0#8 s.boot.staging x n := by
  refine List.ext_getElem? fun i => ?_
  rcases Nat.lt_or_ge i n with c | c
  · rw [walk_getElem _ _ h _ _ _ c]; simp [State.staged, c]
  · rw [List.getElem?_eq_none (by simpa [State.staged] using c), List.getElem?_eq_none (by rw [walk_length]; exact c)]
theorem gd_sorted : Sparse.sorted gd.boot.staging := Sparse.sorted_of_sortedB _ (by decide +kernel)
theorem gd_walk (x n : Nat) : gd.staged x n = walk 0#8 stagingM x n := staged_walk gd gd_sorted x n
theorem gd_format : gd.manifestFormat = true := by
  unfold State.manifestFormat
  simp only [State.stagedNum, gd_walk]
  decide +kernel
theorem gd_key : sha256 (gd.staged 0x160 384) = gd.rootDigest 1 := by
  rw [gd_walk]; decide +kernel
theorem gd_signature : rsaVerify (gd.staged 0x160 384) (gd.staged 0x2E0 384) (gd.staged 0 0x2E0) = true := by
  simp only [gd_walk]; decide +kernel
theorem gd_segment : sha256 (gd.staged 0x2000 4096) = gd.staged 0x60 32 := by
  simp only [gd_walk]; decide +kernel
theorem gd_firmware : sha256 (gd.staged 0x1000 16) = gd.staged 0x40 32 := by
  simp only [gd_walk]; decide +kernel
theorem gd_num (x n v : Nat) (h : ofBytes (walk 0#8 stagingM x n) = v) : gd.stagedNum x n = v := by rw [State.stagedNum, gd_walk, h]
theorem gd_check : gd.manifestCheck = none := by
  unfold State.manifestCheck
  have n7 : gd.stagedNum 7 1 = 1 := gd_num _ _ _ (by decide +kernel)
  have n8 : gd.stagedNum 8 1 = 3 := gd_num _ _ _ (by decide +kernel)
  have nB : gd.stagedNum 0xB 1 = 1 := gd_num _ _ _ (by decide +kernel)
  have nC : gd.stagedNum 0xC 4 = 16 := gd_num _ _ _ (by decide +kernel)
  have n10 : gd.stagedNum 0x10 4 = 0x1000 := gd_num _ _ _ (by decide +kernel)
  have n14 : gd.stagedNum 0x14 4 = 0x2000 := gd_num _ _ _ (by decide +kernel)
  have e : (List.range 1).any (fun k => decide (sha256 (gd.staged (0x2000 + 4096 * k) 4096) ≠ gd.staged (0x60 + 32 * k) 32)) = false := by
    simp [List.range_succ, gd_segment]
  simp only [n7, n8, nB, nC, n10, n14]
  rw [if_neg (by simp [gd_format]), if_neg (by decide +kernel), if_neg (by simp [gd_key, gd_signature]), if_neg (by decide +kernel),
    if_neg (by rw [e]; simp [gd_firmware])]
theorem witness :
  let taken (path : Path) (s : State) : Prop := s.frozen = false ∧ (path = .sideband ∨ path = .trowel ∨ (path = .hub ∧ s.ring.placed = true))
  let warm (s : State) : Prop := s.df Reg.BOOT_WARM < 2
  (∃ path, ∃ off, ∃ data, (off + data.length ≤ 0x400000) ∧ Meets (.stageWrite path off data) (fun s => taken path s ∧ s.df Reg.BOOT_PHASE = 2)) ∧
  (∃ path, ∃ off, ∃ data, Meets (.stageWrite path off data) (fun s => taken path s ∧ s.df Reg.BOOT_PHASE ≠ 2)) ∧
  (∃ path, Meets (.delivered path) (fun s => taken path s ∧ warm s ∧ s.df Reg.BOOT_PHASE = 2 ∧ s.df Reg.MARK_VERIFIED = 0 ∧ s.manifestCheck = none)) ∧
  (∃ path, ∃ k, Meets (.delivered path) (fun s => taken path s ∧ warm s ∧ s.df Reg.BOOT_PHASE = 2 ∧ s.df Reg.MARK_VERIFIED = 0 ∧ s.manifestCheck = some k ∧ s.df Reg.BOOT_STATUS = 0)) ∧
  (∃ path, Meets (.enumGo path) (fun s => taken path s ∧ warm s ∧ s.df Reg.BOOT_ENUM_WAIT = 0)) ∧
  (∃ path, Meets (.enumGo path) (fun s => taken path s ∧ warm s ∧ s.df Reg.BOOT_ENUM_WAIT = 1 ∧ s.df Reg.PLACE_MASTER = 0)) := by
  refine ⟨⟨(Sys2Proof.Path.sideband), (0), ([]), ?_, shown (states.getD 2 State.reset) ?_ ?_⟩,
    ⟨(Sys2Proof.Path.sideband), (0), ([]), shown (states.getD 0 State.reset) ?_ ?_⟩,
    ⟨(Sys2Proof.Path.sideband), shown (states.getD 3 State.reset) ?_ ?_⟩,
    ⟨(Sys2Proof.Path.sideband), (1), shown (states.getD 2 State.reset) ?_ ?_⟩,
    ⟨(Sys2Proof.Path.sideband), shown (states.getD 0 State.reset) ?_ ?_⟩,
    ⟨(Sys2Proof.Path.sideband), shown (states.getD 11 State.reset) ?_ ?_⟩⟩
  all_goals repeat' first | (refine ⟨?_, ?_, ?_, ?_, gd_check⟩) | decide +kernel | (with_reducible first | refine State.wordFits_of ?_ | refine sidecars_of ?_ | refine apart_of ?_ ?_ ?_ | refine notWaiting_of ?_ | refine reaches_of ?_ | refine plainWord_of ?_ | refine forall_covers ?_ | refine placed_bed ?_ | refine placed_sync ?_ | refine placed_tie ?_ | refine State.branchable_of ?_ | refine ok_of ?_ | refine Sparse.sorted_of_sortedB _ ?_ | exact List.mem_cons_self | unfold vectorOk | refine error_of ?_ | refine ⟨1, 3, by decide +kernel, ?_⟩) | (intro h; exact absurd h (by decide +kernel)) | (intro q h4 h8; revert h4; revert h8; revert q; decide +kernel) | (refine Or.inl (by decide +kernel)) | (refine Or.inr (by decide +kernel)) | apply And.intro | (refine Exists.intro _ ?_) | (with_reducible constructor) | rfl | intro _
end Deliveries

/-! Enumeration -/
namespace Enumeration
def rg (s : State) (f : Ring → Ring) : State := { s with ring := f s.ring }
def en : State := rg (setDs (setR (ports up [0, 1, 2, 4, 5]) [(Reg.LINK_STATE, 3, 0, 6), (Reg.LINK_STATE, 6, 0, 6), (Reg.LINK_STATE, 7, 0, 6)]) [(Reg.BOOT_PHASE, 5), (Reg.PLACE_POS_STRAP, 2)]) fun r => { r with placed := true }
def ma : State := setDs en [(Reg.PLACE_MASTER, 1), (Reg.PLACE_POS_STRAP, 0)]
def st (s : State) (x : Nat) : State := setDs s [(Reg.RING_ENUM_STATE, x)]
def qs : State := rg (st en 2) fun r => { r with queries := [4, 5] }
def states : List State := [qs, rg qs fun r => { r with reported := [(5, 8)] }, rg qs fun r => { r with queries := [4], reported := [(5, 8)] }, rg (st ma 2) fun r => { r with tokens := 1, mine := some (15, 0x4321) }, en, ma, setDs ma [(Reg.PLACE_POS_STRAP, 1)], st en 1, st en 2, st en 5, st ma 2, st ma 1, rg (st ma 2) (fun r => { r with tokens := 1 }), rg (st ma 2) (fun r => { r with tokens := 4 }), rg (st en 2) (fun r => { r with seen := true }),
  setDs (st en 2) [(Reg.PLACE_VALID, 1), (Reg.PLACE_DIE_ID, 2)], setDs (st en 3) [(Reg.PLACE_VALID, 1), (Reg.PLACE_DIE_ID, 2), (Reg.PLACE_RING_SIZE, 4)], setDs (st (ports en [3]) 3) [(Reg.PLACE_VALID, 1), (Reg.PLACE_DIE_ID, 2), (Reg.PLACE_RING_SIZE, 4)], setDs (st en 2) [(Reg.PLACE_ROLE, 2 ^ 16 * 0 + 3 * 2 ^ 10), (Reg.PLACE_PEER, 9 * 2 ^ 20)],
  setDs (st (ports en [0,2,3]) 2) [(Reg.LINK_STATE, 5)], setR (st en 2) [(Reg.LINK_STATE, 0, 0, 6)] ]
theorem witness :
  let enum (sub : Nat) (p : Packet) : Packet := asSub 5 sub (asType 7 p)
  let tok (p : Packet) (sub : Nat) : Token := Token.ofPayload (enum sub p).payload
  let asked (s : State) (port : Nat) (p : Packet) : Prop :=
    s.frozen = false ∧ s.portActive port = true ∧ port ∈ s.ring.queries ∧ s.hears port (enum 4 p)
  let starts (s : State) : Prop := s.frozen = false ∧ s.df Reg.BOOT_PHASE = 5 ∧ s.trained = true ∧ s.ring.placed = true ∧ s.df Reg.RING_ENUM_STATE = 0
  (Meets .enumerationStart (fun s => starts s ∧ (s.df Reg.PLACE_MASTER ≠ 1 ∨ s.df Reg.PLACE_POS_STRAP = 0) ∧ s.boot.goHeld = false)) ∧
  (Meets .enumerationStart (fun s => starts s ∧ s.df Reg.PLACE_MASTER = 1 ∧ s.df Reg.PLACE_POS_STRAP ≠ 0)) ∧
  (∃ port, (4 ≤ port) ∧ (port < 8) ∧ Meets (.hubQueryTimeout port) (fun s => s.frozen = false ∧ port ∈ s.ring.queries)) ∧
  (∃ port, (4 ≤ port) ∧ (port < 8) ∧ Meets (.hubQueryTimeout port) (fun s => s.frozen = false ∧ port ∉ s.ring.queries)) ∧
  (∃ port, (4 ≤ port) ∧ (port < 8) ∧ ∃ p,
  let id := fld (ofBytes (enum 4 p).payload) 23 16;
    Meets (.hubReply port p) (fun s => asked s port p ∧ 8 ≤ id ∧ id < 16 ∧ enumPkg (enum 4 p) = s.df Reg.PLACE_PACKAGE_ID ∧
          ∀ x ∈ s.ring.reported, x.1 ≠ port → x.2 ≠ id)) ∧
  (∃ port, (4 ≤ port) ∧ (port < 8) ∧ ∃ p,
  let id := fld (ofBytes (enum 4 p).payload) 23 16;
    ∃ q, (4 ≤ q) ∧ (q < 8) ∧ (q ≠ port) ∧ Meets (.hubReply port p) (fun s => asked s port p ∧ 8 ≤ id ∧ id < 16 ∧ enumPkg (enum 4 p) = s.df Reg.PLACE_PACKAGE_ID ∧ s.ring.reported = [(q, id)] ∧
          s.portActive q = true)) ∧
  (∃ port, (4 ≤ port) ∧ (port < 8) ∧ ∃ p, Meets (.hubReply port p) (fun s => s.frozen = false ∧ s.portActive port = true ∧ port ∉ s.ring.queries ∧ s.hears port (enum 4 p))) ∧
  (∃ port, (4 ≤ port) ∧ (port < 8) ∧ ∃ p,
  let id := fld (ofBytes (enum 4 p).payload) 23 16;
    Meets (.hubReply port p) (fun s => asked s port p ∧
          (id < 8 ∨ 16 ≤ id ∨ enumPkg (enum 4 p) ≠ s.df Reg.PLACE_PACKAGE_ID))) ∧
  (∃ port, ∃ p, (port < 4) ∧ Meets (.token port p) (fun s => s.frozen = false ∧ s.hears port (enum 0 p) ∧ s.df Reg.PLACE_MASTER = 0 ∧
        (s.df Reg.RING_ENUM_STATE = 1 ∨ s.df Reg.RING_ENUM_STATE = 2 ∨ s.df Reg.RING_ENUM_STATE = 5) ∧
        (tok p 0).pkg = s.df Reg.PLACE_PACKAGE_ID ∧ (tok p 0).next = s.df Reg.PLACE_POS_STRAP ∧ (tok p 0).next < 8 ∧ s.portActive 0 = true)) ∧
  (∃ port, ∃ p, (port < 4) ∧ Meets (.token port p) (fun s => s.frozen = false ∧ s.hears port (enum 0 p) ∧ s.df Reg.PLACE_MASTER = 0 ∧
        (s.df Reg.RING_ENUM_STATE = 1 ∨ s.df Reg.RING_ENUM_STATE = 2) ∧ (tok p 0).next ≠ s.df Reg.PLACE_POS_STRAP)) ∧
  (∃ port, ∃ p, (port < 4) ∧ Meets (.token port p) (fun s => s.frozen = false ∧ s.hears port (enum 0 p) ∧ s.df Reg.PLACE_MASTER = 1 ∧ s.df Reg.RING_ENUM_STATE = 2 ∧
        s.ownToken port (tok p 0) = true ∧ (s.portActive 0 = true ∨ s.portActive 1 = true))) ∧
  (∃ port, ∃ p, (port < 4) ∧ Meets (.token port p) (fun s => s.frozen = false ∧ s.hears port (enum 0 p) ∧ s.df Reg.PLACE_MASTER = 1 ∧ s.df Reg.RING_ENUM_STATE ≠ 3 ∧
        s.ownToken port (tok p 0) = false)) ∧
  (∃ port, ∃ p, (port < 4) ∧ Meets (.enumDone port p) (fun s => s.frozen = false ∧ s.hears port (enum 1 p) ∧ s.df Reg.PLACE_MASTER = 0 ∧ s.df Reg.PLACE_VALID = 1 ∧ s.df Reg.RING_ENUM_STATE = 2)) ∧
  (∃ port, ∃ p, (port = 2 ∨ port = 3) ∧
  let sender := fld (ofBytes (enum 2 p).payload) 23 16;
    Meets (.hello port p) (fun s => s.frozen = false ∧ s.hears port (enum 2 p) ∧ s.portActive port = true ∧ s.df Reg.RING_ENUM_STATE = 3 ∧
        sender = ringPeer (max 1 s.ringSize) s.dieId port)) ∧
  (∃ port, ∃ p, (port = 2 ∨ port = 3) ∧
  let sender := fld (ofBytes (enum 2 p).payload) 23 16;
    Meets (.hello port p) (fun s => s.frozen = false ∧ s.hears port (enum 2 p) ∧ s.portActive port = true ∧ s.df Reg.RING_ENUM_STATE = 3 ∧
        sender ≠ ringPeer (max 1 s.ringSize) s.dieId port)) ∧
  (Meets .tokenReturnTimeout (fun s => s.frozen = false ∧ s.df Reg.RING_ENUM_STATE = 2 ∧ s.df Reg.PLACE_MASTER = 1 ∧ s.ring.tokens < 4)) ∧
  (Meets .tokenReturnTimeout (fun s => s.frozen = false ∧
      ((s.df Reg.RING_ENUM_STATE = 2 ∧ s.df Reg.PLACE_MASTER = 1 ∧ 4 ≤ s.ring.tokens) ∨
       ((s.df Reg.RING_ENUM_STATE = 2 ∨ s.df Reg.RING_ENUM_STATE = 5) ∧ s.df Reg.PLACE_MASTER = 0 ∧ s.ring.seen = true)))) ∧
  (Meets .tokenWaitTimeout (fun s => s.frozen = false ∧ s.df Reg.RING_ENUM_STATE = 2 ∧ s.df Reg.PLACE_MASTER = 0 ∧ s.ring.seen = false)) := by
  refine ⟨shown (states.getD 4 State.reset) ?_ ?_,
    shown (states.getD 6 State.reset) ?_ ?_,
    ⟨(4), ?_, ?_, shown (states.getD 0 State.reset) ?_ ?_⟩,
    ⟨(4), ?_, ?_, shown (states.getD 3 State.reset) ?_ ?_⟩,
    ⟨(4), ?_, ?_, ({ w0 := 0x00020007c0020009#64,   w1 := 0x0000000400030009#64,   w2 := 0x0000000000000000#64,   w3 := 0x000000000000004d#64,   payload := [0x09#8,               0x00#8,               0x08#8,               0x00#8,               0x04#8,               0xff#8,               0xff#8,               0x01#8,               0x00#8,               0x21#8,               0x43#8,               0x65#8,               0x87#8,               0x09#8,               0x00#8,               0x00#8,               0x00#8,               0x00#8,               0x00#8,               0x00#8,               0x00#8,               0x00#8,               0x00#8,               0x00#8,               0x00#8,               0x00#8,               0x00#8,               0x00#8,               0x00#8,               0x00#8,               0x00#8,               0x00#8] }), shown (states.getD 0 State.reset) ?_ ?_⟩,
    ⟨(4), ?_, ?_, ({ w0 := 0x00020007c0020009#64,   w1 := 0x0000000400030009#64,   w2 := 0x0000000000000000#64,   w3 := 0x000000000000004d#64,   payload := [0x09#8,               0x00#8,               0x08#8,               0x00#8,               0x04#8,               0xff#8,               0xff#8,               0x01#8,               0x00#8,               0x21#8,               0x43#8,               0x65#8,               0x87#8,               0x09#8,               0x00#8,               0x00#8,               0x00#8,               0x00#8,               0x00#8,               0x00#8,               0x00#8,               0x00#8,               0x00#8,               0x00#8,               0x00#8,               0x00#8,               0x00#8,               0x00#8,               0x00#8,               0x00#8,               0x00#8,               0x00#8] }), (5), ?_, ?_, ?_, shown (states.getD 1 State.reset) ?_ ?_⟩,
    ⟨(4), ?_, ?_, ({ w0 := 0x00020007c0020009#64,   w1 := 0x0000000400030009#64,   w2 := 0x0000000000000000#64,   w3 := 0x000000000000004d#64,   payload := [0x09#8,               0x00#8,               0x02#8,               0x00#8,               0x04#8,               0xff#8,               0xff#8,               0x00#8,               0x00#8,               0x21#8,               0x43#8,               0x65#8,               0x87#8,               0x09#8,               0x00#8,               0x00#8,               0x00#8,               0x00#8,               0x00#8,               0x00#8,               0x00#8,               0x00#8,               0x00#8,               0x00#8,               0x00#8,               0x00#8,               0x00#8,               0x00#8,               0x00#8,               0x00#8,               0x00#8,               0x00#8] }), shown (states.getD 3 State.reset) ?_ ?_⟩,
    ⟨(4), ?_, ?_, ({ w0 := 0x00020007c0020009#64,   w1 := 0x0000000400030009#64,   w2 := 0x0000000000000000#64,   w3 := 0x000000000000004d#64,   payload := [0x09#8,               0x00#8,               0x02#8,               0x00#8,               0x04#8,               0xff#8,               0xff#8,               0x00#8,               0x00#8,               0x21#8,               0x43#8,               0x65#8,               0x87#8,               0x09#8,               0x00#8,               0x00#8,               0x00#8,               0x00#8,               0x00#8,               0x00#8,               0x00#8,               0x00#8,               0x00#8,               0x00#8,               0x00#8,               0x00#8,               0x00#8,               0x00#8,               0x00#8,               0x00#8,               0x00#8,               0x00#8] }), shown (states.getD 0 State.reset) ?_ ?_⟩,
    ⟨(0), ({ w0 := 0x00020007c0020009#64,   w1 := 0x0000000400030009#64,   w2 := 0x0000000000000000#64,   w3 := 0x000000000000004d#64,   payload := [0x09#8,               0x00#8,               0x02#8,               0x00#8,               0x04#8,               0xff#8,               0xff#8,               0x00#8,               0x00#8,               0x21#8,               0x43#8,               0x65#8,               0x87#8,               0x09#8,               0x00#8,               0x00#8,               0x00#8,               0x00#8,               0x00#8,               0x00#8,               0x00#8,               0x00#8,               0x00#8,               0x00#8,               0x00#8,               0x00#8,               0x00#8,               0x00#8,               0x00#8,               0x00#8,               0x00#8,               0x00#8] }), ?_, shown (states.getD 0 State.reset) ?_ ?_⟩,
    ⟨(0), ({ w0 := 0x00020007c0020009#64,   w1 := 0x0000000400030009#64,   w2 := 0x0000000000000000#64,   w3 := 0x000000000000004d#64,   payload := [0x09#8,               0x00#8,               0x04#8,               0x00#8,               0x00#8,               0xff#8,               0xff#8,               0x00#8,               0x00#8,               0x21#8,               0x43#8,               0x65#8,               0x87#8,               0x09#8,               0x00#8,               0x00#8,               0x00#8,               0x00#8,               0x00#8,               0x00#8,               0x00#8,               0x00#8,               0x00#8,               0x00#8,               0x00#8,               0x00#8,               0x00#8,               0x00#8,               0x00#8,               0x00#8,               0x00#8,               0x00#8] }), ?_, shown (states.getD 0 State.reset) ?_ ?_⟩,
    ⟨(1), ({ w0 := 0x00020007c0020009#64,   w1 := 0x0000000400030009#64,   w2 := 0x0000000000000000#64,   w3 := 0x000000000000004d#64,   payload := [0x09#8,               0x00#8,               0x02#8,               0x00#8,               0x04#8,               0xff#8,               0xff#8,               0x00#8,               0x00#8,               0x21#8,               0x43#8,               0x65#8,               0x87#8,               0x09#8,               0x00#8,               0x00#8,               0x00#8,               0x00#8,               0x00#8,               0x00#8,               0x00#8,               0x00#8,               0x00#8,               0x00#8,               0x00#8,               0x00#8,               0x00#8,               0x00#8,               0x00#8,               0x00#8,               0x00#8,               0x00#8] }), ?_, shown (states.getD 3 State.reset) ?_ ?_⟩,
    ⟨(0), ({ w0 := 0x00020007c0020009#64,   w1 := 0x0000000400030009#64,   w2 := 0x0000000000000000#64,   w3 := 0x000000000000004d#64,   payload := [0x09#8,               0x00#8,               0x02#8,               0x00#8,               0x04#8,               0xff#8,               0xff#8,               0x00#8,               0x00#8,               0x21#8,               0x43#8,               0x65#8,               0x87#8,               0x09#8,               0x00#8,               0x00#8,               0x00#8,               0x00#8,               0x00#8,               0x00#8,               0x00#8,               0x00#8,               0x00#8,               0x00#8,               0x00#8,               0x00#8,               0x00#8,               0x00#8,               0x00#8,               0x00#8,               0x00#8,               0x00#8] }), ?_, shown (states.getD 3 State.reset) ?_ ?_⟩,
    ⟨(0), ({ w0 := 0x00020007c0020009#64,   w1 := 0x0000000400030009#64,   w2 := 0x0000000000000000#64,   w3 := 0x000000000000004d#64,   payload := [0x09#8,               0x00#8,               0x02#8,               0x00#8,               0x04#8,               0xff#8,               0xff#8,               0x00#8,               0x00#8,               0x21#8,               0x43#8,               0x65#8,               0x87#8,               0x09#8,               0x00#8,               0x00#8,               0x00#8,               0x00#8,               0x00#8,               0x00#8,               0x00#8,               0x00#8,               0x00#8,               0x00#8,               0x00#8,               0x00#8,               0x00#8,               0x00#8,               0x00#8,               0x00#8,               0x00#8,               0x00#8] }), ?_, shown (states.getD 15 State.reset) ?_ ?_⟩,
    ⟨(2), ({ w0 := 0x00020007c0020009#64,   w1 := 0x0000000400030009#64,   w2 := 0x0000000000000000#64,   w3 := 0x000000000000004d#64,   payload := [0x09#8,               0x00#8,               0x00#8,               0x00#8,               0x04#8,               0x00#8,               0x00#8,               0x00#8,               0x00#8,               0x21#8,               0x43#8,               0x65#8,               0x87#8,               0x09#8,               0x00#8,               0x00#8,               0x00#8,               0x00#8,               0x00#8,               0x00#8,               0x00#8,               0x00#8,               0x00#8,               0x00#8,               0x00#8,               0x00#8,               0x00#8,               0x00#8,               0x00#8,               0x00#8,               0x00#8,               0x00#8] }), ?_, shown (states.getD 16 State.reset) ?_ ?_⟩,
    ⟨(2), ({ w0 := 0x00020007c0020009#64,   w1 := 0x0000000400030009#64,   w2 := 0x0000000000000000#64,   w3 := 0x000000000000004d#64,   payload := [0x09#8,               0x00#8,               0x02#8,               0x00#8,               0x04#8,               0xff#8,               0xff#8,               0x00#8,               0x00#8,               0x21#8,               0x43#8,               0x65#8,               0x87#8,               0x09#8,               0x00#8,               0x00#8,               0x00#8,               0x00#8,               0x00#8,               0x00#8,               0x00#8,               0x00#8,               0x00#8,               0x00#8,               0x00#8,               0x00#8,               0x00#8,               0x00#8,               0x00#8,               0x00#8,               0x00#8,               0x00#8] }), ?_, shown (states.getD 16 State.reset) ?_ ?_⟩,
    shown (states.getD 3 State.reset) ?_ ?_,
    shown (states.getD 13 State.reset) ?_ ?_,
    shown (states.getD 0 State.reset) ?_ ?_⟩
  all_goals repeat' first | decide +kernel | (with_reducible first | refine State.wordFits_of ?_ | refine sidecars_of ?_ | refine apart_of ?_ ?_ ?_ | refine notWaiting_of ?_ | refine reaches_of ?_ | refine plainWord_of ?_ | refine forall_covers ?_ | refine placed_bed ?_ | refine placed_sync ?_ | refine placed_tie ?_ | refine State.branchable_of ?_ | refine ok_of ?_ | refine Sparse.sorted_of_sortedB _ ?_ | exact List.mem_cons_self | unfold vectorOk | refine error_of ?_ | refine ⟨1, 3, by decide +kernel, ?_⟩) | (intro h; exact absurd h (by decide +kernel)) | (intro q h4 h8; revert h4; revert h8; revert q; decide +kernel) | (refine Or.inl (by decide +kernel)) | (refine Or.inr (by decide +kernel)) | apply And.intro | (refine Exists.intro _ ?_) | (with_reducible constructor) | rfl | intro _
end Enumeration

/-! TickAlignment -/
namespace TickAlignment
def rg (s : State) (f : Ring → Ring) : State := { s with ring := f s.ring }
def al0 : State := rg (setDs (ports up [0, 1, 2]) [(Reg.RING_ALIGNED, 1)]) fun r => { r with base := 100, refs := 30 }
def states : List State := [up, fr al0, al0, rg al0 (fun r => { r with align := some (9 * 2 ^ 24 + 3) }), rg (inTask al0 [0, 1]) (fun r => { r with align := some 1 }), rg (setDs (ports up [0, 1]) [(Reg.PLACE_MASTER, 1)]) (fun r => { r with go := true }),
 setDs up [(Reg.PLACE_MASTER, 1)], inTask (setDs up [(Reg.PLACE_MASTER, 1)]) [0], inTask al0 [0, 1], rg al0 (fun r => { r with aligns := [77] }), setDs al0 [(Reg.LINK_STATE, 3)]]
theorem witness :
  let al (p : Packet) : Packet := asSub 1 0 (asType 6 p)
  (∃ refs, Meets (.syncTickEdge refs) (fun s => s.frozen = true)) ∧
  (∃ refs, ∃ v, (v < 2 ^ 64) ∧ Meets (.syncTickEdge refs) (fun s => s.frozen = false ∧ s.ring.align = some v ∧ s.ring.go = false)) ∧
  (∃ refs, Meets (.syncTickEdge refs) (fun s => s.frozen = false ∧ s.ring.align = none ∧ s.ring.go = false ∧ s.df Reg.RING_ALIGNED = 1)) ∧
  (∃ refs, Meets (.syncTickEdge refs) (fun s => s.frozen = false ∧ s.ring.align = none ∧ s.ring.go = true ∧ s.df Reg.PLACE_MASTER = 1 ∧ s.df Reg.RING_ALIGNED ≠ 1)) ∧
  (∃ path, Meets (.goAlign path) (fun s => s.Writable path Reg.RING_ALIGN_GO 0 0 ∧ s.df Reg.PLACE_MASTER = 1 ∧ s.taskRuns = false)) ∧
  (∃ path, Meets (.goAlign path) (fun s => s.Writable path Reg.RING_ALIGN_GO 0 0 ∧ (s.df Reg.PLACE_MASTER ≠ 1 ∨ s.taskRuns = true))) ∧
  (∃ port, ∃ p, (port < 4) ∧ Meets (.align port p) (fun s => s.frozen = false ∧ s.hears port (al p) ∧ s.taskRuns = false ∧ pAddr (al p) ∉ s.ring.aligns)) ∧
  (∃ port, ∃ p, (port < 4) ∧ Meets (.align port p) (fun s => s.frozen = false ∧ s.hears port (al p) ∧ s.taskRuns = true ∧ pAddr (al p) ∉ s.ring.aligns)) := by
  refine ⟨⟨(0), shown (states.getD 1 State.reset) ?_ ?_⟩,
    ⟨(0), 1, ?_, shown (states.getD 4 State.reset) ?_ ?_⟩,
    ⟨(0), shown (states.getD 2 State.reset) ?_ ?_⟩,
    ⟨(0), shown (states.getD 5 State.reset) ?_ ?_⟩,
    ⟨(Sys2Proof.Path.sideband), shown (states.getD 5 State.reset) ?_ ?_⟩,
    ⟨(Sys2Proof.Path.sideband), shown (states.getD 0 State.reset) ?_ ?_⟩,
    ⟨(0), ({ w0 := 0x0000000680020009#64,   w1 := 0x0000000400030009#64,   w2 := 0x0000000009000003#64,   w3 := 0x000000000000004d#64,   payload := [] }), ?_, shown (states.getD 0 State.reset) ?_ ?_⟩,
    ⟨(0), ({ w0 := 0x0000000680020009#64,   w1 := 0x0000000400030009#64,   w2 := 0x0000000009000003#64,   w3 := 0x000000000000004d#64,   payload := [] }), ?_, shown (states.getD 4 State.reset) ?_ ?_⟩⟩
  all_goals repeat' first | decide +kernel | (with_reducible first | refine State.wordFits_of ?_ | refine sidecars_of ?_ | refine apart_of ?_ ?_ ?_ | refine notWaiting_of ?_ | refine reaches_of ?_ | refine plainWord_of ?_ | refine forall_covers ?_ | refine placed_bed ?_ | refine placed_sync ?_ | refine placed_tie ?_ | refine State.branchable_of ?_ | refine ok_of ?_ | refine Sparse.sorted_of_sortedB _ ?_ | exact List.mem_cons_self | unfold vectorOk | refine error_of ?_ | refine ⟨1, 3, by decide +kernel, ?_⟩) | (intro h; exact absurd h (by decide +kernel)) | (intro q h4 h8; revert h4; revert h8; revert q; decide +kernel) | (refine Or.inl (by decide +kernel)) | (refine Or.inr (by decide +kernel)) | apply And.intro | (refine Exists.intro _ ?_) | (with_reducible constructor) | rfl | intro _
end TickAlignment

/-! LinkTraining -/
namespace LinkTraining
def prt (s : State) (n : Nat) (f : Port → Port) : State := s.setPort n (f (s.port n))
def dirs (a b : Nat) (s : State) : State := ([0, 1, 5, 7].foldl (fun s n => prt s n fun p => { p with tx := a, rx := b }) s)
def full (s : State) : State := { prt (prt (dirs 5 5 (ports s [0, 1, 5])) 1 fun p => { p with kept := [(3, pk 0 0 0 8 [] 5)] }) 5 (fun p => { p with kept := [(3, pk 0 0 0 8 [] 5)] }) with net := { s.net with waiting := [(1, pk 0 0 0 8 [] 5), (0, pk 0 0 1 8 [] 5), (5, pk 4 0 2 0 [] 5)] } }
def states : List State := [up, fr up, dirs 1 2 up, dirs 3 1 up, dirs 4 4 up, prt (prt (dirs 4 4 up) 1 fun p => { p with txSeen := 2 ^ 32 - 1, rxSeen := 2 ^ 31 + 255 }) 0 fun p => { p with txSeen := 2 ^ 31 + 255, rxSeen := 2 ^ 32 - 1 }, dirs 2 3 (ports up [0]), dirs 5 4 up, dirs 6 6 up, full up, full (setDs up [(Reg.PLACE_ROLE, 0x5555), (Reg.RING_LINKS, 0xFFF), (Reg.PLACE_RING_SIZE, 4), (Reg.PLACE_VALID, 1), (Reg.RING_ENUM_STATE, 3), (Reg.PLACE_PEER, 0x12345678)]), inTask (full up) [0], setDs up [(Reg.DIR_DOM_ON_HI, 0)]]
theorem witness :
  let dir (s : State) (port : Nat) (tx : Bool) : Nat := if tx then (s.port port).tx else (s.port port).rx
  let good (s : State) (port : Nat) (tx : Bool) (mask : Nat) : Nat :=
    (if tx then (s.port port).txSeen else (s.port port).rxSeen) &&& mask % 2 ^ 32
  (∃ port, ∃ tx, ∃ mask, ∃ us, (port < 8) ∧ ∃ k, (1 ≤ k) ∧ (k < 4) ∧ Meets (.trainingStateExit port tx mask us) (fun s => s.frozen = false ∧ s.taskRuns = false ∧ dir s port tx = k ∧ (k = 1 → mask % 2 ^ 32 ≠ 0))) ∧
  (∃ port, ∃ tx, ∃ mask, ∃ us, (port < 8) ∧ Meets (.trainingStateExit port tx mask us) (fun s => s.frozen = false ∧ s.taskRuns = true)) ∧
  (∃ port, ∃ tx, ∃ mask, ∃ us, (port < 8) ∧ Meets (.trainingStateExit port tx mask us) (fun s => s.frozen = false ∧ s.taskRuns = false ∧ dir s port tx = 0 ∧ s.domainOn (64 + port) = true)) ∧
  (∃ port, ∃ tx, ∃ mask, ∃ us, (port < 8) ∧ Meets (.trainingStateExit port tx mask us) (fun s => s.frozen = false ∧ s.taskRuns = false ∧ dir s port tx = 4 ∧ 8 ≤ lanes (good s port tx mask))) ∧
  (∃ port, ∃ tx, ∃ mask, ∃ us, (port < 8) ∧ Meets (.trainingStateExit port tx mask us) (fun s => s.frozen = false ∧ s.taskRuns = false ∧ dir s port tx = 4 ∧ lanes (good s port tx mask) < 8)) ∧
  (∃ port, (port < 8) ∧ Meets (.trainingTimeout port) (fun s => s.frozen = false ∧ ∃ tx, 1 ≤ dir s port tx ∧ dir s port tx ≤ 4)) ∧
  (∃ port, (port < 8) ∧ Meets (.lossOfFrame port) (fun s => s.frozen = false ∧ s.portActive port = true)) ∧
  (∃ port, (port < 8) ∧ ∃ path, Meets (.retrain path port) (fun s => s.Writable path Reg.LINK_RETRAIN port 0 ∧ s.taskRuns = false)) ∧
  (∃ port, (port < 8) ∧ ∃ path, Meets (.retrain path port) (fun s => s.Writable path Reg.LINK_RETRAIN port 0 ∧ s.taskRuns = true)) := by
  refine ⟨⟨(0), (false), (1), (0), ?_, (1), ?_, ?_, shown (states.getD 3 State.reset) ?_ ?_⟩,
    ⟨(0), (false), (0), (0), ?_, shown (states.getD 11 State.reset) ?_ ?_⟩,
    ⟨(0), (false), (0), (0), ?_, shown (states.getD 0 State.reset) ?_ ?_⟩,
    ⟨(0), (false), (4294967295), (0), ?_, shown (states.getD 5 State.reset) ?_ ?_⟩,
    ⟨(0), (false), (0), (0), ?_, shown (states.getD 4 State.reset) ?_ ?_⟩,
    ⟨0, ?_, shown (states.getD 2 State.reset) ?_ ?_⟩,
    ⟨0, ?_, shown (states.getD 6 State.reset) ?_ ?_⟩,
    ⟨0, ?_, (Sys2Proof.Path.sideband), shown (states.getD 0 State.reset) ?_ ?_⟩,
    ⟨0, ?_, (Sys2Proof.Path.sideband), shown (states.getD 11 State.reset) ?_ ?_⟩⟩
  all_goals repeat' first | decide +kernel | (with_reducible first | refine State.wordFits_of ?_ | refine sidecars_of ?_ | refine apart_of ?_ ?_ ?_ | refine notWaiting_of ?_ | refine reaches_of ?_ | refine plainWord_of ?_ | refine forall_covers ?_ | refine placed_bed ?_ | refine placed_sync ?_ | refine placed_tie ?_ | refine State.branchable_of ?_ | refine ok_of ?_ | refine Sparse.sorted_of_sortedB _ ?_ | exact List.mem_cons_self | unfold vectorOk | refine error_of ?_ | refine ⟨1, 3, by decide +kernel, ?_⟩) | (intro h; exact absurd h (by decide +kernel)) | (intro q h4 h8; revert h4; revert h8; revert q; decide +kernel) | (refine Or.inl (by decide +kernel)) | (refine Or.inr (by decide +kernel)) | apply And.intro | (refine Exists.intro _ ?_) | (with_reducible constructor) | rfl | intro _
end LinkTraining

/-! Frames -/
namespace Frames
def prt (s : State) (n : Nat) (f : Port → Port) : State := s.setPort n (f (s.port n))
def K := [(4095, pk 0 0 0 8 [] 5), (0, pk 4 0 2 0 [] 5), (1, pk 0 0 0 8 [] 6)]
def base : State := ports up [0, 3, 5]
def used (s : State) : State := { s with net := { s.net with portUsed := [(portKey 0 0 0, 300), (portKey 0 1 1, 2), (portKey 3 2 0, 9)] } }
def states : List State := [base, fr base, used (prt base 0 fun p => { p with kept := K }), prt base 3 (fun p => { p with dropping := true, nakRun := 3 }), prt base 0 (fun p => { p with dropping := true, nakRun := 7 }), prt base 0 (fun p => { p with nakRun := 8, nakSeq := 9, expect := 5 }), prt base 0 (fun p => { p with dropping := true, nakRun := 7, expect := 9 })]
theorem witness :
  let idle (s : State) (port : Nat) : Prop := s.frozen = false ∧ s.portActive port = true ∧ ∀ x, (port, x) ∉ s.net.waiting
  (∃ port, ∃ (f : Frame), (port < 8) ∧ Meets (.frame port f) (fun s => idle s port ∧ f.fseq % 4096 = (s.port port).expect ∧ (∀ e ∈ f.errors, e ≤ 4))) ∧
  (∃ port, ∃ (f : Frame), (port < 8) ∧ Meets (.frame port f) (fun s => idle s port ∧ (f.fseq % 4096 = (s.port port).expect → ∃ e ∈ f.errors, 4 < e) ∧
        (f.fseq % 4096 ≠ (s.port port).expect → (s.port port).dropping = false) ∧
        ((s.port port).nakSeq = (s.port port).expect → (s.port port).nakRun < 7))) ∧
  (∃ port, ∃ (f : Frame), (port < 8) ∧ Meets (.frame port f) (fun s => idle s port ∧ f.fseq % 4096 = (s.port port).expect ∧ (∃ e ∈ f.errors, 4 < e) ∧ (s.port port).nakSeq = (s.port port).expect ∧
        7 ≤ (s.port port).nakRun)) ∧
  (∃ port, ∃ (f : Frame), (port < 8) ∧ Meets (.frame port f) (fun s => idle s port ∧ f.fseq % 4096 ≠ (s.port port).expect ∧ (s.port port).dropping = true)) := by
  refine ⟨⟨(0), ({ fseq := 0,   ack := 4095,   nak := false,   credits := [1, 2, 3, 4, 5, 6, 7, 8],   errors := [0, 0, 0, 0, 0, 0, 0, 0, 0],   packets := [{ w0 := 0x0000800000020009#64,                 w1 := 0x0000000400030009#64,                 w2 := 0x0000000000000005#64,                 w3 := 0x000000000000004d#64,                 payload := [0x00#8, 0x00#8, 0x00#8, 0x00#8, 0x00#8, 0x00#8, 0x00#8, 0x00#8] },               { w0 := 0x0000000480020009#64,                 w1 := 0x0000000400030009#64,                 w2 := 0x0000000000000007#64,                 w3 := 0x000000000000004d#64,                 payload := [] }] }), ?_, shown (states.getD 0 State.reset) ?_ ?_⟩,
    ⟨(0), ({ fseq := 0,   ack := 4095,   nak := false,   credits := [1, 2, 3, 4, 5, 6, 7, 8],   errors := [0, 0, 0, 0, 0, 0, 0, 0, 0],   packets := [{ w0 := 0x0000800000020009#64,                 w1 := 0x0000000400030009#64,                 w2 := 0x0000000000000005#64,                 w3 := 0x000000000000004d#64,                 payload := [0x00#8, 0x00#8, 0x00#8, 0x00#8, 0x00#8, 0x00#8, 0x00#8, 0x00#8] },               { w0 := 0x0000000480020009#64,                 w1 := 0x0000000400030009#64,                 w2 := 0x0000000000000007#64,                 w3 := 0x000000000000004d#64,                 payload := [] }] }), ?_, shown (states.getD 5 State.reset) ?_ ?_⟩,
    ⟨(0), ({ fseq := 0, ack := 0, nak := false, credits := [], errors := [5], packets := [] }), ?_, shown (states.getD 4 State.reset) ?_ ?_⟩,
    ⟨(0), ({ fseq := 0,   ack := 4095,   nak := false,   credits := [1, 2, 3, 4, 5, 6, 7, 8],   errors := [0, 0, 0, 0, 0, 0, 0, 0, 0],   packets := [{ w0 := 0x0000800000020009#64,                 w1 := 0x0000000400030009#64,                 w2 := 0x0000000000000005#64,                 w3 := 0x000000000000004d#64,                 payload := [0x00#8, 0x00#8, 0x00#8, 0x00#8, 0x00#8, 0x00#8, 0x00#8, 0x00#8] },               { w0 := 0x0000000480020009#64,                 w1 := 0x0000000400030009#64,                 w2 := 0x0000000000000007#64,                 w3 := 0x000000000000004d#64,                 payload := [] }] }), ?_, shown (states.getD 6 State.reset) ?_ ?_⟩⟩
  all_goals repeat' first | decide +kernel | (with_reducible first | refine State.wordFits_of ?_ | refine sidecars_of ?_ | refine apart_of ?_ ?_ ?_ | refine notWaiting_of ?_ | refine reaches_of ?_ | refine plainWord_of ?_ | refine forall_covers ?_ | refine placed_bed ?_ | refine placed_sync ?_ | refine placed_tie ?_ | refine State.branchable_of ?_ | refine ok_of ?_ | refine Sparse.sorted_of_sortedB _ ?_ | exact List.mem_cons_self | unfold vectorOk | refine error_of ?_ | refine ⟨1, 3, by decide +kernel, ?_⟩) | (intro h; exact absurd h (by decide +kernel)) | (intro q h4 h8; revert h4; revert h8; revert q; decide +kernel) | (refine Or.inl (by decide +kernel)) | (refine Or.inr (by decide +kernel)) | apply And.intro | (refine Exists.intro _ ?_) | (with_reducible constructor) | rfl | intro _
end Frames

/-! Routing -/
namespace Routing
def rg (s : State) (f : Ring → Ring) : State := { s with ring := f s.ring }
def ring4 : State := setDs (ports up [0, 1, 2, 3, 4]) [(Reg.PLACE_RING_SIZE, 4), (Reg.PLACE_VALID, 1), (Reg.RING_LINKS, 0xFF), (Reg.RING_ENUM_STATE, 3), (Reg.PLACE_ROLE, 0x3A5), (Reg.PLACE_PEER, 0x90013)]
def hop : State := match exec .routeTableInstall (rg ring4 fun r => { r with stale := true, hubs := [(4, 10), (8, 9)] }) with | .next t => t | _ => ring4
def dn (k b3 b4 : Nat) : Packet := pk 7 5 3 32 (toBytes 2 9 ++ toBytes 1 k ++ toBytes 1 b3 ++ toBytes 1 b4 ++ List.replicate 27 0#8) 0
def W := pk 0 0 0 8 (List.replicate 8 1#8) 64
def netf (s : State) (f : Net → Net) : State := { s with net := f s.net }
def states : List State := [up, ring4, hop, fr hop, rg hop (fun r => { r with stale := true }), rg ring4 (fun r => { r with stale := true, hubs := [(4, 10), (8, 9)] }), rg hop (fun r => { r with downs := [(dn 2 1 1).payload] }),
  netf hop (fun n => { n with waiting := [(0, W)], portUsed := [(portKey 0 0 0, 3)] }), netf hop (fun n => { n with waiting := [(1, W)], portUsed := [(portKey 1 0 0, 300)] }),
  netf (inTask hop [0, 1]) (fun n => { n with meshUsed := [(0, 8), (4, 3)] }), (netf ((inTask hop [0, 1]).mapCore 1 fun k => { k with outQ := [W], seq := { k.seq with cause := some .credit } }) (fun n => { n with meshUsed := [(4, 8), (5, 3)] })).setC Reg.SEQ_RUN 1 2 ]
theorem witness :
  let down (p : Packet) : Packet := asSub 5 5 (asType 7 p)
  let cls (s : State) (m : Nat) (p : Packet) : Packet := withClass p (s.hopClass m p)
  (∃ port, ∃ p, (port < 4) ∧ Meets (.linkDown port p) (fun s => s.frozen = false ∧ s.hears port (down p) ∧ (down p).payload ∉ s.ring.downs)) ∧
  (∃ port, ∃ p, (port < 4) ∧ Meets (.linkDown port p) (fun s => s.frozen = false ∧ s.hears port (down p) ∧ (down p).payload ∈ s.ring.downs)) ∧
  (Meets .routeTableInstall (fun s => s.frozen = false ∧ s.ring.stale = true)) ∧
  (∃ port, ∃ c, ∃ vl, ∃ k, ∃ n, (port < 8) ∧ (vl < 4) ∧ (k < 2) ∧ Meets (.creditReturn port c vl k n) (fun s => s.frozen = false ∧ ∀ x, (port, x) ∉ s.net.waiting)) ∧
  (∃ port, ∃ c, ∃ vl, ∃ k, ∃ n, (port < 8) ∧ (vl < 4) ∧ (k < 2) ∧ ∃ x, (pVl x = vl) ∧ (pClass x = k) ∧ Meets (.creditReturn port c vl k n) (fun s => s.frozen = false ∧ s.net.waiting = [(port, x)] ∧
          Sparse.get 0 s.net.portUsed (portKey port vl k) - n + flits x ≤ portCapacity vl)) ∧
  (∃ c, ∃ vl, ∃ k, ∃ n, (vl < 4) ∧ Meets (.creditReturn 8 c vl k n) (fun s => s.clocksRun = true ∧ (s.core c).outQ = [] ∧ s.heldFor c .credit = false)) ∧
  (∃ c, ∃ vl, ∃ k, ∃ n, (vl < 4) ∧ ∃ x, (pVl x = vl) ∧ Meets (.creditReturn 8 c vl k n) (fun s => s.clocksRun = true ∧ (s.core c).outQ = [x] ∧ s.heldFor c .credit = true ∧ (s.core c).seq.endEntry = none ∧
          (s.core c).moveIn = [] ∧ Sparse.get 0 s.net.meshUsed (4 * c + vl) - n < 8)) ∧
  (∃ port, ∃ p, ∃ m, (pType p ≠ 6) ∧ (pType p ≠ 7) ∧ Meets (.packetForward port p) (fun s => s.frozen = false ∧ s.goesOn port p = true ∧ s.hop port p = .port m ∧ s.portActive m = true ∧ flits p ≤ 32 ∧
        s.portFree m (cls s m p) = true ∧ ∀ x, (m, x) ∉ s.net.waiting)) ∧
  (∃ port, ∃ p, (pType p ≠ 6) ∧ (pType p ≠ 7) ∧ Meets (.packetForward port p) (fun s => s.frozen = false ∧ s.goesOn port p = true ∧ s.hop port p = .none_ ∧ (pType p = 0 ∨ pType p = 1 ∨ pType p = 4))) := by
  refine ⟨⟨(0), ({ w0 := 0x00020057c0020009#64,   w1 := 0x0000000400030009#64,   w2 := 0x0000000000000000#64,   w3 := 0x000000000000004d#64,   payload := [0x09#8,               0x00#8,               0x02#8,               0x01#8,               0x01#8,               0x00#8,               0x00#8,               0x00#8,               0x00#8,               0x00#8,               0x00#8,               0x00#8,               0x00#8,               0x00#8,               0x00#8,               0x00#8,               0x00#8,               0x00#8,               0x00#8,               0x00#8,               0x00#8,               0x00#8,               0x00#8,               0x00#8,               0x00#8,               0x00#8,               0x00#8,               0x00#8,               0x00#8,               0x00#8,               0x00#8,               0x00#8] }), ?_, shown (states.getD 0 State.reset) ?_ ?_⟩,
    ⟨(0), ({ w0 := 0x00020057c0020009#64,   w1 := 0x0000000400030009#64,   w2 := 0x0000000000000000#64,   w3 := 0x000000000000004d#64,   payload := [0x09#8,               0x00#8,               0x02#8,               0x01#8,               0x01#8,               0x00#8,               0x00#8,               0x00#8,               0x00#8,               0x00#8,               0x00#8,               0x00#8,               0x00#8,               0x00#8,               0x00#8,               0x00#8,               0x00#8,               0x00#8,               0x00#8,               0x00#8,               0x00#8,               0x00#8,               0x00#8,               0x00#8,               0x00#8,               0x00#8,               0x00#8,               0x00#8,               0x00#8,               0x00#8,               0x00#8,               0x00#8] }), ?_, shown (states.getD 6 State.reset) ?_ ?_⟩,
    shown (states.getD 4 State.reset) ?_ ?_,
    ⟨(0), (0), (0), (0), (0), ?_, ?_, ?_, shown (states.getD 0 State.reset) ?_ ?_⟩,
    ⟨(0), (0), (0), (0), (0), ?_, ?_, ?_, ({ w0 := 0x0000800000020009#64,   w1 := 0x0000000400030009#64,   w2 := 0x0000000000000040#64,   w3 := 0x000000000000004d#64,   payload := [0x01#8, 0x01#8, 0x01#8, 0x01#8, 0x01#8, 0x01#8, 0x01#8, 0x01#8] }), ?_, ?_, shown (states.getD 7 State.reset) ?_ ?_⟩,
    ⟨(0), (0), (0), (0), ?_, shown (states.getD 0 State.reset) ?_ ?_⟩,
    ⟨(1), (0), (0), (1), ?_, ({ w0 := 0x0000800000020009#64,   w1 := 0x0000000400030009#64,   w2 := 0x0000000000000040#64,   w3 := 0x000000000000004d#64,   payload := [0x01#8, 0x01#8, 0x01#8, 0x01#8, 0x01#8, 0x01#8, 0x01#8, 0x01#8] }), ?_, shown (states.getD 10 State.reset) ?_ ?_⟩,
    ⟨(0), ({ w0 := 0x0000800000030009#64,   w1 := 0x0000000400020009#64,   w2 := 0x0000000000000040#64,   w3 := 0x000000000000004d#64,   payload := [0x01#8, 0x01#8, 0x01#8, 0x01#8, 0x01#8, 0x01#8, 0x01#8, 0x01#8] }), (0), ?_, ?_, shown (states.getD 2 State.reset) ?_ ?_⟩,
    ⟨(0), ({ w0 := 0x0000800000030009#64,   w1 := 0x0000000400020009#64,   w2 := 0x0000000000000040#64,   w3 := 0x000000000000004d#64,   payload := [0x01#8, 0x01#8, 0x01#8, 0x01#8, 0x01#8, 0x01#8, 0x01#8, 0x01#8] }), ?_, ?_, shown (states.getD 0 State.reset) ?_ ?_⟩⟩
  all_goals repeat' first | decide +kernel | (with_reducible first | refine State.wordFits_of ?_ | refine sidecars_of ?_ | refine apart_of ?_ ?_ ?_ | refine notWaiting_of ?_ | refine reaches_of ?_ | refine plainWord_of ?_ | refine forall_covers ?_ | refine placed_bed ?_ | refine placed_sync ?_ | refine placed_tie ?_ | refine State.branchable_of ?_ | refine ok_of ?_ | refine Sparse.sorted_of_sortedB _ ?_ | exact List.mem_cons_self | unfold vectorOk | refine error_of ?_ | refine ⟨1, 3, by decide +kernel, ?_⟩) | (intro h; exact absurd h (by decide +kernel)) | (intro q h4 h8; revert h4; revert h8; revert q; decide +kernel) | (refine Or.inl (by decide +kernel)) | (refine Or.inr (by decide +kernel)) | apply And.intro | (refine Exists.intro _ ?_) | (with_reducible constructor) | rfl | intro _
end Routing

/-! MemoryPackets -/
namespace MemoryPackets
def wb (c : Nat) := 0x10000000000 + c * 0x100000
def win (s : State) (c w : Nat) (opened : Bool) : State := ((((s.setWin c w 0 (1 * 2^8 + 0 + 256 * 2 ^ 32)).setWin c w 1 512).setWin c w 3 0).setWin c w 4 (b2n (!opened) * 2 ^ 30)).setWin c w 2 (0) |> fun s => s.setWin c w 0 (b2n opened + 1 * 2 ^ 8 + 256 * 2 ^ 32)
def ba : State := ports (setDs up [(Reg.PLACE_VALID, 1), (Reg.PLACE_RING_SIZE, 4)]) [0, 1]
def states : List State := [ba, fr ba, inTask ba [1], win ba 1 3 true, win ba 1 3 false, win (inTask ba [1]) 1 3 true, setDs ba [(Reg.POWER_STOPPED, 1)], setDs ba [(Reg.DEBUG_MODE, 1)], { ba with boot := { ba.boot with part := true } }, { ba with mem := [(0x100, 3#8), (wb 1 + 0x41, 4#8)] }]
theorem witness :
  (∃ port, ∃ p,
  let q := asType 0 p;
  let a := pAddr q;
  let plain (s : State) : Prop := s.Gets port q ∧ pWin q = false ∧ s.accessStatus a (pLen q) = 0;
    Meets (.pktWrite port p) (fun s => plain s ∧ (placeOf a = .yard ∨ ∃ c o, placeOf a = .bed c o ∧ s.running c = false))) ∧
  (∃ port, ∃ p,
  let q := asType 0 p;
  let a := pAddr q;
  let plain (s : State) : Prop := s.Gets port q ∧ pWin q = false ∧ s.accessStatus a (pLen q) = 0;
    Meets (.pktWrite port p) (fun s => plain s ∧ ∃ c o, placeOf a = .bed c o ∧ s.running c = true)) ∧
  (∃ port, ∃ p,
  let q := asType 0 p;
  let a := pAddr q;
  let plain (s : State) : Prop := s.Gets port q ∧ pWin q = false ∧ s.accessStatus a (pLen q) = 0;
    Meets (.pktWrite port p) (fun s => plain s ∧ ∃ c o, placeOf a = .sync c o ∧ (s.running c = true ∨ ∃ w ∈ accessWords o (pLen q), syncLoadable w = false))) ∧
  (∃ port, ∃ p,
  let q := asType 0 p;
  let a := pAddr q;
  let plain (s : State) : Prop := s.Gets port q ∧ pWin q = false ∧ s.accessStatus a (pLen q) = 0;
    Meets (.pktWrite port p) (fun s => plain s ∧ pLen q = 8 ∧ ∃ c t, placeOf a = .sync c (8 * t) ∧ t < 256 ∧ s.running c = false ∧ Sparse.sorted (s.core c).ties)) ∧
  (∃ port, ∃ p,
  let q := asType 0 p;
  let a := pAddr q;
    Meets (.pktWrite port p) (fun s => s.Gets port q ∧ pWin q = false ∧ s.accessStatus a (pLen q) = 1)) ∧
  (∃ port, ∃ p,
  let q := asType 1 p;
  let c := pDnode q;
  let w := pWindow q;
  let alive (s : State) : Prop := s.Gets port q ∧ s.resetting c = false ∧ s.coreAlive c = true ∧ Sparse.sorted (s.core c).windows;
    Meets (.pktWriteS port p) (fun s => alive s ∧ s.windowOpen c w = true ∧ pOffset q + pLen q ≤ s.winExtent c w)) ∧
  (∃ port, ∃ p,
  let q := asType 1 p;
  let c := pDnode q;
  let w := pWindow q;
  let alive (s : State) : Prop := s.Gets port q ∧ s.resetting c = false ∧ s.coreAlive c = true ∧ Sparse.sorted (s.core c).windows;
    Meets (.pktWriteS port p) (fun s => alive s ∧ s.windowOpen c w = true ∧ s.winExtent c w < pOffset q + pLen q)) ∧
  (∃ port, ∃ p,
  let q := asType 1 p;
  let c := pDnode q;
  let w := pWindow q;
  let alive (s : State) : Prop := s.Gets port q ∧ s.resetting c = false ∧ s.coreAlive c = true ∧ Sparse.sorted (s.core c).windows;
    Meets (.pktWriteS port p) (fun s => alive s ∧ s.windowOpen c w = false ∧ bit (s.winWord c w 4) 30 = true ∧ s.traced c = false)) ∧
  (∃ port, ∃ p,
  let q := asType 1 p;
  let c := pDnode q;
    Meets (.pktWriteS port p) (fun s => s.Gets port q ∧ s.resetting c = true)) ∧
  (∃ port, ∃ p,
  let q := asType 2 p;
  let a := pAddr q;
    Meets (.pktReadReq port p) (fun s => s.Gets port q ∧ s.accessStatus a (pLen q) = 0 ∧ inMemory a = true)) ∧
  (∃ port, ∃ p,
  let q := asType 2 p;
  let a := pAddr q;
    Meets (.pktReadReq port p) (fun s => s.Gets port q ∧ s.accessStatus a (pLen q) = 0 ∧ inMemory a = false ∧ (∀ w ∈ accessWords a (pLen q), s.accBad w = false) ∧
          s.ledger.bad = [])) ∧
  (∃ port, ∃ p,
  let q := asType 2 p;
  let a := pAddr q;
    Meets (.pktReadReq port p) (fun s => s.Gets port q ∧ s.accessStatus a (pLen q) = 8)) := by
  refine ⟨⟨(0), ({ w0 := 0x0100800000020009#64,   w1 := 0x0009000400030009#64,   w2 := 0x0000000000000100#64,   w3 := 0x000000000000004d#64,   payload := [0x01#8, 0x02#8, 0x03#8, 0x04#8, 0x05#8, 0x06#8, 0x07#8, 0x08#8] }), shown (states.getD 0 State.reset) ?_ ?_⟩,
    ⟨(0), ({ w0 := 0x0000800000120009#64,   w1 := 0x0009000400030009#64,   w2 := 0x0000010000100040#64,   w3 := 0x000000000000004d#64,   payload := [0x01#8, 0x02#8, 0x03#8, 0x04#8, 0x05#8, 0x06#8, 0x07#8, 0x08#8] }), shown (states.getD 2 State.reset) ?_ ?_⟩,
    ⟨(0), ({ w0 := 0x0000800000120009#64,   w1 := 0x0009000400030009#64,   w2 := 0x00000100001c0018#64,   w3 := 0x000000000000004d#64,   payload := [0x01#8, 0x02#8, 0x03#8, 0x04#8, 0x05#8, 0x06#8, 0x07#8, 0x08#8] }), shown (states.getD 2 State.reset) ?_ ?_⟩,
    ⟨(0), ({ w0 := 0x0000800000120009#64,   w1 := 0x0009000400030009#64,   w2 := 0x00000100001c0018#64,   w3 := 0x000000000000004d#64,   payload := [0x01#8, 0x02#8, 0x03#8, 0x04#8, 0x05#8, 0x06#8, 0x07#8, 0x08#8] }), shown (states.getD 0 State.reset) ?_ ?_⟩,
    ⟨(0), ({ w0 := 0x0000800000220009#64,   w1 := 0x0009000400030009#64,   w2 := 0x0000010000280000#64,   w3 := 0x000000000000004d#64,   payload := [0x01#8, 0x02#8, 0x03#8, 0x04#8, 0x05#8, 0x06#8, 0x07#8, 0x08#8] }), shown (states.getD 0 State.reset) ?_ ?_⟩,
    ⟨(0), ({ w0 := 0x0080800100120009#64,   w1 := 0x0005000400030009#64,   w2 := 0x0000000000300000#64,   w3 := 0x000000000000004d#64,   payload := [0x01#8, 0x02#8, 0x03#8, 0x04#8, 0x05#8, 0x06#8, 0x07#8, 0x08#8] }), shown (states.getD 3 State.reset) ?_ ?_⟩,
    ⟨(0), ({ w0 := 0x0080800100120009#64,   w1 := 0x0005000400030009#64,   w2 := 0x0000000000300200#64,   w3 := 0x000000000000004d#64,   payload := [0x01#8, 0x02#8, 0x03#8, 0x04#8, 0x05#8, 0x06#8, 0x07#8, 0x08#8] }), shown (states.getD 3 State.reset) ?_ ?_⟩,
    ⟨(0), ({ w0 := 0x0080800100120009#64,   w1 := 0x0005000400030009#64,   w2 := 0x0000000000300000#64,   w3 := 0x000000000000004d#64,   payload := [0x01#8, 0x02#8, 0x03#8, 0x04#8, 0x05#8, 0x06#8, 0x07#8, 0x08#8] }), shown (states.getD 4 State.reset) ?_ ?_⟩,
    ⟨(0), ({ w0 := 0x0080800100120009#64,   w1 := 0x0005000400030009#64,   w2 := 0x0000000000300000#64,   w3 := 0x000000000000004d#64,   payload := [0x01#8, 0x02#8, 0x03#8, 0x04#8, 0x05#8, 0x06#8, 0x07#8, 0x08#8] }), shown (states.getD 6 State.reset) ?_ ?_⟩,
    ⟨(0), ({ w0 := 0x0104000200020009#64,   w1 := 0x0009000400030009#64,   w2 := 0x0000000000000100#64,   w3 := 0x000000000000004d#64,   payload := [] }), shown (states.getD 0 State.reset) ?_ ?_⟩,
    ⟨(0), ({ w0 := 0x0002000200120009#64,   w1 := 0x0009000400030009#64,   w2 := 0x00000100001c0000#64,   w3 := 0x000000000000004d#64,   payload := [] }), shown (states.getD 0 State.reset) ?_ ?_⟩,
    ⟨(0), ({ w0 := 0x0104000200020009#64,   w1 := 0x0009000400030009#64,   w2 := 0x0000000000000100#64,   w3 := 0x000000000000004d#64,   payload := [] }), shown (states.getD 6 State.reset) ?_ ?_⟩⟩
  all_goals repeat' first | decide +kernel | (with_reducible first | refine State.wordFits_of ?_ | refine sidecars_of ?_ | refine apart_of ?_ ?_ ?_ | refine notWaiting_of ?_ | refine reaches_of ?_ | refine plainWord_of ?_ | refine forall_covers ?_ | refine placed_bed ?_ | refine placed_sync ?_ | refine placed_tie ?_ | refine State.branchable_of ?_ | refine ok_of ?_ | refine Sparse.sorted_of_sortedB _ ?_ | exact List.mem_cons_self | unfold vectorOk | refine error_of ?_ | refine ⟨1, 3, by decide +kernel, ?_⟩) | (intro h; exact absurd h (by decide +kernel)) | (intro q h4 h8; revert h4; revert h8; revert q; decide +kernel) | (refine Or.inl (by decide +kernel)) | (refine Or.inr (by decide +kernel)) | apply And.intro | (refine Exists.intro _ ?_) | (with_reducible constructor) | rfl | intro _
end MemoryPackets

/-! ResponsesAndMessages -/
namespace ResponsesAndMessages
def jb (serial : Nat) (closing cte failed : Bool) (kind : Nat) : MoveJob := ⟨serial, (0x100 + 0, 0x200 + 2 ^ 40), (0x2000, 0x1000 + kind * 2 ^ 40), 0, 64, 1024, false, cte, 7, true, 2, 0, closing, failed⟩
def J1 := jb 4 false false false 1
def J2 := jb 5 true true false 0
def J3 := jb 6 true false false 0
def J4 := jb 7 true true true 0
def ba : State := ports (setDs up [(Reg.PLACE_VALID, 1), (Reg.PLACE_RING_SIZE, 4), (Reg.PLACE_ROLE, 5 + 0x3 * 256)]) [0, 1, 4]
def mv (s : State) (l : List MoveJob) : State := (s.mapCore 1 fun k => { k with moves := l })
def ms : State := setDs ba [(Reg.PLACE_MASTER, 1), (Reg.PLACE_DIE_ID, 0)]
def states : List State := [ba, fr ba, mv (inTask ba [1]) [J1, J2, J3, J4], mv (inTask ba [1]) [{J1 with dst := (9, 3 * 2 ^ 40)}, J4], mv ba [J2, J3, J4], mv (setR ba [(Reg.SYNC_NACK_STOP, 1, 0, 0)]) [J1, J2, J3], setR ms [(Reg.ARCH_DIES, 0, 3, 0xFF), (Reg.ARCH_CROSS, 0, 3, 1)], setR ba [(Reg.ARCH_DIES, 0, 3, 0xFF), (Reg.ARCH_CROSS, 0, 3, 1)],
 { ba with slip := { ba.slip with seen := [9] } }, inTask ba [0, 1]]
theorem witness :
  let here (s : State) (q : Packet) (c : Nat) : Prop := pDkind q = 0 ∧ pDnode q = c ∧ s.resetting c = false ∧ s.coreAlive c = true
  (∃ port, ∃ p, ∃ c, ∃ (j : MoveJob),
  let q := asType 3 p;
    Meets (.pktReadRsp port p) (fun s => s.Gets port q ∧ here s q c ∧ pSub q = 0 ∧ s.run c = 1 ∧ s.moverStopped c = false ∧ s.taggedJob c (pTag q) = some j ∧ s.job c j.serial = some j ∧
          j.left ≠ 0 ∧ j.dstHandle.kind = 1)) ∧
  (∃ port, ∃ p, ∃ c, ∃ (j : MoveJob),
  let q := asSub 3 0 (asType 5 p);
    Meets (.pktComplete port p) (fun s => s.Gets port q ∧ here s q c ∧ s.moverStopped c = false ∧ s.taggedJob c (pTag q) = some j ∧ j.closing = true ∧
          (j.cte = true → s.coreAlive (s.home c j.ct).1 = true))) ∧
  (∃ port, ∃ p, ∃ c, ∃ (j : MoveJob),
  let q := asSub 3 1 (asType 5 p);
    Meets (.pktNack port p) (fun s => s.Gets port q ∧ here s q c ∧ s.taggedJob c (pTag q) = some j ∧ 128 ≤ pTag q ∧ s.cf Reg.SYNC_NACK_STOP c = 0)) ∧
  (∃ port, ∃ p, ∃ c, ∃ (j : MoveJob),
  let q := asSub 3 1 (asType 5 p);
    Meets (.pktNack port p) (fun s => s.Gets port q ∧ here s q c ∧ s.taggedJob c (pTag q) = some j ∧ pTag q < 128 ∧ s.cf Reg.SYNC_NACK_STOP c = 0 ∧
          s.moverStopped c = false ∧ j.closing = true ∧ j.cte = false)) ∧
  (∃ port, ∃ p,
  let q := asType 4 p;
    Meets (.pktTieAdd port p) (fun s => s.Gets port q ∧ s.resetting (pDnode q) = false ∧ s.coreAlive (pDnode q) = true)) ∧
  (∃ port, ∃ p,
  let q := asSub 3 2 (asType 5 p);
  let a := pAddr q;
    Meets (.archArrive port p) (fun s => s.Gets port q ∧ s.halted = false ∧ s.isMaster = true ∧ bit (s.rd Reg.ARCH_DIES 0 a) (pSdie q) = true ∧
          bit (s.phase a).dies (pSdie q) = false ∧ (s.phase a).root = false)) ∧
  (∃ port, ∃ p,
  let q := asSub 3 3 (asType 5 p);
  let a := pAddr q;
    Meets (.archRelease port p) (fun s => s.Gets port q ∧ s.halted = false ∧ s.isMaster = false ∧ s.cross a = true)) ∧
  (∃ port, ∃ p,
  let q := asSub 1 1 (asType 6 p);
  let heard (s : State) : Prop := s.frozen = false ∧ port < 8 ∧ s.hears port q ∧ pAddr q ∉ s.slip.seen;
    Meets (.slip port p) (fun s => heard s ∧ s.taskRuns = false)) ∧
  (∃ port, ∃ p,
  let q := asSub 1 1 (asType 6 p);
  let heard (s : State) : Prop := s.frozen = false ∧ port < 8 ∧ s.hears port q ∧ pAddr q ∉ s.slip.seen;
    Meets (.slip port p) (fun s => heard s ∧ s.taskRuns = true ∧ s.tickCount < pAddr q)) ∧
  (∃ port, ∃ p,
  let q := asSub 1 1 (asType 6 p);
  let heard (s : State) : Prop := s.frozen = false ∧ port < 8 ∧ s.hears port q ∧ pAddr q ∉ s.slip.seen;
    Meets (.slip port p) (fun s => heard s ∧ s.taskRuns = true ∧ pAddr q ≤ s.tickCount)) := by
  refine ⟨⟨(0), ({ w0 := 0x0020000340120009#64,   w1 := 0x0005000400030009#64,   w2 := 0x0000000000000200#64,   w3 := 0x000000000000004d#64,   payload := [0x05#8,               0x05#8,               0x05#8,               0x05#8,               0x05#8,               0x05#8,               0x05#8,               0x05#8,               0x05#8,               0x05#8,               0x05#8,               0x05#8,               0x05#8,               0x05#8,               0x05#8,               0x05#8,               0x05#8,               0x05#8,               0x05#8,               0x05#8,               0x05#8,               0x05#8,               0x05#8,               0x05#8,               0x05#8,               0x05#8,               0x05#8,               0x05#8,               0x05#8,               0x05#8,               0x05#8,               0x05#8,               0x05#8,               0x05#8,               0x05#8,               0x05#8,               0x05#8,               0x05#8,               0x05#8,               0x05#8,               0x05#8,               0x05#8,               0x05#8,               0x05#8,               0x05#8,               0x05#8,               0x05#8,               0x05#8,               0x05#8,               0x05#8,               0x05#8,               0x05#8,               0x05#8,               0x05#8,               0x05#8,               0x05#8,               0x05#8,               0x05#8,               0x05#8,               0x05#8,               0x05#8,               0x05#8,               0x05#8,               0x05#8,               0x05#8,               0x05#8,               0x05#8,               0x05#8,               0x05#8,               0x05#8,               0x05#8,               0x05#8,               0x05#8,               0x05#8,               0x05#8,               0x05#8,               0x05#8,               0x05#8,               0x05#8,               0x05#8,               0x05#8,               0x05#8,               0x05#8,               0x05#8,               0x05#8,               0x05#8,               0x05#8,               0x05#8,               0x05#8,               0x05#8,               0x05#8,               0x05#8,               0x05#8,               0x05#8,               0x05#8,               0x05#8,               0x05#8,               0x05#8,               0x05#8,               0x05#8,               0x05#8,               0x05#8,               0x05#8,               0x05#8,               0x05#8,               0x05#8,               0x05#8,               0x05#8,               0x05#8,               0x05#8,               0x05#8,               0x05#8,               0x05#8,               0x05#8,               0x05#8,               0x05#8,               0x05#8,               0x05#8,               0x05#8,               0x05#8,               0x05#8,               0x05#8,               0x05#8,               0x05#8,               0x05#8,               0x05#8,               0x05#8,               0x05#8,               0x05#8,               0x05#8,               0x05#8,               0x05#8,               0x05#8,               0x05#8,               0x05#8,               0x05#8,               0x05#8,               0x05#8,               0x05#8,               0x05#8,               0x05#8,               0x05#8,               0x05#8,               0x05#8,               0x05#8,               0x05#8,               0x05#8,               0x05#8,               0x05#8,               0x05#8,               0x05#8,               0x05#8,               0x05#8,               0x05#8,               0x05#8,               0x05#8,               0x05#8,               0x05#8,               0x05#8,               0x05#8,               0x05#8,               0x05#8,               0x05#8,               0x05#8,               0x05#8,               0x05#8,               0x05#8,               0x05#8,               0x05#8,               0x05#8,               0x05#8,               0x05#8,               0x05#8,               0x05#8,               0x05#8,               0x05#8,               0x05#8,               0x05#8,               0x05#8,               0x05#8,               0x05#8,               0x05#8,               0x05#8,               0x05#8,               0x05#8,               0x05#8,               0x05#8,               0x05#8,               0x05#8,               0x05#8,               0x05#8,               0x05#8,               0x05#8,               0x05#8,               0x05#8,               0x05#8,               0x05#8,               0x05#8,               0x05#8,               0x05#8,               0x05#8,               0x05#8,               0x05#8,               0x05#8,               0x05#8,               0x05#8,               0x05#8,               0x05#8,               0x05#8,               0x05#8,               0x05#8,               0x05#8,               0x05#8,               0x05#8,               0x05#8,               0x05#8,               0x05#8,               0x05#8,               0x05#8,               0x05#8,               0x05#8,               0x05#8,               0x05#8,               0x05#8,               0x05#8,               0x05#8,               0x05#8,               0x05#8,               0x05#8,               0x05#8,               0x05#8,               0x05#8,               0x05#8,               0x05#8,               0x05#8,               0x05#8,               0x05#8,               0x05#8,               0x05#8,               0x05#8,               0x05#8,               0x05#8,               0x05#8,               0x05#8,               0x05#8,               0x05#8,               0x05#8,               0x05#8,               0x05#8,               0x05#8,               0x05#8,               0x05#8,               0x05#8,               0x05#8,               0x05#8,               0x05#8,               0x05#8,               0x05#8,               0x05#8,               0x05#8,               0x05#8,               0x05#8,               0x05#8,               0x05#8,               0x05#8,               0x05#8,               0x05#8,               0x05#8,               0x05#8,               0x05#8,               0x05#8,               0x05#8,               0x05#8,               0x05#8,               0x05#8,               0x05#8,               0x05#8,               0x05#8,               0x05#8,               0x05#8,               0x05#8,               0x05#8,               0x05#8,               0x05#8,               0x05#8,               0x05#8,               0x05#8,               0x05#8,               0x05#8,               0x05#8,               0x05#8,               0x05#8,               0x05#8,               0x05#8,               0x05#8,               0x05#8,               0x05#8,               0x05#8,               0x05#8,               0x05#8,               0x05#8,               0x05#8,               0x05#8,               0x05#8,               0x05#8,               0x05#8,               0x05#8,               0x05#8,               0x05#8,               0x05#8,               0x05#8,               0x05#8,               0x05#8,               0x05#8,               0x05#8,               0x05#8,               0x05#8,               0x05#8,               0x05#8,               0x05#8,               0x05#8,               0x05#8,               0x05#8,               0x05#8,               0x05#8,               0x05#8,               0x05#8,               0x05#8,               0x05#8,               0x05#8,               0x05#8,               0x05#8,               0x05#8,               0x05#8,               0x05#8,               0x05#8,               0x05#8,               0x05#8,               0x05#8,               0x05#8,               0x05#8,               0x05#8,               0x05#8,               0x05#8,               0x05#8,               0x05#8,               0x05#8,               0x05#8,               0x05#8,               0x05#8,               0x05#8,               0x05#8,               0x05#8,               0x05#8,               0x05#8,               0x05#8,               0x05#8,               0x05#8,               0x05#8,               0x05#8,               0x05#8,               0x05#8,               0x05#8,               0x05#8,               0x05#8,               0x05#8,               0x05#8,               0x05#8,               0x05#8,               0x05#8,               0x05#8,               0x05#8,               0x05#8,               0x05#8,               0x05#8,               0x05#8,               0x05#8,               0x05#8,               0x05#8,               0x05#8,               0x05#8,               0x05#8,               0x05#8,               0x05#8,               0x05#8,               0x05#8,               0x05#8,               0x05#8,               0x05#8,               0x05#8,               0x05#8,               0x05#8,               0x05#8,               0x05#8,               0x05#8,               0x05#8,               0x05#8,               0x05#8,               0x05#8,               0x05#8,               0x05#8,               0x05#8,               0x05#8,               0x05#8,               0x05#8,               0x05#8,               0x05#8,               0x05#8,               0x05#8,               0x05#8,               0x05#8,               0x05#8,               0x05#8,               0x05#8,               0x05#8,               0x05#8,               0x05#8,               0x05#8,               0x05#8,               0x05#8,               0x05#8,               0x05#8,               0x05#8,               0x05#8,               0x05#8,               0x05#8,               0x05#8,               0x05#8,               0x05#8,               0x05#8,               0x05#8,               0x05#8,               0x05#8,               0x05#8,               0x05#8,               0x05#8,               0x05#8,               0x05#8,               0x05#8,               0x05#8,               0x05#8,               0x05#8,               0x05#8,               0x05#8,               0x05#8,               0x05#8,               0x05#8,               0x05#8,               0x05#8,               0x05#8,               0x05#8,               0x05#8,               0x05#8,               0x05#8,               0x05#8,               0x05#8,               0x05#8,               0x05#8,               0x05#8,               0x05#8,               0x05#8,               0x05#8,               0x05#8,               0x05#8,               0x05#8,               0x05#8,               0x05#8,               0x05#8,               0x05#8,               0x05#8,               0x05#8,               0x05#8,               0x05#8,               0x05#8,               0x05#8,               0x05#8,               0x05#8,               0x05#8,               0x05#8,               0x05#8,               0x05#8,               0x05#8,               0x05#8,               0x05#8,               0x05#8,               0x05#8,               0x05#8,               0x05#8,               0x05#8,               0x05#8,               0x05#8,               0x05#8,               0x05#8,               0x05#8,               0x05#8,               0x05#8,               0x05#8,               0x05#8,               0x05#8,               0x05#8,               0x05#8,               0x05#8,               0x05#8,               0x05#8,               0x05#8,               0x05#8,               0x05#8,               0x05#8,               0x05#8,               0x05#8,               0x05#8,               0x05#8] }), (1), ({ serial := 4,   src := (256, 1099511628288),   dst := (8192, 1099511631872),   srcOff := 0,   dstOff := 64,   len := 1024,   sig := false,   cte := false,   ct := 7,   begun := true,   left := 2,   writes := 0,   closing := false,   failed := false }), shown (states.getD 2 State.reset) ?_ ?_⟩,
    ⟨(0), ({ w0 := 0x0000003340120009#64,   w1 := 0x0007000400030009#64,   w2 := 0x0000000000000200#64,   w3 := 0x000000000000004d#64,   payload := [] }), (1), ({ serial := 6,   src := (256, 1099511628288),   dst := (8192, 4096),   srcOff := 0,   dstOff := 64,   len := 1024,   sig := false,   cte := false,   ct := 7,   begun := true,   left := 2,   writes := 0,   closing := true,   failed := false }), shown (states.getD 2 State.reset) ?_ ?_⟩,
    ⟨(0), ({ w0 := 0x0000000540120009#64,   w1 := 0x0085000400030009#64,   w2 := 0x0000000000000000#64,   w3 := 0x000000000000004d#64,   payload := [] }), (1), ({ serial := 4,   src := (256, 1099511628288),   dst := (8192, 1099511631872),   srcOff := 0,   dstOff := 64,   len := 1024,   sig := false,   cte := false,   ct := 7,   begun := true,   left := 2,   writes := 0,   closing := false,   failed := false }), shown (states.getD 5 State.reset) ?_ ?_⟩,
    ⟨(0), ({ w0 := 0x0000003340120009#64,   w1 := 0x0007000400030009#64,   w2 := 0x0000000000000200#64,   w3 := 0x000000000000004d#64,   payload := [] }), (1), ({ serial := 6,   src := (256, 1099511628288),   dst := (8192, 4096),   srcOff := 0,   dstOff := 64,   len := 1024,   sig := false,   cte := false,   ct := 7,   begun := true,   left := 2,   writes := 0,   closing := true,   failed := false }), shown (states.getD 5 State.reset) ?_ ?_⟩,
    ⟨(0), ({ w0 := 0x0000000480120009#64,   w1 := 0x0000000400030009#64,   w2 := 0x0000000000000037#64,   w3 := 0x000000000000004d#64,   payload := [] }), shown (states.getD 0 State.reset) ?_ ?_⟩,
    ⟨(0), ({ w0 := 0x0000002580000009#64,   w1 := 0x0000000400030009#64,   w2 := 0x0000000000000003#64,   w3 := 0x000000000000004d#64,   payload := [] }), shown (states.getD 6 State.reset) ?_ ?_⟩,
    ⟨(0), ({ w0 := 0x0000002580020009#64,   w1 := 0x0000000400030009#64,   w2 := 0x0000000000000003#64,   w3 := 0x000000000000004d#64,   payload := [] }), shown (states.getD 7 State.reset) ?_ ?_⟩,
    ⟨(0), ({ w0 := 0x0000000480120009#64,   w1 := 0x0000000400030009#64,   w2 := 0x0000000000000037#64,   w3 := 0x000000000000004d#64,   payload := [] }), shown (states.getD 0 State.reset) ?_ ?_⟩,
    ⟨(0), ({ w0 := 0x0000000480120009#64,   w1 := 0x0000000400030009#64,   w2 := 0x0000000000000037#64,   w3 := 0x000000000000004d#64,   payload := [] }), shown (states.getD 2 State.reset) ?_ ?_⟩,
    ⟨(0), ({ w0 := 0x0000001680020009#64,   w1 := 0x0000000400030009#64,   w2 := 0x0000000000000005#64,   w3 := 0x000000000000004d#64,   payload := [] }), shown (states.getD 2 State.reset) ?_ ?_⟩⟩
  all_goals repeat' first | decide +kernel | (with_reducible first | refine State.wordFits_of ?_ | refine sidecars_of ?_ | refine apart_of ?_ ?_ ?_ | refine notWaiting_of ?_ | refine reaches_of ?_ | refine plainWord_of ?_ | refine forall_covers ?_ | refine placed_bed ?_ | refine placed_sync ?_ | refine placed_tie ?_ | refine State.branchable_of ?_ | refine ok_of ?_ | refine Sparse.sorted_of_sortedB _ ?_ | exact List.mem_cons_self | unfold vectorOk | refine error_of ?_ | refine ⟨1, 3, by decide +kernel, ?_⟩) | (intro h; exact absurd h (by decide +kernel)) | (intro q h4 h8; revert h4; revert h8; revert q; decide +kernel) | (refine Or.inl (by decide +kernel)) | (refine Or.inr (by decide +kernel)) | apply And.intro | (refine Exists.intro _ ?_) | (with_reducible constructor) | rfl | intro _
end ResponsesAndMessages

/-! Courses -/
namespace Courses
def wb (c : Nat) := 0x10000000000 + c * 0x100000
def mkb (h s m v t x y : Nat) : Bundle := BitVec.ofNat 256 (h + s * 2 ^ 8 + m * 2 ^ 40 + v * 2 ^ 104 + t * 2 ^ 160 + x * 2 ^ 184 + y * 2 ^ 232)
def X1 : Nat := 1 + 3 * 2 ^ 5 + 4 * 2 ^ 11 + 2 * 2 ^ 16 + 5 * 2 ^ 25
def X2 : Nat := 2 + 1 * 2 ^ 5 + 1 * 2 ^ 7 + 3 * 2 ^ 8 + 4 * 2 ^ 14 + 2 * 2 ^ 19 + 5 * 2 ^ 27
def bl : List Bundle := [mkb 0 0 0 0 0 X1 0, mkb 1 0 0 0 0 X2 0, mkb 2 0 0 0 0 X1 0, mkb 0xFF 0 0 0 0 0 0, mkb 0 0x3F 0 0 0 0 0, mkb 0 0 0xF 0 0 0 0, 0, mkb 3 0x100000 0 0 0 0 7]
def tk (c len : Nat) (mk : State → State) : State :=
  let s := mk (up.wr Reg.CMD_OPS_STATE 0 0 2)
  let s := s.wr Reg.SEQ_ENTRY c 0 64
  let s := { s with task := { s.task with parts := [c], first := false }, mem := [(wb c + 2048 + 0, BitVec.ofNat 8 (len % 256)), (wb c + 2048 + 1, BitVec.ofNat 8 (len / 256 % 256)), (wb c + 2048 + 2, BitVec.ofNat 8 (len / 65536)), (wb c + 2048 + 32 + 5, 7#8), (wb c + 2048 + 64 + 5, 9#8)].filter fun x => x.2 != 0#8 }
  s.applyPending
def run1 : State :=
  let s := (setR (inTask up [0, 1]) [(Reg.HANDLE_BASE, 1, 3, 64), (Reg.HANDLE_EXTENT, 1, 3, 4096), (Reg.HANDLE_KIND, 1, 3, 1)]).setS 1 4 32
  { s with mem := [(wb 1 + 64 + 32, 1#8), (wb 1 + 100, 2#8)] }
def hbs (s : State) (b : Bundle) : State := s.mapCore 1 fun k => { k with bbuf := Sparse.put emptySlot k.bbuf (k.seq.nextIndex % 128) (k.seq.nextIndex, b) }
def held1 : List State := (bl.map (hbs run1)) ++ (bl.flatMap fun b => [Slot.s, .m, .v, .t, .x, .y].map fun sl => hbs run1 (coded sl 0 b))
def lng (s : State) : State := s.mapSeq 1 fun q => { q with len := 2 ^ 23 }
def ended (s : State) : State := (s.mapSeq 1 fun q => { q with endEntry := some 100 })
def states : List State := [up, fr up, tk 1 30 id, tk 1 0 id, tk 1 30000 id, tk 1 300 (fun s => s.setD Reg.POWER_TOOTH_TICK 0), tk 1 30 (fun s => s.setD Reg.CTRL_PERIOD 80), tk 0 30 id, tk 0 200 id, run1, (run1.mapSeq 1 fun q => { q with nextIndex := 3, index := 2 }),
  (ended run1).holdCore 1 .drain, (lng (inTask up [1])), (lng (inTask up [1])).setForce Reg.CTRL_SLIP_ENABLE 1, ((lng (inTask up [1])).setForce Reg.CTRL_SLIP_ENABLE 1).setD Reg.PLACE_ROLE 0x19, run1, { run1 with task := { run1.task with halts := [(1, run1.coreLin 1)] } }, { run1 with task := { run1.task with halts := [(0, 5),(1, 0)] } }, { (lng (inTask up [1])).setForce Reg.CTRL_SLIP_ENABLE 1 with slip := ⟨[], [], some (((lng (inTask up [1])).tickCount + 2 ^ 40 - 1) % 2 ^ 40)⟩ }] ++ held1
theorem witness :
  let lenOf (s : State) (c : Nat) : Nat := fld (ofBytes (s.bytesAt (windowBase c + 32 * s.cf Reg.SEQ_ENTRY c) 32)) 23 0
  let one (s : State) (c : Nat) : Prop := s.clocksRun = true ∧ s.Settled ∧ s.taskState = 2 ∧ s.task.parts = [c] ∧ s.task.first = false ∧
    s.task.waiting = false ∧ s.task.cancel = none ∧ s.task.suspend = none ∧ (s.core c).seq.inCourse = false ∧ (s.core c).moveIn = [] ∧ c < 1024 ∧
    s.slip.due = [] ∧ s.marks = [] ∧ s.inForce Reg.POWER_TOOTH_TICK ≠ 1 ∧ s.task.halts = []
  let opens (s : State) (c : Nat) (sl : Slot) (b : Bundle) : Prop := s.issuing c = true ∧ slotBorrowed b sl = false ∧
    ¬((s.core c).seq.bundle = b ∧ (s.core c).seq.lastSlot < slotCode sl)
  let late (s : State) (c : Nat) : Prop := s.clocksRun = true ∧ s.unretired = [c] ∧ s.taskRuns = true ∧ 2 ≤ s.taskState ∧
    s.slip.overAt ≠ some s.tickCount ∧ s.tooLong s.deadlineLin c = false
  (Meets .courseTick (fun s => s.clocksRun = true ∧ s.taskRuns = false ∧ s.task.halts = [])) ∧
  (∃ c, Meets .courseTick (fun s => one s c ∧ lenOf s c ≠ 0 ∧ s.admits c 0 (lenOf s c) = true)) ∧
  (∃ c, Meets .courseTick (fun s => one s c ∧ lenOf s c = 0)) ∧
  (∃ c, Meets .courseTick (fun s => one s c ∧ lenOf s c ≠ 0 ∧ s.admits c 0 (lenOf s c) = false)) ∧
  (∃ c, Meets (.demandFetch c) (fun s => s.issuing c = true ∧ (s.core c).seq.endEntry = none ∧
        (Sparse.get emptySlot (s.core c).bbuf ((s.core c).seq.nextIndex % 128)).1 ≠ (s.core c).seq.nextIndex)) ∧
  (∃ c, ∃ index, ∃ b, ∃ depth, ∃ (p : FillArgs), ∃ src, Meets (.runaheadFill c index b depth) (fun s => s.issuing c = true ∧ (s.core c).seq.endEntry = none ∧ borrowsX b = false ∧
        (∃ x ∈ aheadPath s c 64 (s.aheadStart c), x.1.index = index ∧ x.1.depth = depth ∧ x.2 = b) ∧
        fillArgs s c (bX b) = some p ∧ p.source (s.handleNow c p.h) (fld (s.sregNext c p.so) 23 0) = some src ∧
        shadowUse s c p.buf + p.len ≤ 8192 ∧ s.bankWanted c src p.len = false ∧ s.marks = [])) ∧
  (∃ c, ∃ e, Meets (.courseEndRetire c) (fun s => s.clocksRun = true ∧ (s.core c).seq.endEntry = some e ∧ s.heldFor c .drain = true ∧ s.drained c = true ∧ s.task.halts = [] ∧
        s.coreLin c + ((s.core c).seq.drainAt - (s.core c).seq.cycle) ≤ s.deadlineLin)) ∧
  (∃ c, ∃ sl, ∃ b,
  let b' := coded sl 0 b;
  let q (s : State) : Sequencer := (s.core c).seq;
    ∃ slot, ∃ reason, Meets (.nop c sl b) (fun s => opens s c sl b' ∧ s.task.halts = [] ∧ (q s).endEntry = none ∧ (q s).nextCycle < (q s).len ∧ (s.core c).holds b' = true ∧
        (s.core c).parityBad = [] ∧ s.taskRuns = true ∧ bundleBreach b' = some (slot, reason))) ∧
  (∃ c, ∃ sl, ∃ b,
  let b' := coded sl 0 b;
  let q (s : State) : Sequencer := (s.core c).seq;
    Meets (.nop c sl b) (fun s => opens s c sl b' ∧ s.stopReaches c (s.coreLin c + ((q s).nextCycle - (q s).cycle)) = true)) ∧
  (∃ c, Meets .courseOverrun (fun s => late s c ∧ s.inForce Reg.CTRL_SLIP_ENABLE = 0)) ∧
  (∃ c, Meets .courseOverrun (fun s => late s c ∧ s.inForce Reg.CTRL_SLIP_ENABLE ≠ 0 ∧
      ∃ x, s.slip.overAt = some x ∧ (x + 1) % 2 ^ 40 = s.tickCount)) ∧
  (∃ c, Meets .courseOverrun (fun s => late s c ∧ s.inForce Reg.CTRL_SLIP_ENABLE ≠ 0 ∧ s.slip = Slip.init)) := by
  refine ⟨shown (states.getD 0 State.reset) ?_ ?_,
    ⟨(0), shown (states.getD 7 State.reset) ?_ ?_⟩,
    ⟨(1), shown (states.getD 3 State.reset) ?_ ?_⟩,
    ⟨(1), shown (states.getD 4 State.reset) ?_ ?_⟩,
    ⟨(0), shown (states.getD 9 State.reset) ?_ ?_⟩,
    ⟨(1), (0), (0x00000000000a0220610000000000000000000000000000000000000000000000#256), (0), ({ buf := 0, size := 8192, h := 3, so := 4, dst := 32, len := 96, ok := true }), (96), shown (states.getD 19 State.reset) ?_ ?_⟩,
    ⟨(1), (100), shown (states.getD 11 State.reset) ?_ ?_⟩,
    ⟨(1), (Sys2Proof.Slot.s), (0x00000000000000000000000000000000000000000000000000000000000000ff#256), (0), (1), shown (states.getD 22 State.reset) ?_ ?_⟩,
    ⟨(0), (Sys2Proof.Slot.s), (0x00000000000a0220610000000000000000000000000000000000000000000000#256), shown (states.getD 17 State.reset) ?_ ?_⟩,
    ⟨(1), shown (states.getD 12 State.reset) ?_ ?_⟩,
    ⟨(1), shown (states.getD 18 State.reset) ?_ ?_⟩,
    ⟨(1), shown (states.getD 13 State.reset) ?_ ?_⟩⟩
  all_goals repeat' first | decide +kernel | (with_reducible first | refine State.wordFits_of ?_ | refine sidecars_of ?_ | refine apart_of ?_ ?_ ?_ | refine notWaiting_of ?_ | refine reaches_of ?_ | refine plainWord_of ?_ | refine forall_covers ?_ | refine placed_bed ?_ | refine placed_sync ?_ | refine placed_tie ?_ | refine State.branchable_of ?_ | refine ok_of ?_ | refine Sparse.sorted_of_sortedB _ ?_ | exact List.mem_cons_self | unfold vectorOk | refine error_of ?_ | refine ⟨1, 3, by decide +kernel, ?_⟩) | (intro h; exact absurd h (by decide +kernel)) | (intro q h4 h8; revert h4; revert h8; revert q; decide +kernel) | (refine Or.inl (by decide +kernel)) | (refine Or.inr (by decide +kernel)) | apply And.intro | (refine Exists.intro _ ?_) | (with_reducible constructor) | rfl | intro _
end Courses

/-! MemoryGrants -/
namespace MemoryGrants
def d8 : List Byte := (List.range 8).map fun i => BitVec.ofNat 8 (i + 1)
def wb (c : Nat) := 0x10000000000 + c * 0x100000
def P1 (cr : Bool) : Packet := pk 0 0 0 8 d8 0x100 (dst := (9, 2, 1, 1)) (tag := 9) (creq := cr)
def acc (a : Nat) (w : Bool) (cr : Bool) : Access := ⟨.packet (P1 cr), 3, up.lin, 0, 0, a, if w then some d8 else none, [⟨a, 8, false, []⟩], false⟩
def A := [acc 0x100 true true, acc 0x1000 true false, acc 0x180 false false, acc (wb 1 + 0x208) true true, acc (wb 1 + 0x408) false true, acc (2 ^ 21 + 0x80) true true]
def q (l : List Access) : State := { up with net := { up.net with accesses := l }, mem := [(0x101, 9#8), (0x180, 3#8), (wb 1 + 0x20b, 4#8), (wb 1 + 0x408, 4#8)] }
def states : List State := (A.map fun a => q [a]) ++ [q A, q A.reverse, fr (q A)]
theorem witness :
  let oldest (s : State) (here : Nat → Bool) (x : Access) (q : Piece) : Prop := s.clocksRun = true ∧ s.marks = [] ∧
    s.net.accesses.find? (fun x => x.waits here) = some x ∧ x.pieces = [q] ∧ q.done = false ∧ x.bad = false
  (∃ (x : Access), ∃ (q : Piece), ∃ (p : Packet), (x.owner = .packet p) ∧ ∃ c, ∃ b, ∃ lat,
  let none_ (s : State) : Prop := ∀ y ∈ s.net.accesses, y.scheduled = true → y.waits (inBank c b) = false;
    Meets (.bedGrant c b false lat) (fun s => oldest s (inBank c b) x q ∧ none_ s ∧ x.data ≠ none)) ∧
  (∃ (x : Access), ∃ (q : Piece), ∃ (p : Packet), (x.owner = .packet p) ∧ ∃ c, ∃ b, ∃ lat,
  let none_ (s : State) : Prop := ∀ y ∈ s.net.accesses, y.scheduled = true → y.waits (inBank c b) = false;
    Meets (.bedGrant c b false lat) (fun s => oldest s (inBank c b) x q ∧ none_ s ∧ x.data = none)) ∧
  (∃ (x : Access), ∃ (q : Piece), ∃ (p : Packet), (x.owner = .packet p) ∧ ∃ u, ∃ b, Meets (.yardGrant u b) (fun s => oldest s (inSubBank u b) x q ∧ x.data ≠ none)) ∧
  (∃ (x : Access), ∃ (q : Piece), ∃ (p : Packet), (x.owner = .packet p) ∧ ∃ u, ∃ b, Meets (.yardGrant u b) (fun s => oldest s (inSubBank u b) x q ∧ x.data = none)) := by
  refine ⟨⟨({ owner := Sys2Proof.Machine.Owner.packet              { w0 := 0x0140800000120009#64,                w1 := 0x0009000400030009#64,                w2 := 0x0000000000000100#64,                w3 := 0x000000000000004d#64,                payload := [0x01#8, 0x02#8, 0x03#8, 0x04#8, 0x05#8, 0x06#8, 0x07#8, 0x08#8] },   serial := 3,   since := 42600,   input := 0,   vl := 0,   base := 1099512676872,   data := some [0x01#8, 0x02#8, 0x03#8, 0x04#8, 0x05#8, 0x06#8, 0x07#8, 0x08#8],   pieces := [{ addr := 1099512676872, len := 8, done := false, got := [] }],   bad := false }), ({ addr := 1099512676872, len := 8, done := false, got := [] }), ({ w0 := 0x0140800000120009#64,   w1 := 0x0009000400030009#64,   w2 := 0x0000000000000100#64,   w3 := 0x000000000000004d#64,   payload := [0x01#8, 0x02#8, 0x03#8, 0x04#8, 0x05#8, 0x06#8, 0x07#8, 0x08#8] }), ?_, (1), (1), (0), shown (states.getD 3 State.reset) ?_ ?_⟩,
    ⟨({ owner := Sys2Proof.Machine.Owner.packet              { w0 := 0x0140800000120009#64,                w1 := 0x0009000400030009#64,                w2 := 0x0000000000000100#64,                w3 := 0x000000000000004d#64,                payload := [0x01#8, 0x02#8, 0x03#8, 0x04#8, 0x05#8, 0x06#8, 0x07#8, 0x08#8] },   serial := 3,   since := 42600,   input := 0,   vl := 0,   base := 1099512677384,   data := none,   pieces := [{ addr := 1099512677384, len := 8, done := false, got := [] }],   bad := false }), ({ addr := 1099512677384, len := 8, done := false, got := [] }), ({ w0 := 0x0140800000120009#64,   w1 := 0x0009000400030009#64,   w2 := 0x0000000000000100#64,   w3 := 0x000000000000004d#64,   payload := [0x01#8, 0x02#8, 0x03#8, 0x04#8, 0x05#8, 0x06#8, 0x07#8, 0x08#8] }), ?_, (1), (2), (0), shown (states.getD 4 State.reset) ?_ ?_⟩,
    ⟨({ owner := Sys2Proof.Machine.Owner.packet              { w0 := 0x0140800000120009#64,                w1 := 0x0009000400030009#64,                w2 := 0x0000000000000100#64,                w3 := 0x000000000000004d#64,                payload := [0x01#8, 0x02#8, 0x03#8, 0x04#8, 0x05#8, 0x06#8, 0x07#8, 0x08#8] },   serial := 3,   since := 42600,   input := 0,   vl := 0,   base := 256,   data := some [0x01#8, 0x02#8, 0x03#8, 0x04#8, 0x05#8, 0x06#8, 0x07#8, 0x08#8],   pieces := [{ addr := 256, len := 8, done := false, got := [] }],   bad := false }), ({ addr := 256, len := 8, done := false, got := [] }), ({ w0 := 0x0140800000120009#64,   w1 := 0x0009000400030009#64,   w2 := 0x0000000000000100#64,   w3 := 0x000000000000004d#64,   payload := [0x01#8, 0x02#8, 0x03#8, 0x04#8, 0x05#8, 0x06#8, 0x07#8, 0x08#8] }), ?_, (0), (0), shown (states.getD 0 State.reset) ?_ ?_⟩,
    ⟨({ owner := Sys2Proof.Machine.Owner.packet              { w0 := 0x0100800000120009#64,                w1 := 0x0009000400030009#64,                w2 := 0x0000000000000100#64,                w3 := 0x000000000000004d#64,                payload := [0x01#8, 0x02#8, 0x03#8, 0x04#8, 0x05#8, 0x06#8, 0x07#8, 0x08#8] },   serial := 3,   since := 42600,   input := 0,   vl := 0,   base := 384,   data := none,   pieces := [{ addr := 384, len := 8, done := false, got := [] }],   bad := false }), ({ addr := 384, len := 8, done := false, got := [] }), ({ w0 := 0x0100800000120009#64,   w1 := 0x0009000400030009#64,   w2 := 0x0000000000000100#64,   w3 := 0x000000000000004d#64,   payload := [0x01#8, 0x02#8, 0x03#8, 0x04#8, 0x05#8, 0x06#8, 0x07#8, 0x08#8] }), ?_, (0), (1), shown (states.getD 2 State.reset) ?_ ?_⟩⟩
  all_goals repeat' first | decide +kernel | (with_reducible first | refine State.wordFits_of ?_ | refine sidecars_of ?_ | refine apart_of ?_ ?_ ?_ | refine notWaiting_of ?_ | refine reaches_of ?_ | refine plainWord_of ?_ | refine forall_covers ?_ | refine placed_bed ?_ | refine placed_sync ?_ | refine placed_tie ?_ | refine State.branchable_of ?_ | refine ok_of ?_ | refine Sparse.sorted_of_sortedB _ ?_ | exact List.mem_cons_self | unfold vectorOk | refine error_of ?_ | refine ⟨1, 3, by decide +kernel, ?_⟩) | (intro h; exact absurd h (by decide +kernel)) | (intro q h4 h8; revert h4; revert h8; revert q; decide +kernel) | (refine Or.inl (by decide +kernel)) | (refine Or.inr (by decide +kernel)) | apply And.intro | (refine Exists.intro _ ?_) | (with_reducible constructor) | rfl | intro _
end MemoryGrants

/-! ScrubAndRepair -/
namespace ScrubAndRepair
def wb (c : Nat) := 0x10000000000 + c * 0x100000
def ba : State := setDs { up with mem := [(0x200001, 9#8), (wb 1 + 8, 4#8)] } [(Reg.YARD_SCRUB_EN, 1)]
def rep (s : State) (l : List (Nat × Nat × Nat)) : State := ({ s with repairs := l }).wr Reg.CMD_OPS_STATE 0 4 2
def yrep (s : State) (u n : Nat) : State := ((List.range n).foldl (fun s k => (s.wr Reg.YREP_VALID u k 1).wr Reg.YREP_ROW u k (k + 200)) s).wr Reg.YREP_USED u 0 n
def ful : State := let s := (rep ba [(1, 1, 3)]).wr Reg.YREP_USED 1 0 512; { s with regs := s.regs ++ (List.range 512).map fun i => (Reg.YREP_VALID.key 1 0 + 256 * i, 1) }
def states : List State := [ba, fr ba, inTask ba [0, 1], rep ba [(0, 1, 3), (1, 1, 3), (0, 1, 67)], rep ba [(0, 1, 67), (1, 1, 64)], rep (yrep ba 1 3) [(1, 1, 100), (1, 1, 3)], ful, rep (ba.setSpareByte 1 1 77) [(0, 1, 67)], ba.setSpareByte 1 1 77, ((ba.wr Reg.CMD_OPS_STATE 0 4 5))]
theorem witness :
  let clean (s : State) (mem u row : Nat) : Prop := s.clocksRun = true ∧ s.df Reg.YARD_SCRUB_EN ≠ 0 ∧ row ≠ lastRow mem ∧
    (∀ w ∈ rowWords mem u row, s.markAt w = 0) ∧ ((mem = 0 ∧ u < 1024 ∧ s.domainOn (groupOf u) = true) ∨ (mem = 1 ∧ u < 64))
  let spare (s : State) (mem u row : Nat) : Prop := if mem = 0 then s.spareByte u (row / 64) < 64 else s.freeSpare u ≠ none
  (∃ mem, ∃ u, ∃ row, Meets (.scrubRead mem u row [] []) (fun s => clean s mem u row)) ∧
  (∃ mem, ∃ u, ∃ row, ∃ w, (w ∈ rowWords mem u row) ∧ Meets (.scrubRead mem u row [(w, 1)] []) (fun s => clean s mem u row)) ∧
  (∃ mem, ∃ u, ∃ row, ∃ w, (w ∈ rowWords mem u row) ∧ Meets (.scrubRead mem u row [(w, 1)] [w]) (fun s => clean s mem u row ∧ (mem, u, row) ∉ s.repairs ∧ spare s mem u row)) ∧
  (∃ mem, ∃ u, ∃ row, ∃ w, (w ∈ rowWords mem u row) ∧ (row % 64 < 48) ∧ (row < 4096) ∧ Meets (.scrubRead mem u row [(w, 1)] [w]) (fun s => clean s mem u row ∧ ¬ spare s mem u row)) ∧
  (∃ mem, ∃ u, ∃ row, ∃ w, (w ∈ rowWords mem u row) ∧ Meets (.scrubRead mem u row [(w, 2)] []) (fun s => clean s mem u row ∧ s.taskRuns = false ∧ spare s mem u row)) ∧
  (∃ c, ∃ row, (row < 1024) ∧
  let bank := row / 64;
  let ready (s : State) : Prop := s.clocksRun = true ∧ s.marks = [] ∧ s.repairing = true ∧ s.bedFree c = true ∧
      s.repairs.find? (fun x => decide (x.1 = 0) && decide (x.2.1 = c)) = some (0, c, row);
    Meets (.bedRepairWindow c) (fun s => ready s ∧ s.spareByte c bank < 64)) ∧
  (∃ c, ∃ row, (row < 1024) ∧
  let bank := row / 64;
  let ready (s : State) : Prop := s.clocksRun = true ∧ s.marks = [] ∧ s.repairing = true ∧ s.bedFree c = true ∧
      s.repairs.find? (fun x => decide (x.1 = 0) && decide (x.2.1 = c)) = some (0, c, row);
    Meets (.bedRepairWindow c) (fun s => ready s ∧ 64 ≤ s.spareByte c bank)) ∧
  (∃ u, ∃ row, (u < 64) ∧ (row < 4096) ∧
  let ready (s : State) : Prop := s.clocksRun = true ∧ s.marks = [] ∧ s.repairing = true ∧
      s.repairs.find? (fun x => decide (x.1 = 1) && decide (x.2.1 = u)) = some (1, u, row);
    ∃ e, Meets (.yardRepairWindow u) (fun s => ready s ∧ s.freeSpare u = some e ∧ ∀ k < 512, s.rd Reg.YREP_VALID u k = 1 → s.rd Reg.YREP_ROW u k ≠ row)) ∧
  (∃ u, ∃ row, (u < 64) ∧ (row < 4096) ∧
  let ready (s : State) : Prop := s.clocksRun = true ∧ s.marks = [] ∧ s.repairing = true ∧
      s.repairs.find? (fun x => decide (x.1 = 1) && decide (x.2.1 = u)) = some (1, u, row);
    Meets (.yardRepairWindow u) (fun s => ready s ∧ s.freeSpare u = none)) := by
  refine ⟨⟨(0), (0), (0), shown (states.getD 0 State.reset) ?_ ?_⟩,
    ⟨(0), (0), (0), (1099511627776), ?_, shown (states.getD 0 State.reset) ?_ ?_⟩,
    ⟨(0), (0), (0), (1099511627776), ?_, shown (states.getD 0 State.reset) ?_ ?_⟩,
    ⟨(0), (1), (64), (1099512676864), ?_, ?_, ?_, shown (states.getD 7 State.reset) ?_ ?_⟩,
    ⟨(0), (0), (0), (1099511627776), ?_, shown (states.getD 0 State.reset) ?_ ?_⟩,
    ⟨(1), 3, ?_, shown (states.getD 3 State.reset) ?_ ?_⟩,
    ⟨(1), 67, ?_, shown (states.getD 7 State.reset) ?_ ?_⟩,
    ⟨(1), (3), ?_, ?_, (0), shown (states.getD 3 State.reset) ?_ ?_⟩,
    ⟨(1), (3), ?_, ?_, shown (states.getD 6 State.reset) ?_ ?_⟩⟩
  all_goals repeat' first | (refine ⟨?_, freeSpare_none _ rfl ?_ ?_⟩) | decide +kernel | (with_reducible first | refine State.wordFits_of ?_ | refine sidecars_of ?_ | refine apart_of ?_ ?_ ?_ | refine notWaiting_of ?_ | refine reaches_of ?_ | refine plainWord_of ?_ | refine forall_covers ?_ | refine placed_bed ?_ | refine placed_sync ?_ | refine placed_tie ?_ | refine State.branchable_of ?_ | refine ok_of ?_ | refine Sparse.sorted_of_sortedB _ ?_ | exact List.mem_cons_self | unfold vectorOk | refine error_of ?_ | refine ⟨1, 3, by decide +kernel, ?_⟩) | (intro h; exact absurd h (by decide +kernel)) | (intro q h4 h8; revert h4; revert h8; revert q; decide +kernel) | (refine Or.inl (by decide +kernel)) | (refine Or.inr (by decide +kernel)) | apply And.intro | (refine Exists.intro _ ?_) | (with_reducible constructor) | rfl | intro _
end ScrubAndRepair

/-! SyncRegisters -/
namespace SyncRegisters
def W (s : State) (c w i v : Nat) : State := s.mapCore c fun k => { k with windows := Sparse.put 0 k.windows (8 * w + i) v }
def s0 : State := { up with net := { up.net with staleDies := [(9, 3)] } }
def sA : State := setR s0 [(Reg.RING_STALE_EPOCH, 0, 0, 7), (Reg.RING_STALE_VALID, 0, 0, 1), (Reg.ARCH_MASK, 0, 16, 6), (Reg.ARCH_MASK, 0, 32, 6), (Reg.ARCH_OPEN, 0, 1, 1), (Reg.SYNC_ARRIVED, 1, 0, 2), (Reg.ARCH_ARRIVED_COUNT, 0, 1, 1)]
def sB : State := { sA with sync := { sA.sync with arches := [(1, ⟨false, 4, 0, none⟩), (2, ⟨true, 0, 0, none⟩)], awaits := [⟨1, 1, none⟩, ⟨2, 2, none⟩] } }
def cross (s : State) (m : Bool) : State := setR s [(Reg.ARCH_CROSS, 0, 1, 1), (Reg.ARCH_DIES, 0, 1, 13), (Reg.PLACE_MASTER, 0, 0, if m then 1 else 0), (Reg.PLACE_DIE_ID, 0, 0, if m then 0 else 2)]
def sT : State := W (W (W (sB.setD Reg.ARCH_HANDSET_VALUE 77) 1 3 0 1) 1 3 2 9) 1 8 0 3
def winOK (s : State) (c w : Nat) : State := W (W (W s c w 0 (2 + 5 * 2 ^ 8)) c w 1 0) c w 4 (2 ^ 30)
def dmp : State := ((setDs (W (W sB 1 3 0 1) 1 3 2 9) [(Reg.ARCH_DUMP_BUSY, 1), (Reg.ARCH_DUMP_BASE, 0x1000)]).mapCore 1 fun k => { k with ties := [(3, 9)] })
def states : List State := [sB, sT, cross sB true, cross sB false, W (winOK sT 1 2) 1 5 0 8, W sT 1 5 1 8, dmp]
theorem witness :
  let forced (s : State) (path : Path) (a : Nat) : Prop := s.Writable path Reg.ARCH_FORCE 0 a ∧ s.clocksRun = true ∧ s.taskRuns = false ∧
    ∀ w ∈ s.sync.awaits, w.arch = a → ∀ d, w.deadline = some d → max (s.lin + 1) (s.phase a).last ≤ d
  let aimed (s : State) (path : Path) (c index : Nat) : Prop :=
    s.frozen = false ∧ path ≠ .other ∧ s.clocksRun = true ∧ c < 1024 ∧ index < 256 ∧ s.coreAlive c = true
  (∃ path, ∃ v, Meets (.epochWrite path v) (fun s => s.Writable path Reg.RING_CURRENT 0 0)) ∧
  (∃ path, ∃ a, (a < 8) ∧ Meets (.archForce path a) (fun s => forced s path a ∧ s.cross a = false)) ∧
  (∃ path, ∃ a, (a < 8) ∧ Meets (.archForce path a) (fun s => forced s path a ∧ s.cross a = true ∧ s.isMaster = true)) ∧
  (∃ path, ∃ a, (a < 8) ∧ Meets (.archForce path a) (fun s => forced s path a ∧ s.cross a = true ∧ s.isMaster = false)) ∧
  (∃ path, ∃ c, ∃ index, Meets (.handsetTie path c index) (fun s => aimed s path c index ∧ s.df Reg.ARCH_HANDSET_VALUE < 2 ^ 64 ∧ (∀ x ∈ s.sync.slots, ¬ (x.req.home = c ∧ x.req.tie = index)) ∧
        (∀ q ∈ s.sync.registering, q.home = c → s.lin + 1 < q.at_) ∧ ∀ u ∈ s.sync.updates, u.home = c → u.tie = index → s.lin + 1 < u.due)) ∧
  (∃ path, ∃ c, ∃ index,
  let w := index % 32;
    Meets (.handsetOpen path c index) (fun s => aimed s path c index ∧ s.windowOpen c w = false ∧ s.winOk c w = true ∧ s.winLate c w ≤ 1)) ∧
  (∃ path, ∃ c, ∃ index,
  let w := index % 32;
    Meets (.handsetOpen path c index) (fun s => aimed s path c index ∧ s.windowOpen c w = true)) ∧
  (∃ path, ∃ c, ∃ index,
  let w := index % 32;
    Meets (.handsetOpen path c index) (fun s => aimed s path c index ∧ s.windowOpen c w = false ∧ s.winOk c w = false ∧ s.cf Reg.SYNC_FAULT c = 0)) ∧
  (∃ path, ∃ c, ∃ index, Meets (.handsetClose path c index) (fun s => aimed s path c index)) ∧
  (∃ path, ∃ c, ∃ index, ∃ i ∈ [Instr.handsetTie path c index, .handsetOpen path c index, .handsetClose path c index], Meets i (fun s => s.frozen = false ∧ path ≠ .other ∧ c < 1024 ∧ index < 256 ∧ s.coreAlive c = false)) ∧
  (∃ path, ∃ base, (base < 2 ^ 27) ∧ Meets (.dumpGo path base) (fun s => s.frozen = false ∧ path ≠ .other ∧ base % 4096 = 0 ∧ base + 0x600800 ≤ yardSize)) ∧
  (∃ path, ∃ base, (base < 2 ^ 27) ∧ Meets (.dumpGo path base) (fun s => s.frozen = false ∧ path ≠ .other ∧ (base % 4096 ≠ 0 ∨ yardSize < base + 0x600800))) ∧
  (Meets .dumpDone (fun s => s.clocksRun = true ∧ s.df Reg.ARCH_DUMP_BUSY = 1)) := by
  refine ⟨⟨(Sys2Proof.Path.trowel), (1), shown (states.getD 0 State.reset) ?_ ?_⟩,
    ⟨(Sys2Proof.Path.trowel), 0, ?_, shown (states.getD 0 State.reset) ?_ ?_⟩,
    ⟨(Sys2Proof.Path.trowel), 1, ?_, shown (states.getD 2 State.reset) ?_ ?_⟩,
    ⟨(Sys2Proof.Path.trowel), 1, ?_, shown (states.getD 3 State.reset) ?_ ?_⟩,
    ⟨(Sys2Proof.Path.trowel), (1), (1), shown (states.getD 0 State.reset) ?_ ?_⟩,
    ⟨(Sys2Proof.Path.trowel), (1), (1), shown (states.getD 0 State.reset) ?_ ?_⟩,
    ⟨(Sys2Proof.Path.trowel), (1), (3), shown (states.getD 1 State.reset) ?_ ?_⟩,
    ⟨(Sys2Proof.Path.trowel), (1), (5), shown (states.getD 5 State.reset) ?_ ?_⟩,
    ⟨(Sys2Proof.Path.trowel), (1), (1), shown (states.getD 0 State.reset) ?_ ?_⟩,
    ⟨(Sys2Proof.Path.trowel), (900), (1), (Sys2Proof.Instr.handsetTie (Sys2Proof.Path.trowel) 900 1), ?_, shown (states.getD 0 State.reset) ?_ ?_⟩,
    ⟨(Sys2Proof.Path.trowel), 4096, ?_, shown (states.getD 0 State.reset) ?_ ?_⟩,
    ⟨(Sys2Proof.Path.trowel), 1, ?_, shown (states.getD 0 State.reset) ?_ ?_⟩,
    shown (states.getD 6 State.reset) ?_ ?_⟩
  all_goals repeat' first | decide +kernel | (with_reducible first | refine State.wordFits_of ?_ | refine sidecars_of ?_ | refine apart_of ?_ ?_ ?_ | refine notWaiting_of ?_ | refine reaches_of ?_ | refine plainWord_of ?_ | refine forall_covers ?_ | refine placed_bed ?_ | refine placed_sync ?_ | refine placed_tie ?_ | refine State.branchable_of ?_ | refine ok_of ?_ | refine Sparse.sorted_of_sortedB _ ?_ | exact List.mem_cons_self | unfold vectorOk | refine error_of ?_ | refine ⟨1, 3, by decide +kernel, ?_⟩) | (intro h; exact absurd h (by decide +kernel)) | (intro q h4 h8; revert h4; revert h8; revert q; decide +kernel) | (refine Or.inl (by decide +kernel)) | (refine Or.inr (by decide +kernel)) | apply And.intro | (refine Exists.intro _ ?_) | (with_reducible constructor) | rfl | intro _
end SyncRegisters

/-! TieLimits -/
namespace TieLimits
def tie (s : State) (c t v : Nat) : State := s.mapCore c fun k => { k with ties := Sparse.put 0 k.ties t v }
def u (h t : Nat) (dec : Bool) (a src : Nat) : TieUpdate := ⟨h, t, dec, a, src, 55, 77 + src, up.lin + 5, none⟩
def q1 (take : Bool) (thr : Nat) (dl : Option Nat) : WaitReq := ⟨2, 7, 1, 3, take, thr, dl, up.lin + 4⟩
def q0 (take : Bool) (thr : Nat) (dl : Option Nat) : WaitReq := ⟨0, 7, 0, 0, take, thr, dl, up.lin + 4⟩
def qs := [q1 false 5 none, q1 true 5 none, q1 true 12 (some 90000000), q1 false 0 none, q0 true 2 none]
def base : State := tie (tie (inTask up [0, 1, 2]) 1 3 6) 0 0 2
def sy (s : State) (f : Sync → Sync) : State := { s with sync := f s.sync }
def slots (s : State) (q : List WaitReq) : State := sy s fun y => { y with slots := q.zipIdx.map fun x => ⟨x.2, x.1⟩ }
def up1 (l : List TieUpdate) (q : List WaitReq) (v : Nat) : State := tie (slots (sy base fun y => { y with updates := l }) q) 1 3 v
def states : List State := [up1 [u 1 3 false 4 2, u 1 3 false 7 0] [] (2 ^ 64 - 3), up1 [u 1 3 false 4 2] (qs.take 1) (2 ^ 64 - 3), up1 [u 1 3 false 4 2] (qs) (2 ^ 64 - 3),
  up1 [u 1 3 false 4 2, u 1 3 true 30 0] [] 5, up1 [u 1 3 true 30 0] qs 5, up1 [u 1 3 true 30 0, u 1 3 false 20 0] (qs.take 1) 5, up1 [u 1 3 false (2^64 - 1) 2] [] 1]
theorem witness :
  (∃ h, ∃ k, ∃ n,
  let us (s : State) : List TieUpdate := (takeUpdates (fun _ => true) h k n [] s.sync.updates).1;
  let adds (s : State) : Nat := (((us s).filter fun u => !u.dec).map fun u => u.amount).foldl (· + ·) 0;
  let live (s : State) : Prop := s.clocksRun = true ∧ s.coreAlive h = true ∧ us s ≠ [] ∧ s.TieCalm h k (((us s).map TieUpdate.due).foldl max 0);
    Meets (.tieUpdateDelivered h k n) (fun s => live s ∧ (∀ u ∈ us s, u.dec = false) ∧ 2 ^ 64 ≤ s.tie h k + adds s)) ∧
  (∃ h, ∃ k, ∃ n,
  let us (s : State) : List TieUpdate := (takeUpdates (fun _ => true) h k n [] s.sync.updates).1;
  let adds (s : State) : Nat := (((us s).filter fun u => !u.dec).map fun u => u.amount).foldl (· + ·) 0;
  let live (s : State) : Prop := s.clocksRun = true ∧ s.coreAlive h = true ∧ us s ≠ [] ∧ s.TieCalm h k (((us s).map TieUpdate.due).foldl max 0);
    ∃ u, Meets (.tieUpdateDelivered h k n) (fun s => live s ∧ (us s).filter (fun u => u.dec) = [u] ∧ s.tie h k + adds s < 2 ^ 64 ∧ s.tie h k + adds s < u.amount)) := by
  refine ⟨⟨(1), (3), (1), shown (states.getD 0 State.reset) ?_ ?_⟩,
    ⟨(1), (3), (1), ({ home := 1, tie := 3, dec := true, amount := 30, src := 0, issued := 55, peer := 77, due := 42605, answer := none }), shown (states.getD 4 State.reset) ?_ ?_⟩⟩
  all_goals repeat' first | decide +kernel | (with_reducible first | refine State.wordFits_of ?_ | refine sidecars_of ?_ | refine apart_of ?_ ?_ ?_ | refine notWaiting_of ?_ | refine reaches_of ?_ | refine plainWord_of ?_ | refine forall_covers ?_ | refine placed_bed ?_ | refine placed_sync ?_ | refine placed_tie ?_ | refine State.branchable_of ?_ | refine ok_of ?_ | refine Sparse.sorted_of_sortedB _ ?_ | exact List.mem_cons_self | unfold vectorOk | refine error_of ?_ | refine ⟨1, 3, by decide +kernel, ?_⟩) | (intro h; exact absurd h (by decide +kernel)) | (intro q h4 h8; revert h4; revert h8; revert q; decide +kernel) | (refine Or.inl (by decide +kernel)) | (refine Or.inr (by decide +kernel)) | apply And.intro | (refine Exists.intro _ ?_) | (with_reducible constructor) | rfl | intro _
end TieLimits

/-! SyncEvents -/
namespace SyncEvents
def d8 : List Byte := (List.range 8).map fun i => BitVec.ofNat 8 (i + 1)
def W (s : State) (c w i v : Nat) : State := s.mapCore c fun k => { k with windows := Sparse.put 0 k.windows (8 * w + i) v }
def tie (s : State) (c t v : Nat) : State := s.mapCore c fun k => { k with ties := Sparse.put 0 k.ties t v }
def u (h t : Nat) (dec : Bool) (a src : Nat) : TieUpdate := ⟨h, t, dec, a, src, 55, 77 + src, up.lin + 5, none⟩
def tp : Packet := pk 4 0 0 8 ((List.range 8).map fun i => BitVec.ofNat 8 i) 2 (dst := (9, 2, 0, 901)) (tag := 9) (creq := true)
def us1 : List TieUpdate := [{ u 901 2 false 3 1 with answer := some tp }, u 1 3 false 4 2, u 1 2 false 2 0, u 1 3 false 5 1, u 0 0 true 3 1, u 900 2 false 3 1]
def q1 (take : Bool) (thr : Nat) (dl : Option Nat) : WaitReq := ⟨2, 7, 1, 3, take, thr, dl, up.lin + 4⟩
def q0 (take : Bool) (thr : Nat) (dl : Option Nat) : WaitReq := ⟨0, 7, 0, 0, take, thr, dl, up.lin + 4⟩
def qs := [q1 false 5 none, q1 true 5 none, q1 true 12 (some 90000000), q1 false 0 none, q0 true 2 none]
def results : List WaitResult := [⟨1, false, up.lin + 60⟩, ⟨1, true, up.lin + 60⟩, ⟨2, true, up.lin + 60⟩]
def aws : List ArchWait := [⟨1, 1, some 90000000⟩, ⟨2, 2, none⟩, ⟨2, 1, none⟩]
def wp (cr : Bool) : Packet := pk 0 0 0 8 d8 0x100 (dst := (9, 2, 1, 1)) (tag := 9) (creq := cr) (win := true)
def base : State := tie (tie (inTask up [0, 1, 2]) 1 3 6) 0 0 2
def sy (s : State) (f : Sync → Sync) : State := { s with sync := f s.sync }
def s1 : State := sy base fun y => { y with updates := us1 }
def slots (s : State) (q : List WaitReq) : State := sy s fun y => { y with slots := q.zipIdx.map fun x => ⟨x.2, x.1⟩ }
def full16 (s : State) : State := slots s (List.replicate 16 { q1 true 99 none with tie := 9 })
def reg (s : State) (q : WaitReq) : State := sy s fun y => { y with registering := [q] }
def wk (s : State) (r : List WaitResult) : State := ((sy s fun y => { y with results := r }).holdCore 1 .wait).setD Reg.CTRL_TIMESTAMP (5 * 2 ^ 24 + 150)
def sg (s : State) (c w : Nat) (p : Packet) : State := { s with net := { s.net with signals := [(c, w, p, 0)] } }
def aready (s : State) (a : Nat) : State := sy (setR s [(Reg.ARCH_MASK, 0, 16 * a, 6), (Reg.ARCH_OPEN, 0, a, 1), (Reg.SYNC_ARRIVED, 1, 0, 2 ^ a), (Reg.SYNC_ARRIVED, 2, 0, 2 ^ a + 8), (Reg.ARCH_ARRIVED_COUNT, 0, a, 2)]) fun y => { y with arches := [(a, ⟨true, 0, 0, some (up.lin + 2)⟩)], awaits := aws }
def t1 (s : State) (c a : Nat) : State := let s := (s.wr Reg.CMD_OPS_STATE 0 0 1).wr Reg.CMD_OPS_ID 0 0 6; { s.setC Reg.SEQ_RUN c 0 with task := { s.task with parts := [c], first := true, arch := some a, accepted := 3, waiting := true }}
def up1 (l : List TieUpdate) (q : List WaitReq) (v : Nat) : State := tie (slots (sy base fun y => { y with updates := l }) q) 1 3 v
def states : List State := [up1 [u 1 3 false 4 2] [q1 false 12 none] 3, reg base (q1 true 99 none), s1, reg base (q1 false 5 none), reg (full16 base) (q1 true 99 none), up1 [u 1 3 true 5 0] [] 5, up1 [u 1 3 true 5 0] [] 500, up1 [u 1 3 false 20 0] (qs.take 1) 5,up1 [u 1 3 false 20 0] ((qs.drop 1).take 1) 5, reg base (q1 true 12 (some 90000000)), reg (slots base [q1 true 99 none, q1 false 98 none]) (q1 true 12 (some 90000000)),
  wk base [⟨1, false, up.lin + 60⟩], (wk base [⟨1, true, up.lin + 60⟩]).setForce Reg.POWER_TOOTH_ARCH 1, ((wk base [⟨1, true, up.lin + 60⟩]).setForce Reg.POWER_TOOTH_ARCH 1).setForce Reg.POWER_TOOTH_PATTERN 7,
  (((wk base [⟨1, true, up.lin + 60⟩]).setForce Reg.POWER_TOOTH_ARCH 1).setForce Reg.POWER_TOOTH_PATTERN 7).setForce Reg.POWER_TOOTH_TABLE 9,
  slots base [q1 true 12 (some 90000000)], sy base fun y => { y with awaits := aws },
  sg (W (W base 1 2 0 (1 + 2 + 5 * 2 ^ 8)) 1 2 3 (2 ^ 32 - 1 + 2 ^ 33)) 1 2 (wp true), sg (W (W base 1 2 0 (1 + 5 * 2 ^ 8)) 1 2 3 7) 1 2 (wp false),
  sg (setR (W (W base 1 2 0 (1 + 2 + 5 * 2 ^ 8)) 1 2 3 7) [(Reg.SYNC_BOUND, 1, 5, 1), (Reg.SYNC_HOME_CORE, 1, 5, 900), (Reg.SYNC_HOME_TIE, 1, 5, 5)]) 1 2 (wp true),
  aready base 1, aready base 2, aready (t1 up 1 2) 2, aready (t1 up 1 1) 2, aready (t1 up 1 1) 1]
theorem witness :
  let sum (us : List TieUpdate) : Nat := (us.map fun u => u.amount).foldl (· + ·) 0
  let alone (s : State) (q : WaitReq) : Prop := (∀ u ∈ s.sync.updates, u.home ≠ q.home) ∧
    (s.sync.registering.filter fun r => decide (r.home = q.home)) = [q] ∧ ∀ x ∈ s.sync.slots, x.req.home = q.home → x.req.tie ≠ q.tie
  let stops (s : State) (c : Nat) : Prop := s.run c ≠ 3 ∧ s.task.halts = [] ∧ (s.taskRuns = true ∨ s.task.failed = none)
  (∃ h, ∃ k, ∃ n,
  let us (s : State) : List TieUpdate := (takeUpdates (fun _ => true) h k n [] s.sync.updates).1;
  let cyc (s : State) : Nat := ((us s).map TieUpdate.due).foldl max 0;
  let here (s : State) : List WaitSlot := s.sync.slots.filter fun x => decide (x.req.home = h) && decide (x.req.tie = k);
  let live (s : State) : Prop := s.clocksRun = true ∧ s.coreAlive h = true ∧ us s ≠ [] ∧ s.TieCalm h k (cyc s);
  let adds (s : State) : Prop := live s ∧ (∀ u ∈ us s, u.dec = false) ∧ s.tie h k + sum (us s) < 2 ^ 64;
    Meets (.tieUpdateDelivered h k n) (fun s => adds s ∧ here s = [])) ∧
  (∃ h, ∃ k, ∃ n,
  let us (s : State) : List TieUpdate := (takeUpdates (fun _ => true) h k n [] s.sync.updates).1;
  let cyc (s : State) : Nat := ((us s).map TieUpdate.due).foldl max 0;
  let here (s : State) : List WaitSlot := s.sync.slots.filter fun x => decide (x.req.home = h) && decide (x.req.tie = k);
  let live (s : State) : Prop := s.clocksRun = true ∧ s.coreAlive h = true ∧ us s ≠ [] ∧ s.TieCalm h k (cyc s);
  let adds (s : State) : Prop := live s ∧ (∀ u ∈ us s, u.dec = false) ∧ s.tie h k + sum (us s) < 2 ^ 64;
    ∃ x, Meets (.tieUpdateDelivered h k n) (fun s => adds s ∧ here s = [x] ∧ x.req.thr ≤ s.tie h k + sum (us s))) ∧
  (∃ h, ∃ k, ∃ n,
  let us (s : State) : List TieUpdate := (takeUpdates (fun _ => true) h k n [] s.sync.updates).1;
  let cyc (s : State) : Nat := ((us s).map TieUpdate.due).foldl max 0;
  let here (s : State) : List WaitSlot := s.sync.slots.filter fun x => decide (x.req.home = h) && decide (x.req.tie = k);
  let live (s : State) : Prop := s.clocksRun = true ∧ s.coreAlive h = true ∧ us s ≠ [] ∧ s.TieCalm h k (cyc s);
  let adds (s : State) : Prop := live s ∧ (∀ u ∈ us s, u.dec = false) ∧ s.tie h k + sum (us s) < 2 ^ 64;
    ∃ x, Meets (.tieUpdateDelivered h k n) (fun s => adds s ∧ here s = [x] ∧ s.tie h k + sum (us s) < x.req.thr)) ∧
  (∃ h, ∃ k, ∃ n,
  let us (s : State) : List TieUpdate := (takeUpdates (fun _ => true) h k n [] s.sync.updates).1;
  let cyc (s : State) : Nat := ((us s).map TieUpdate.due).foldl max 0;
  let here (s : State) : List WaitSlot := s.sync.slots.filter fun x => decide (x.req.home = h) && decide (x.req.tie = k);
  let live (s : State) : Prop := s.clocksRun = true ∧ s.coreAlive h = true ∧ us s ≠ [] ∧ s.TieCalm h k (cyc s);
    ∃ u, Meets (.tieUpdateDelivered h k n) (fun s => live s ∧ us s = [u] ∧ u.dec = true ∧ here s = [] ∧ s.tie h k < 2 ^ 64 ∧ u.amount ≤ s.tie h k)) ∧
  (∃ h, ∃ k, ∃ n,
  let us (s : State) : List TieUpdate := (takeUpdates (fun _ => true) h k n [] s.sync.updates).1;
    ∃ u, ∃ p, Meets (.tieUpdateDelivered h k n) (fun s => s.clocksRun = true ∧ s.coreAlive h = false ∧ us s = [u] ∧ u.answer = some p ∧ pType p = 4)) ∧
  (∃ h, ∃ k, ∃ n,
  let us (s : State) : List TieUpdate := (takeUpdates (fun _ => true) h k n [] s.sync.updates).1;
    ∃ u, Meets (.tieUpdateDelivered h k n) (fun s => s.clocksRun = true ∧ s.coreAlive h = false ∧ us s = [u] ∧ u.answer = none)) ∧
  (∃ c, ∃ (q : WaitReq),
  let known (s : State) : Prop := s.clocksRun = true ∧ s.sync.registering.find? (fun q => decide (q.core = c)) = some q ∧ alone s q ∧
      ∀ d, q.deadline = some d → q.at_ < d;
    ∃ i, Meets (.waitRegistration c) (fun s => known s ∧ s.freeSlot q.home q.at_ = some i ∧ s.tie q.home q.tie < q.thr)) ∧
  (∃ c, ∃ (q : WaitReq),
  let known (s : State) : Prop := s.clocksRun = true ∧ s.sync.registering.find? (fun q => decide (q.core = c)) = some q ∧ alone s q ∧
      ∀ d, q.deadline = some d → q.at_ < d;
    ∃ i, Meets (.waitRegistration c) (fun s => known s ∧ s.freeSlot q.home q.at_ = some i ∧ q.thr ≤ s.tie q.home q.tie)) ∧
  (∃ c, ∃ (q : WaitReq),
  let known (s : State) : Prop := s.clocksRun = true ∧ s.sync.registering.find? (fun q => decide (q.core = c)) = some q ∧ alone s q ∧
      ∀ d, q.deadline = some d → q.at_ < d;
    Meets (.waitRegistration c) (fun s => known s ∧ s.freeSlot q.home q.at_ = none)) ∧
  (∃ c, ∃ (r : WaitResult), Meets (.wake c) (fun s => s.clocksRun = true ∧ s.sync.results.find? (fun r => decide (r.core = c)) = some r ∧ s.heldFor c .wait = true ∧
      (s.core c).seq.endEntry = none ∧ (s.core c).seq.extra = [] ∧ (s.core c).moveIn = [] ∧ s.allHeld c = false)) ∧
  (∃ c, ∃ (x : WaitSlot), Meets (.waitTimeout c) (fun s => s.clocksRun = true ∧ stops s c ∧ x.req.deadline.isSome = true ∧
        (s.sync.slots.map WaitSlot.req ++ s.sync.registering).find? (fun q => decide (q.core = c) && q.deadline.isSome) = some x.req ∧
        (∀ u ∈ s.sync.updates, u.home ≠ x.req.home) ∧ (∀ q ∈ s.sync.registering, q.home ≠ x.req.home) ∧
        (s.sync.slots.filter fun y => decide (y.req.home = x.req.home) && decide (y.req.tie = x.req.tie)) = [x] ∧ s.tie x.req.home x.req.tie < x.req.thr)) ∧
  (∃ c, ∃ (x : ArchWait), Meets (.waitTimeout c) (fun s => s.clocksRun = true ∧ stops s c ∧
        (s.sync.slots.map WaitSlot.req ++ s.sync.registering).find? (fun q => decide (q.core = c) && q.deadline.isSome) = none ∧
        s.sync.awaits.find? (fun x => decide (x.core = c) && x.deadline.isSome) = some x)) ∧
  (∃ c, ∃ w, ∃ p, ∃ n, (w < 32) ∧
  let found (s : State) : Prop := s.clocksRun = true ∧
      s.net.signals.find? (fun x => decide (x.1 = c) && decide (x.2.1 = w) && s.signalFree c w x.2.2.1 x.2.2.2) = some (c, w, p, n);
  let home (s : State) : Nat × Nat := s.home c (s.winTie c w);
    Meets (.windowSignal c w) (fun s => found s ∧ s.coreAlive (home s).1 = false)) ∧
  (∃ c, ∃ w, ∃ p, ∃ n, (w < 32) ∧
  let found (s : State) : Prop := s.clocksRun = true ∧
      s.net.signals.find? (fun x => decide (x.1 = c) && decide (x.2.1 = w) && s.signalFree c w x.2.2.1 x.2.2.2) = some (c, w, p, n);
  let home (s : State) : Nat × Nat := s.home c (s.winTie c w);
    Meets (.windowSignal c w) (fun s => found s ∧ s.coreAlive (home s).1 = true)) ∧
  (∃ a, ∃ x, (a < 8) ∧
  let due (s : State) : Prop := s.clocksRun = true ∧ (s.phase a).ready = some x ∧ s.inForce Reg.CTRL_PERIOD < 2 ^ 24 ∧
      x < 2 ^ 40 * s.inForce Reg.CTRL_PERIOD ∧ (∀ w ∈ s.sync.awaits, w.arch = a → ∀ d, w.deadline = some d → s.inTick x ≤ d) ∧
      ∀ c ∈ s.task.parts, (s.core c).moveIn = [];
    Meets (.archClosure a) (fun s => due s ∧ (s.task.waiting = false ∨ s.task.arch ≠ some a))) ∧
  (∃ a, ∃ x, (a < 8) ∧
  let due (s : State) : Prop := s.clocksRun = true ∧ (s.phase a).ready = some x ∧ s.inForce Reg.CTRL_PERIOD < 2 ^ 24 ∧
      x < 2 ^ 40 * s.inForce Reg.CTRL_PERIOD ∧ (∀ w ∈ s.sync.awaits, w.arch = a → ∀ d, w.deadline = some d → s.inTick x ≤ d) ∧
      ∀ c ∈ s.task.parts, (s.core c).moveIn = [];
    ∃ c, (c < 1024) ∧ Meets (.archClosure a) (fun s => due s ∧ s.taskState = 1 ∧ s.task.arch = some a ∧ s.ops.context = none ∧ s.ops.resume = none ∧ s.task.accepted < s.inTick x ∧
          s.task.waiting = true ∧ s.task.parts = [c] ∧ s.task.first = true ∧ s.marks = [] ∧ fld (ofBytes (s.bytesAt (windowBase c + 32 * s.cf Reg.SEQ_ENTRY c) 32)) 23 0 = 0)) := by
  refine ⟨⟨(1), (2), (1), shown (states.getD 2 State.reset) ?_ ?_⟩,
    ⟨(1), (3), (1), ({ idx := 0,   req := { core := 2, localTie := 7, home := 1, tie := 3, take := false, thr := 5, deadline := none, at_ := 42604 } }), shown (states.getD 7 State.reset) ?_ ?_⟩,
    ⟨(1), (3), (1), ({ idx := 0,   req := { core := 2, localTie := 7, home := 1, tie := 3, take := false, thr := 12, deadline := none, at_ := 42604 } }), shown (states.getD 0 State.reset) ?_ ?_⟩,
    ⟨(1), (3), (1), ({ home := 1, tie := 3, dec := true, amount := 5, src := 0, issued := 55, peer := 77, due := 42605, answer := none }), shown (states.getD 5 State.reset) ?_ ?_⟩,
    ⟨(901), (2), (1), ({ home := 901,   tie := 2,   dec := false,   amount := 3,   src := 1,   issued := 55,   peer := 78,   due := 42605,   answer := some { w0 := 0x8540800400020009#64,               w1 := 0x0009000400030009#64,               w2 := 0x0000000000000002#64,               w3 := 0x000000000000004d#64,               payload := [0x00#8, 0x01#8, 0x02#8, 0x03#8, 0x04#8, 0x05#8, 0x06#8, 0x07#8] } }), ({ w0 := 0x8540800400020009#64,   w1 := 0x0009000400030009#64,   w2 := 0x0000000000000002#64,   w3 := 0x000000000000004d#64,   payload := [0x00#8, 0x01#8, 0x02#8, 0x03#8, 0x04#8, 0x05#8, 0x06#8, 0x07#8] }), shown (states.getD 2 State.reset) ?_ ?_⟩,
    ⟨(900), (2), (1), ({ home := 900, tie := 2, dec := false, amount := 3, src := 1, issued := 55, peer := 78, due := 42605, answer := none }), shown (states.getD 2 State.reset) ?_ ?_⟩,
    ⟨(2), ({ core := 2, localTie := 7, home := 1, tie := 3, take := true, thr := 12, deadline := some 90000000, at_ := 42604 }), (0), shown (states.getD 9 State.reset) ?_ ?_⟩,
    ⟨(2), ({ core := 2, localTie := 7, home := 1, tie := 3, take := false, thr := 5, deadline := none, at_ := 42604 }), (0), shown (states.getD 3 State.reset) ?_ ?_⟩,
    ⟨(2), ({ core := 2, localTie := 7, home := 1, tie := 3, take := true, thr := 99, deadline := none, at_ := 42604 }), shown (states.getD 4 State.reset) ?_ ?_⟩,
    ⟨(1), ({ core := 1, arch := false, at_ := 42660 }), shown (states.getD 11 State.reset) ?_ ?_⟩,
    ⟨(2), ({ idx := 0,   req := { core := 2,            localTie := 7,            home := 1,            tie := 3,            take := true,            thr := 12,            deadline := some 90000000,            at_ := 42604 } }), shown (states.getD 15 State.reset) ?_ ?_⟩,
    ⟨(1), ({ core := 1, arch := 1, deadline := some 90000000 }), shown (states.getD 16 State.reset) ?_ ?_⟩,
    ⟨(1), (2), ({ w0 := 0x01c0800000120009#64,   w1 := 0x0009000400030009#64,   w2 := 0x0000000000000100#64,   w3 := 0x000000000000004d#64,   payload := [0x01#8, 0x02#8, 0x03#8, 0x04#8, 0x05#8, 0x06#8, 0x07#8, 0x08#8] }), (0), ?_, shown (states.getD 19 State.reset) ?_ ?_⟩,
    ⟨(1), (2), ({ w0 := 0x01c0800000120009#64,   w1 := 0x0009000400030009#64,   w2 := 0x0000000000000100#64,   w3 := 0x000000000000004d#64,   payload := [0x01#8, 0x02#8, 0x03#8, 0x04#8, 0x05#8, 0x06#8, 0x07#8, 0x08#8] }), (0), ?_, shown (states.getD 17 State.reset) ?_ ?_⟩,
    ⟨(1), (42602), ?_, shown (states.getD 20 State.reset) ?_ ?_⟩,
    ⟨(1), (42602), ?_, 1, ?_, shown (states.getD 24 State.reset) ?_ ?_⟩⟩
  all_goals repeat' first | decide +kernel | (with_reducible first | refine State.wordFits_of ?_ | refine sidecars_of ?_ | refine apart_of ?_ ?_ ?_ | refine notWaiting_of ?_ | refine reaches_of ?_ | refine plainWord_of ?_ | refine forall_covers ?_ | refine placed_bed ?_ | refine placed_sync ?_ | refine placed_tie ?_ | refine State.branchable_of ?_ | refine ok_of ?_ | refine Sparse.sorted_of_sortedB _ ?_ | exact List.mem_cons_self | unfold vectorOk | refine error_of ?_ | refine ⟨1, 3, by decide +kernel, ?_⟩) | (intro h; exact absurd h (by decide +kernel)) | (intro q h4 h8; revert h4; revert h8; revert q; decide +kernel) | (refine Or.inl (by decide +kernel)) | (refine Or.inr (by decide +kernel)) | apply And.intro | (refine Exists.intro _ ?_) | (with_reducible constructor) | rfl | intro _
end SyncEvents

/-! UnitEvents -/
namespace UnitEvents
def base : State := inTask up [0]
def tm (s : State) (f : Timing → Timing) : State := s.mapCore 1 fun k => { k with tm := f k.tm }
def kk (s : State) (f : Core → Core) : State := s.mapCore 1 f
def J (serial kind base len : Nat) (begun : Bool) : MoveJob := ⟨serial, (base, 4096 + kind * 2 ^ 40), (64, 4096 + 2 ^ 40), 16, 0, len, false, false, 0, begun, 0, 0, false, false⟩
def jobs : List MoveJob := [J 0 1 64 1000 false, J 5 3 0x400 512 false, J 6 5 (9 * 2 ^ 48 + 3 * 2 ^ 44 + 0x1000) 8 false, J 7 1 64 16 false]
def mv (l : List MoveJob) : State := kk (inTask up [1]) fun k => { k with moves := l }
def bey (s : State) (n : Nat) : State := s.wr Reg.DRESS_BEYLER 1 0 n
def states : List State := [base, fr base, tm base fun t => { t with tloads := [40], swapAt := some 7 }, tm base fun t => { t with tloads := [40, 50] }, tm base fun t => { t with swapAt := some 30 }, tm (setR base [(Reg.TPL_ACTIVE, 1, 0, 1), (Reg.TPL_SHADOW_READY, 1, 0, 1)]) fun t => { t with swapAt := some 30 },
  bey base 1, runCore base 1, bey (setR (kk base fun k => { k with segs := [(3, 5)] }) [(Reg.TPL_LOADING, 1, 0, 1), (Reg.TPL_ACTIVE, 1, 0, 1), (Reg.TPL_SHADOW_READY, 1, 0, 1)]) 1, setR (kk base fun k => { k with beylerImage := true, segs := [(3, 5)] }) [(Reg.TPL_LOADING, 1, 0, 1), (Reg.TPL_BEYLER, 1, 0, 1), (Reg.TPL_ACTIVE, 1, 0, 1)]] ++ (jobs.map fun j => mv [j]) ++ [mv [J 1 1 64 1000 true, J 5 3 0x400 512 false], mv jobs]
theorem witness :
  (∃ c, ∃ x, ∃ l, Meets (.tloadComplete c) (fun s => s.clocksRun = true ∧ (s.core c).tm.tloads = x :: l)) ∧
  (∃ c, ∃ x, Meets (.tswapEffect c) (fun s => s.clocksRun = true ∧ (s.core c).tm.swapAt = some x ∧ (s.core c).tm.tloads = [])) ∧
  (∃ c, ∃ v, (v < 2) ∧
  let may (s : State) : Prop := s.Writable .sideband Reg.DRESS_BEYLER c 0 ∧ s.coreAlive c = true;
    Meets (.beylerWrite c v) (fun s => may s ∧ s.running c = false ∧ s.cf Reg.DRESS_BEYLER c ≠ v)) ∧
  (∃ c, ∃ v, (v < 2) ∧
  let may (s : State) : Prop := s.Writable .sideband Reg.DRESS_BEYLER c 0 ∧ s.coreAlive c = true;
    Meets (.beylerWrite c v) (fun s => may s ∧ s.running c = true)) ∧
  (∃ c, Meets (.imageCopyDone c) (fun s => s.clocksRun = true ∧ s.cf Reg.TPL_LOADING c = 1 ∧ s.cf Reg.DRESS_BEYLER c < 2)) ∧
  (∃ c, ∃ (j : MoveJob),
  let next (s : State) : Prop := s.issuing c = true ∧ s.task.halts = [] ∧ (s.core c).moves.find? (fun j => !j.begun) = some j ∧
      s.job c j.serial = some j;
  let n := (j.len + 511) / 512;
    Meets (.moveBegin c) (fun s => next s ∧ j.srcHandle.kind = 1 ∧ n ≠ 0)) ∧
  (∃ c, ∃ (j : MoveJob),
  let next (s : State) : Prop := s.issuing c = true ∧ s.task.halts = [] ∧ (s.core c).moves.find? (fun j => !j.begun) = some j ∧
      s.job c j.serial = some j;
  let n := (j.len + 511) / 512;
    Meets (.moveBegin c) (fun s => next s ∧ j.srcHandle.kind ≠ 1 ∧ n = 1)) := by
  refine ⟨⟨(1), (40), ([]), shown (states.getD 2 State.reset) ?_ ?_⟩,
    ⟨(1), (30), shown (states.getD 4 State.reset) ?_ ?_⟩,
    ⟨(0), 1, ?_, shown (states.getD 10 State.reset) ?_ ?_⟩,
    ⟨(0), 0, ?_, shown (states.getD 0 State.reset) ?_ ?_⟩,
    ⟨(1), shown (states.getD 8 State.reset) ?_ ?_⟩,
    ⟨(1), ({ serial := 0,   src := (64, 1099511631872),   dst := (64, 1099511631872),   srcOff := 16,   dstOff := 0,   len := 1000,   sig := false,   cte := false,   ct := 0,   begun := false,   left := 0,   writes := 0,   closing := false,   failed := false }), shown (states.getD 10 State.reset) ?_ ?_⟩,
    ⟨(1), ({ serial := 5,   src := (1024, 3298534887424),   dst := (64, 1099511631872),   srcOff := 16,   dstOff := 0,   len := 512,   sig := false,   cte := false,   ct := 0,   begun := false,   left := 0,   writes := 0,   closing := false,   failed := false }), shown (states.getD 11 State.reset) ?_ ?_⟩⟩
  all_goals repeat' first | decide +kernel | (with_reducible first | refine State.wordFits_of ?_ | refine sidecars_of ?_ | refine apart_of ?_ ?_ ?_ | refine notWaiting_of ?_ | refine reaches_of ?_ | refine plainWord_of ?_ | refine forall_covers ?_ | refine placed_bed ?_ | refine placed_sync ?_ | refine placed_tie ?_ | refine State.branchable_of ?_ | refine ok_of ?_ | refine Sparse.sorted_of_sortedB _ ?_ | exact List.mem_cons_self | unfold vectorOk | refine error_of ?_ | refine ⟨1, 3, by decide +kernel, ?_⟩) | (intro h; exact absurd h (by decide +kernel)) | (intro q h4 h8; revert h4; revert h8; revert q; decide +kernel) | (refine Or.inl (by decide +kernel)) | (refine Or.inr (by decide +kernel)) | apply And.intro | (refine Exists.intro _ ?_) | (with_reducible constructor) | rfl | intro _
end UnitEvents

/-! RegisterWrites -/
namespace RegisterWrites
def b0 : State := setDs (setR up [(Reg.POINT_BIN0, 1, 3, 8), (Reg.POINT_BIN1, 1, 5, 8), (Reg.POINT_NAN, 1, 1, 8)]) [(Reg.LEDGER_HEAD_SEQ, 3), (Reg.LEDGER_ACK_SEQ, 1)]
def states : List State := [b0, fr b0, setDs b0 [(Reg.MARK_LOCKED, 1)], inTask b0 [1], setDs b0 [(Reg.DIR_DOM_OFF, 1), (Reg.DIR_DOM_ON_LO, 2 ^ 64 - 2)], setDs b0 [(Reg.DIR_DOM_OFF, 2), (Reg.DIR_DOM_OFF_YQ, 3), (Reg.DIR_DOM_ON_HI, 2 ^ 16 - 1 - 512)], { setDs b0 [(Reg.DIR_DOM_BUSY, 1)] with ops := { b0.ops with offs := [0, 73] } }, { b0 with side := { b0.side with enabled := true } }, { b0 with side := { b0.side with enabled := false } }, up.wr Reg.POINT_BIN0 1 2 4]
theorem witness :
  let open_ (s : State) (path : Path) (a : Nat) : Prop := s.frozen = false ∧ path ≠ .other ∧ s.reaches a
  (∃ path, ∃ a, ∃ v, (plainWord a) ∧ (v < 2 ^ 64) ∧ Meets (.registerWrite path a v) (fun s => open_ s path a)) ∧
  (∃ path, ∃ a, ∃ v, (pageAt a = none ∨ a % 8 ≠ 0) ∧ Meets (.registerWrite path a v) (fun s => s.frozen = false)) ∧
  (∃ a, ∃ v, ∃ c, ∃ n, ∃ o, (pageAt a = some (.core c n o)) ∧ Meets (.registerWrite .other a v) (fun s => s.frozen = false)) ∧
  (∃ path, ∃ v, (v < 2 ^ 16) ∧
  let a := Reg.PLACE_PACKAGE_ID.addr 0 0;
    Meets (.registerWrite path a v) (fun s => open_ s path a ∧ s.df Reg.MARK_LOCKED = 0)) ∧
  (∃ path, ∃ v, (v < 2 ^ 16) ∧
  let a := Reg.PLACE_PACKAGE_ID.addr 0 0;
    Meets (.registerWrite path a v) (fun s => open_ s path a ∧ s.df Reg.MARK_LOCKED ≠ 0)) ∧
  (∃ c, ∃ v, (v < 4) ∧ Meets (.histClear c v) (fun s => s.Writable .sideband Reg.POINT_HIST_CLEAR c 0 ∧ s.coreAlive c = true)) ∧
  (∃ path, ∃ v, (v < 2 ^ 48) ∧
  let may (s : State) : Prop := s.Writable path Reg.LEDGER_ACK_SEQ 0 0;
    Meets (.ackSeq path v) (fun s => may s ∧ (path = .sideband ∨ path = .trowel) ∧ s.df Reg.LEDGER_ACK_SEQ ≤ v ∧ v ≤ s.df Reg.LEDGER_HEAD_SEQ)) ∧
  (∃ path, ∃ v, (v < 2 ^ 48) ∧
  let may (s : State) : Prop := s.Writable path Reg.LEDGER_ACK_SEQ 0 0;
    Meets (.ackSeq path v) (fun s => may s ∧ (path = .hub ∨ v < s.df Reg.LEDGER_ACK_SEQ ∨ s.df Reg.LEDGER_HEAD_SEQ < v))) ∧
  (∃ path, ∃ v, (v < 2 ^ 64) ∧
  let may (s : State) : Prop := s.Writable path Reg.DIR_DOM_OFF 0 0 ∧ s.switchable = true;
    Meets (.domOff path v) (fun s => may s ∧ ∀ g < 64, bit v g = false → bit (s.df Reg.DIR_DOM_OFF) g = true → s.domainOn g = true)) ∧
  (∃ path, ∃ v, (v < 2 ^ 64) ∧
  let may (s : State) : Prop := s.Writable path Reg.DIR_DOM_OFF 0 0 ∧ s.switchable = true;
    ∃ g, (g < 64) ∧ Meets (.domOff path v) (fun s => may s ∧ s.df Reg.DIR_DOM_OFF = v + 2 ^ g ∧ bit v g = false ∧ s.domainOn g = false)) ∧
  (∃ path, ∃ v, (v < 2 ^ 64) ∧ Meets (.domOff path v) (fun s => s.Writable path Reg.DIR_DOM_OFF 0 0 ∧ s.switchable = false)) ∧
  (∃ path, ∃ v, (v < 16) ∧
  let may (s : State) : Prop := s.Writable path Reg.DIR_DOM_OFF_YQ 0 0 ∧ s.switchable = true;
    Meets (.domOffYq path v) may) ∧
  (∃ path, ∃ v, (v < 16) ∧ Meets (.domOffYq path v) (fun s => s.Writable path Reg.DIR_DOM_OFF_YQ 0 0 ∧ s.switchable = false)) ∧
  (Meets .domainSwitchDone (fun s => s.frozen = false ∧ s.df Reg.DIR_DOM_BUSY ≠ 0 ∧ s.ops.group = [] ∧ ∀ d ∈ s.ops.offs, d < 80)) ∧
  (Meets .domainSwitchDone (fun s => s.frozen = false ∧ (s.df Reg.DIR_DOM_BUSY = 0 ∨ s.ops.group ≠ []))) := by
  refine ⟨⟨(Sys2Proof.Path.sideband), (1099513593920), (0), ?_, ?_, shown (states.getD 0 State.reset) ?_ ?_⟩,
    ⟨(Sys2Proof.Path.sideband), (0), (0), ?_, shown (states.getD 0 State.reset) ?_ ?_⟩,
    ⟨(1099513593920), (0), (1), (0), (64), ?_, shown (states.getD 0 State.reset) ?_ ?_⟩,
    ⟨(Sys2Proof.Path.sideband), 0, ?_, shown (states.getD 0 State.reset) ?_ ?_⟩,
    ⟨(Sys2Proof.Path.sideband), 0, ?_, shown (states.getD 2 State.reset) ?_ ?_⟩,
    ⟨(0), 0, ?_, shown (states.getD 0 State.reset) ?_ ?_⟩,
    ⟨(Sys2Proof.Path.sideband), 0, ?_, shown (states.getD 9 State.reset) ?_ ?_⟩,
    ⟨(Sys2Proof.Path.sideband), 0, ?_, shown (states.getD 0 State.reset) ?_ ?_⟩,
    ⟨(Sys2Proof.Path.sideband), 0, ?_, shown (states.getD 0 State.reset) ?_ ?_⟩,
    ⟨(Sys2Proof.Path.sideband), 0, ?_, 0, ?_, shown (states.getD 4 State.reset) ?_ ?_⟩,
    ⟨(Sys2Proof.Path.sideband), 0, ?_, shown (states.getD 3 State.reset) ?_ ?_⟩,
    ⟨(Sys2Proof.Path.sideband), 0, ?_, shown (states.getD 0 State.reset) ?_ ?_⟩,
    ⟨(Sys2Proof.Path.sideband), 0, ?_, shown (states.getD 3 State.reset) ?_ ?_⟩,
    shown (states.getD 6 State.reset) ?_ ?_,
    shown (states.getD 0 State.reset) ?_ ?_⟩
  all_goals repeat' first | decide +kernel | (with_reducible first | refine State.wordFits_of ?_ | refine sidecars_of ?_ | refine apart_of ?_ ?_ ?_ | refine notWaiting_of ?_ | refine reaches_of ?_ | refine plainWord_of ?_ | refine forall_covers ?_ | refine placed_bed ?_ | refine placed_sync ?_ | refine placed_tie ?_ | refine State.branchable_of ?_ | refine ok_of ?_ | refine Sparse.sorted_of_sortedB _ ?_ | exact List.mem_cons_self | unfold vectorOk | refine error_of ?_ | refine ⟨1, 3, by decide +kernel, ?_⟩) | (intro h; exact absurd h (by decide +kernel)) | (intro q h4 h8; revert h4; revert h8; revert q; decide +kernel) | (refine Or.inl (by decide +kernel)) | (refine Or.inr (by decide +kernel)) | apply And.intro | (refine Exists.intro _ ?_) | (with_reducible constructor) | rfl | intro _
end RegisterWrites

/-! TaskCommands -/
namespace TaskCommands
def pk64 (s : State) (a : Nat) (l : List Nat) : State := l.zipIdx.foldl (fun s x => s.store (a + 8 * x.2) (toBytes 8 x.1)) s
def gl (pkg die a : Nat) : Nat := pkg * 2 ^ 48 + die * 2 ^ 44 + a
def descMem (s : State) (tr : Nat) : State :=
  let s := pk64 s 0x4000 [tr, 32 + 16 * 2 ^ 24, 0x4100, 0x4200]
  let s := pk64 s 0x4100 [32 + 16 * 2 ^ 24, 32 + 16 * 2 ^ 24, 1 + 2 ^ 12, 0, gl 9 2 0x8000, 16]
  let s := pk64 s 0x4200 [32 + 16 * 2 ^ 24, 16 + 16 * 2 ^ 24, 2 + 2 ^ 12, 0, gl 9 3 0x100000, 16 + 2 ^ 24 + 3 * 2 ^ 32 + 5 * 2 ^ 40, gl 9 2 0x9000, 32 + 3 * 2 ^ 32 + 5 * 2 ^ 40]
  pk64 s 0x8000 [0x1122334455667788, 0x99, 0x55, 0x66]
def base : State := (setR up [(Reg.CMD_PARTICIPANTS, 0, 0, 6)])
def idd (s : State) (l : List (Nat × Nat × Nat)) : State := l.foldl (fun s x => (s.wr Reg.CMD_OPS_ID 0 x.1 x.2.1).wr Reg.CMD_OPS_STATE 0 x.1 x.2.2) s
def tsk (s : State) (st : Nat) (away : Bool) : State := let s := idd s [(0, 3, st)]; { s with task := { s.task with parts := [1, 2], first := false, away := away, accepted := 7 } }
def op (s : State) (f : Ops → Ops) : State := { s with ops := f s.ops }
def sts : List State := [base, fr base, setDs base [(Reg.CMD_BUSY, 1)], setDs base [(Reg.BOOT_PHASE, 5)], setDs base [(Reg.DIR_DOM_ON_HI, 2 ^ 16 - 1 - 256)],
 setDs base [(Reg.CMD_PARTICIPANTS, 0)], tsk base 1 false, tsk base 2 false, tsk base 4 false, tsk base 4 true, tsk base 5 false, tsk base 6 false, tsk base 7 false, tsk (setDs base [(Reg.CMD_PARTICIPANTS, 0)]) 7 false,
 idd base [(2, 3, 2)], idd base [(2, 3, 4)], idd base [(4, 3, 2)], idd base [(4, 3, 4)], idd base [(5, 3, 1)], idd base [(5, 3, 4)], idd base [(1, 3, 2)], idd base [(1, 3, 4)], idd base [(3, 3, 2)],
 { base with repairs := [(0, 1, 3)] }, op base fun o => { o with result := some ⟨1, 2, 3⟩, nextId := 9 }, op base fun o => { o with load := some ⟨[], 0, 6⟩ }, descMem base 0, descMem base 3]
def states : List State := sts ++ [tsk base 1 false, tsk base 2 false, tsk base 4 true, tsk base 7 false, idd base [(2, 3, 2)]]
theorem witness :
  let given (path : Path) (s : State) : Prop := s.frozen = false ∧ path ≠ .other ∧ s.df Reg.CMD_BUSY ≠ 1
  let ready (path : Path) (s : State) : Prop := given path s ∧ 7 ≤ s.df Reg.BOOT_PHASE
  let each (path : Path) (seq target a0 a1 a2 a3 : Nat) : List Instr :=
    [.start path seq target a0 a1 a2 a3, .suspend path seq target a0 a1 a2 a3, .resume path seq target a0 a1 a2 a3,
     .resumeFromImage path seq target a0 a1 a2 a3, .cancel path seq target a0 a1 a2 a3, .memtest path seq target a0 a1 a2 a3,
     .broadcast path seq target a0 a1 a2 a3, .rebond path seq target a0 a1 a2 a3, .repair path seq target a0 a1 a2 a3,
     .wholeDieReset path seq target a0 a1 a2 a3, .computePartReset path seq target a0 a1 a2 a3, .coreGroupReset path seq target a0 a1 a2 a3]
  (∃ (path : Path), ∃ (seq : Nat), ∃ (target : Nat), ∃ (a0 : Nat), ∃ a1, ∃ a2, ∃ a3, ∃ i, (i ∈ each path seq target a0 a1 a2 a3) ∧ Meets i (fun s => s.frozen = false ∧ path = .other)) ∧
  (∃ (path : Path), ∃ (seq : Nat), ∃ (target : Nat), ∃ (a0 : Nat), ∃ a1, ∃ a2, ∃ a3, ∃ i, (i ∈ each path seq target a0 a1 a2 a3) ∧ Meets i (fun s => s.frozen = false ∧ path ≠ .other ∧ s.df Reg.CMD_BUSY = 1)) ∧
  (∃ (path : Path), ∃ (seq : Nat), ∃ (target : Nat), ∃ (a0 : Nat), ∃ a1, ∃ a2, ∃ a3, ∃ i, (i ∈ [Instr.start path seq target a0 a1 a2 a3, .memtest path seq target a0 a1 a2 a3, .broadcast path seq target a0 a1 a2 a3,
        .rebond path seq target a0 a1 a2 a3, .repair path seq target a0 a1 a2 a3]) ∧ Meets i (fun s => given path s ∧ s.df Reg.BOOT_PHASE < 7)) ∧
  (∃ (path : Path), ∃ (seq : Nat), ∃ (target : Nat), ∃ (a0 : Nat), ∃ a1, ∃ a2, ∃ a3, (16 ≤ a0) ∧ Meets (.start path seq target a0 a1 a2 a3) (fun s => ready path s ∧ a0 < 2 ^ 64)) ∧
  (∃ (path : Path), ∃ (seq : Nat), ∃ (target : Nat), ∃ (a0 : Nat), (a0 < 16) ∧
  let may (s : State) : Prop := ready path s ∧ s.taskRuns = false ∧ s.quadrantOff = false ∧ s.startBarred (s.participants true) = false;
    Meets (.start path seq target a0 0 0 0) (fun s => may s ∧ s.taskState ≠ 7 ∧ s.participants true ≠ [])) ∧
  (∃ (path : Path), ∃ (seq : Nat), ∃ (target : Nat), ∃ (a0 : Nat), (a0 < 16) ∧ Meets (.start path seq target a0 0 0 0) (fun s => ready path s ∧ (s.taskRuns = true ∨ s.quadrantOff = true ∨ s.startBarred (s.participants true) = true))) ∧
  (∃ (path : Path), ∃ (seq : Nat), ∃ (target : Nat), ∃ (a0 : Nat), (a0 < 16) ∧
  let may (s : State) : Prop := ready path s ∧ s.taskRuns = false ∧ s.quadrantOff = false ∧ s.startBarred (s.participants true) = false;
    Meets (.start path seq target a0 0 0 0) (fun s => may s ∧ s.taskState = 7)) ∧
  (∃ (path : Path), ∃ (seq : Nat), ∃ (target : Nat), ∃ (a0 : Nat), (a0 < 16) ∧
  let may (s : State) : Prop := ready path s ∧ s.taskRuns = false ∧ s.quadrantOff = false ∧ s.startBarred (s.participants true) = false;
    Meets (.start path seq target a0 0 0 0) (fun s => may s ∧ s.taskState ≠ 7 ∧ s.participants true = [])) ∧
  (∃ (path : Path), ∃ (seq : Nat), ∃ (target : Nat), ∃ (a0 : Nat),
  let named (s : State) (k : Nat) : Prop := s.named (target % 2 ^ 32) = some k;
    (a0 < 16) ∧ ∃ a1, ∃ a2, ∃ a3, (a1 < 2 ^ 64) ∧ (a2 < 2 ^ 32) ∧ (a3 < 2 ^ 40) ∧ Meets (.suspend path seq target a0 a1 a2 a3) (fun s => ready path s ∧ named s 0 ∧ (s.taskState = 1 ∨ s.taskState = 2) ∧ (bit a0 3 = true → bit a0 0 = true) ∧
            (bit a0 0 = true → s.imagePlace a1 a2 (s.longest s.task.parts (bit a0 1) (bit a0 2)) = true))) ∧
  (∃ (path : Path), ∃ (seq : Nat), ∃ (target : Nat), ∃ (a0 : Nat),
  let named (s : State) (k : Nat) : Prop := s.named (target % 2 ^ 32) = some k;
    (a0 < 16) ∧ ∃ a1, ∃ a2, ∃ a3, (a1 < 2 ^ 64) ∧ (a2 < 2 ^ 32) ∧ (a3 < 2 ^ 40) ∧ Meets (.suspend path seq target a0 a1 a2 a3) (fun s => ready path s ∧ named s 0 ∧ s.taskState ≠ 1 ∧ s.taskState ≠ 2)) ∧
  (∃ (path : Path), ∃ (seq : Nat), ∃ (target : Nat), ∃ (a0 : Nat), (a0 < 16) ∧ ∃ a1, ∃ a2, ∃ a3, (a1 < 2 ^ 64) ∧ (a2 < 2 ^ 32) ∧ (a3 < 2 ^ 40) ∧ Meets (.suspend path seq target a0 a1 a2 a3) (fun s => ready path s ∧ s.named (target % 2 ^ 32) = none)) ∧
  (∃ (path : Path), ∃ (seq : Nat), ∃ (target : Nat), ∃ (a0 : Nat),
  let named (s : State) (k : Nat) : Prop := s.named (target % 2 ^ 32) = some k;
    (a0 < 16) ∧ ∃ k, (k ∈ [2, 4, 5]) ∧ Meets (.suspend path seq target 0 0 0 0) (fun s => ready path s ∧ named s k ∧ (s.opState k = 1 ∨ s.opState k = 2))) ∧
  (∃ (path : Path), ∃ (seq : Nat), ∃ (target : Nat), ∃ (a0 : Nat),
  let named (s : State) (k : Nat) : Prop := s.named (target % 2 ^ 32) = some k;
    (a0 < 16) ∧ ∃ a2, (a2 < 2 ^ 32) ∧ Meets (.resume path seq target a0 0 a2 0) (fun s => ready path s ∧ named s 0 ∧ s.taskState = 4 ∧ s.inPlace = true ∧ s.ops.context = none)) ∧
  (∃ (path : Path), ∃ (seq : Nat), ∃ (target : Nat), ∃ (a0 : Nat),
  let named (s : State) (k : Nat) : Prop := s.named (target % 2 ^ 32) = some k;
    (a0 < 16) ∧ ∃ a2, (a2 < 2 ^ 32) ∧ Meets (.resume path seq target a0 0 a2 0) (fun s => ready path s ∧ named s 0 ∧ s.taskState = 4 ∧ s.inPlace = false)) ∧
  (∃ (path : Path), ∃ (seq : Nat), ∃ (target : Nat), ∃ (a0 : Nat),
  let named (s : State) (k : Nat) : Prop := s.named (target % 2 ^ 32) = some k;
    (a0 < 16) ∧ ∃ k, (k ∈ [1, 2, 4, 5]) ∧ Meets (.resume path seq target 0 0 0 0) (fun s => ready path s ∧ named s k ∧ s.opState k = 4)) ∧
  (∃ (path : Path), ∃ (seq : Nat), ∃ (target : Nat), ∃ (a0 : Nat),
  let named (s : State) (k : Nat) : Prop := s.named (target % 2 ^ 32) = some k;
    (a0 < 16) ∧ ∃ a1, ∃ a2, (a1 < 2 ^ 64) ∧ (a2 < 2 ^ 32) ∧
  let cs (s : State) : List Nat := s.participants false;
  let may (s : State) : Prop := ready path s ∧ named s 0 ∧ (s.taskState = 0 ∨ s.taskState = 4 ∨ s.taskState = 6 ∨ s.taskState = 7) ∧
          s.opLive 3 = false ∧ s.quadrantOff = false ∧ s.ops.context = none ∧ s.ops.load = none ∧ s.startBarred (cs s) = false;
    Meets (.resumeFromImage path seq target a0 a1 a2 0) (fun s => may s ∧ cs s ≠ [] ∧ s.imagePlace a1 a2 (s.longest (cs s) false false) = true ∧ ∀ c ∈ cs s, s.domainOn (groupOf c) = true)) ∧
  (∃ (path : Path), ∃ (seq : Nat), ∃ (target : Nat), ∃ (a0 : Nat),
  let named (s : State) (k : Nat) : Prop := s.named (target % 2 ^ 32) = some k;
    (a0 < 16) ∧ ∃ a1, ∃ a2, (a1 < 2 ^ 64) ∧ (a2 < 2 ^ 32) ∧
  let cs (s : State) : List Nat := s.participants false;
  let may (s : State) : Prop := ready path s ∧ named s 0 ∧ (s.taskState = 0 ∨ s.taskState = 4 ∨ s.taskState = 6 ∨ s.taskState = 7) ∧
          s.opLive 3 = false ∧ s.quadrantOff = false ∧ s.ops.context = none ∧ s.ops.load = none ∧ s.startBarred (cs s) = false;
    Meets (.resumeFromImage path seq target a0 a1 a2 0) (fun s => may s ∧ (cs s = [] ∨ s.imagePlace a1 a2 (s.longest (cs s) false false) = false))) ∧
  (∃ (path : Path), ∃ (seq : Nat), ∃ (target : Nat),
  let named (s : State) (k : Nat) : Prop := s.named (target % 2 ^ 32) = some k;
    Meets (.cancel path seq target 0 0 0 0) (fun s => ready path s ∧ named s 0 ∧ s.taskState = 7)) ∧
  (∃ (path : Path), ∃ (seq : Nat), ∃ (target : Nat),
  let named (s : State) (k : Nat) : Prop := s.named (target % 2 ^ 32) = some k;
    Meets (.cancel path seq target 0 0 0 0) (fun s => ready path s ∧ named s 0 ∧ s.taskRuns = true ∧ s.ops.context = none)) ∧
  (∃ (path : Path), ∃ (seq : Nat), ∃ (target : Nat),
  let named (s : State) (k : Nat) : Prop := s.named (target % 2 ^ 32) = some k;
    Meets (.cancel path seq target 0 0 0 0) (fun s => ready path s ∧ named s 4 ∧ s.opState 4 = 4)) ∧
  (∃ (path : Path), ∃ (seq : Nat), ∃ (target : Nat),
  let named (s : State) (k : Nat) : Prop := s.named (target % 2 ^ 32) = some k;
    Meets (.cancel path seq target 0 0 0 0) (fun s => ready path s ∧ named s 2 ∧ (s.opState 2 = 2 ∨ s.opState 2 = 3))) ∧
  (∃ (path : Path), ∃ (seq : Nat), ∃ (target : Nat), ∃ (a0 : Nat), (a0 < 2) ∧
  let busy (s : State) : Prop := s.taskRuns = true ∨ s.opLive 1 = true ∨ s.quadrantOff = true ∨ s.ops.group ≠ [];
    Meets (.memtest path seq target a0 0 0 0) (fun s => ready path s ∧ ¬ busy s)) ∧
  (∃ (path : Path), ∃ (seq : Nat), ∃ (target : Nat), ∃ (a0 : Nat), (a0 < 2) ∧
  let busy (s : State) : Prop := s.taskRuns = true ∨ s.opLive 1 = true ∨ s.quadrantOff = true ∨ s.ops.group ≠ [];
    Meets (.memtest path seq target a0 0 0 0) (fun s => ready path s ∧ busy s)) ∧
  (∃ (path : Path), ∃ (seq : Nat), ∃ (target : Nat),
  let busy (s : State) : Prop := s.taskRuns = true ∨ s.opLive 2 = true ∨ s.quadrantOff = true ∨ s.ops.load ≠ none;
    Meets (.broadcast path seq target 0 0 0 0) (fun s => ready path s ∧ ¬ busy s)) ∧
  (∃ (path : Path), ∃ (seq : Nat), ∃ (target : Nat),
  let busy (s : State) : Prop := s.taskRuns = true ∨ s.opLive 2 = true ∨ s.quadrantOff = true ∨ s.ops.load ≠ none;
    Meets (.broadcast path seq target 0 0 0 0) (fun s => ready path s ∧ busy s)) ∧
  (∃ (path : Path), ∃ (seq : Nat), ∃ (target : Nat), ∃ (a0 : Nat), (a0 < 2 ^ 27) ∧
  let free (s : State) : Prop := ready path s ∧ s.ops.context = none ∧ s.opLive 3 = false ∧ s.quadrantOff = false;
    ∃ r, Meets (.rebond path seq target a0 0 0 0) (fun s => free s ∧ a0 % 64 = 0 ∧ (s.readRebond a0).2 = .ok r)) ∧
  (∃ (path : Path), ∃ (seq : Nat), ∃ (target : Nat), ∃ (a0 : Nat), (a0 < 2 ^ 27) ∧
  let free (s : State) : Prop := ready path s ∧ s.ops.context = none ∧ s.opLive 3 = false ∧ s.quadrantOff = false;
    ∃ (f : RebondFail), Meets (.rebond path seq target a0 0 0 0) (fun s => free s ∧ a0 % 64 = 0 ∧ (s.readRebond a0).2 = .error f)) ∧
  (∃ (path : Path), ∃ (seq : Nat), ∃ (target : Nat), ∃ (a0 : Nat), (a0 < 2 ^ 27) ∧
  let free (s : State) : Prop := ready path s ∧ s.ops.context = none ∧ s.opLive 3 = false ∧ s.quadrantOff = false;
    Meets (.rebond path seq target a0 0 0 0) (fun s => free s ∧ a0 % 64 ≠ 0)) ∧
  (∃ (path : Path), ∃ (seq : Nat), ∃ (target : Nat), Meets (.repair path seq target 0 0 0 0) (fun s => ready path s ∧ s.opLive 4 = false)) ∧
  (∃ (path : Path), ∃ (seq : Nat), ∃ (target : Nat), Meets (.repair path seq target 0 0 0 0) (fun s => ready path s ∧ s.opLive 4 = true)) ∧
  (∃ (r : CmdResult), Meets .cmdResult (fun s => s.frozen = false ∧ s.ops.result = some r)) ∧
  (Meets .cmdResult (fun s => s.frozen = false ∧ s.ops.result = none)) := by
  refine ⟨⟨(Sys2Proof.Path.other), (0), (0), (0), (0), (0), (0), (Sys2Proof.Instr.start (Sys2Proof.Path.other) 0 0 0 0 0 0), ?_, shown (states.getD 0 State.reset) ?_ ?_⟩,
    ⟨(Sys2Proof.Path.hub), (0), (0), (0), (0), (0), (0), (Sys2Proof.Instr.start (Sys2Proof.Path.hub) 0 0 0 0 0 0), ?_, shown (states.getD 2 State.reset) ?_ ?_⟩,
    ⟨(Sys2Proof.Path.hub), (0), (0), (0), (0), (0), (0), (Sys2Proof.Instr.start (Sys2Proof.Path.hub) 0 0 0 0 0 0), ?_, shown (states.getD 3 State.reset) ?_ ?_⟩,
    ⟨(Sys2Proof.Path.hub), (0), (0), (16384), (0), (0), (0), ?_, shown (states.getD 0 State.reset) ?_ ?_⟩,
    ⟨(Sys2Proof.Path.hub), (0), (0), (0), ?_, shown (states.getD 0 State.reset) ?_ ?_⟩,
    ⟨(Sys2Proof.Path.hub), (0), (0), (0), ?_, shown (states.getD 4 State.reset) ?_ ?_⟩,
    ⟨(Sys2Proof.Path.hub), (0), (0), (0), ?_, shown (states.getD 12 State.reset) ?_ ?_⟩,
    ⟨(Sys2Proof.Path.hub), (0), (0), (0), ?_, shown (states.getD 5 State.reset) ?_ ?_⟩,
    ⟨(Sys2Proof.Path.hub), (0), (3), (0), ?_, (0), (0), (0), ?_, ?_, ?_, shown (states.getD 6 State.reset) ?_ ?_⟩,
    ⟨(Sys2Proof.Path.hub), (0), (3), (0), ?_, (0), (0), (0), ?_, ?_, ?_, shown (states.getD 8 State.reset) ?_ ?_⟩,
    ⟨(Sys2Proof.Path.hub), (0), (0), (0), ?_, (0), (0), (0), ?_, ?_, ?_, shown (states.getD 0 State.reset) ?_ ?_⟩,
    ⟨(Sys2Proof.Path.hub), (0), (3), (0), ?_, (2), ?_, shown (states.getD 14 State.reset) ?_ ?_⟩,
    ⟨(Sys2Proof.Path.hub), (0), (3), (0), ?_, 0, ?_, shown (states.getD 8 State.reset) ?_ ?_⟩,
    ⟨(Sys2Proof.Path.hub), (0), (3), (0), ?_, 0, ?_, shown (states.getD 9 State.reset) ?_ ?_⟩,
    ⟨(Sys2Proof.Path.hub), (0), (3), (0), ?_, (1), ?_, shown (states.getD 21 State.reset) ?_ ?_⟩,
    ⟨(Sys2Proof.Path.hub), (0), (3), (0), ?_, (2674012278755328), (2097152), ?_, ?_, shown (states.getD 8 State.reset) ?_ ?_⟩,
    ⟨(Sys2Proof.Path.hub), (0), (3), (0), ?_, (0), (0), ?_, ?_, shown (states.getD 8 State.reset) ?_ ?_⟩,
    ⟨(Sys2Proof.Path.hub), (0), (3), shown (states.getD 12 State.reset) ?_ ?_⟩,
    ⟨(Sys2Proof.Path.hub), (0), (3), shown (states.getD 6 State.reset) ?_ ?_⟩,
    ⟨(Sys2Proof.Path.hub), (0), (3), shown (states.getD 17 State.reset) ?_ ?_⟩,
    ⟨(Sys2Proof.Path.hub), (0), (3), shown (states.getD 14 State.reset) ?_ ?_⟩,
    ⟨(Sys2Proof.Path.hub), (0), (0), (0), ?_, shown (states.getD 0 State.reset) ?_ ?_⟩,
    ⟨(Sys2Proof.Path.hub), (0), (0), (0), ?_, shown (states.getD 4 State.reset) ?_ ?_⟩,
    ⟨(Sys2Proof.Path.hub), (0), (0), shown (states.getD 0 State.reset) ?_ ?_⟩,
    ⟨(Sys2Proof.Path.hub), (0), (0), shown (states.getD 4 State.reset) ?_ ?_⟩,
    ⟨(Sys2Proof.Path.hub), (0), (0), (16384), ?_, ({ transform := 0,   e := 1,   r := 32,   c := 16,   idx := 0,   g := 0,   src := { rows := 32, cols := 16, br := 32, bc := 16, pr := 1, pc := 1, owners := [(2568459162517504, 16)] },   dst := { rows := 32,            cols := 16,            br := 16,            bc := 16,            pr := 2,            pc := 1,            owners := [(2586051349577728, 5510459818000), (2568459162521600, 5510443040800)] },   owners := [] }), shown (states.getD 26 State.reset) ?_ ?_⟩,
    ⟨(Sys2Proof.Path.hub), (0), (0), (0), ?_, ({ cause := 2, owner := 0, map := 0 }), shown (states.getD 0 State.reset) ?_ ?_⟩,
    ⟨(Sys2Proof.Path.hub), (0), (0), (3), ?_, shown (states.getD 0 State.reset) ?_ ?_⟩,
    ⟨(Sys2Proof.Path.hub), (0), (0), shown (states.getD 0 State.reset) ?_ ?_⟩,
    ⟨(Sys2Proof.Path.hub), (0), (0), shown (states.getD 16 State.reset) ?_ ?_⟩,
    ⟨({ status := 1, seq := 2, op := 3 }), shown (states.getD 24 State.reset) ?_ ?_⟩,
    shown (states.getD 0 State.reset) ?_ ?_⟩
  all_goals repeat' first | decide +kernel | (with_reducible first | refine State.wordFits_of ?_ | refine sidecars_of ?_ | refine apart_of ?_ ?_ ?_ | refine notWaiting_of ?_ | refine reaches_of ?_ | refine plainWord_of ?_ | refine forall_covers ?_ | refine placed_bed ?_ | refine placed_sync ?_ | refine placed_tie ?_ | refine State.branchable_of ?_ | refine ok_of ?_ | refine Sparse.sorted_of_sortedB _ ?_ | exact List.mem_cons_self | unfold vectorOk | refine error_of ?_ | refine ⟨1, 3, by decide +kernel, ?_⟩) | (intro h; exact absurd h (by decide +kernel)) | (intro q h4 h8; revert h4; revert h8; revert q; decide +kernel) | (refine Or.inl (by decide +kernel)) | (refine Or.inr (by decide +kernel)) | apply And.intro | (refine Exists.intro _ ?_) | (with_reducible constructor) | rfl | intro _
end TaskCommands

/-! LongOperations -/
namespace LongOperations
def gl (pkg die a : Nat) : Nat := pkg * 2 ^ 48 + die * 2 ^ 44 + a
def base : State := inTask up []
def idd (s : State) (l : List (Nat × Nat × Nat)) : State := l.foldl (fun s x => (s.wr Reg.CMD_OPS_ID 0 x.1 x.2.1).wr Reg.CMD_OPS_STATE 0 x.1 x.2.2) s
def op (s : State) (f : Ops → Ops) : State := { s with ops := f s.ops }
def rb0 : Rebond := ⟨0, 1, 32, 16, 0, 0, ⟨32, 16, 32, 16, 1, 1, [(gl 9 2 0x8000, 16)]⟩, ⟨32, 16, 16, 16, 2, 1, [(gl 9 3 0x100000, 16 + 2 ^ 24 + 3 * 2 ^ 32 + 5 * 2 ^ 40), (gl 9 2 0x9000, 32 + 3 * 2 ^ 32 + 5 * 2 ^ 40)]⟩, []⟩
def rbOwed : Rebond := { rb0 with owners := [(1, ⟨3, 2, false, false, false⟩)] }
def rbAway : Rebond := { rb0 with src := { rb0.src with owners := [(gl 9 3 0x8000, 16)] } }
def ms : List MemTest := [⟨true, 1, 0, 0⟩, ⟨false, 1, 0, 0⟩, ⟨false, 1, 1, 2⟩, ⟨false, 2, 2, 1⟩, ⟨true, 3, 0, 1⟩, ⟨true, 4, 0, 0⟩, ⟨false, 4, 2, 1⟩]
def ls : List Load := [⟨[1, 2], 0, 2⟩, ⟨[1, 2], 3, 2⟩, ⟨[1, 2], 1, 2⟩, ⟨[1, 2], 1, 6⟩]
def HB := gl 9 8 0x1000
def img : List Byte := (List.range 1100).map fun i => BitVec.ofNat 8 i
def kc (c next : Nat) (begun waiting : Bool) : CtxCore := ⟨c, if begun then img else [], next, begun, waiting, false⟩
def ks : List CtxCore := [kc 1 0 false false, kc 1 512 true false, kc 1 1024 true false, kc 1 1536 true true]
def cx (save : Bool) (k : CtxCore) : Context := ⟨save, true, true, false, HB, 2 ^ 21, [⟨0, [], 0, false, false, true⟩, k, kc 2 0 false false]⟩
def xs : List Context := (ks.flatMap fun k => [cx true k, cx false k])
def mtst (m : MemTest) (st : Nat) (f : Ops → Ops) : State := op (idd base [(1, 4, st)]) fun o => f { o with memtest := some m }
def ld (l : Load) (st : Nat) (f : Ops → Ops) : State := let s := op ((idd base [(2, 4, st)]).setD Reg.BOOT_SEGMENTS 2) fun o => f { o with load := some l }; { s with boot := { s.boot with stores := [(1, ⟨[9#8], [(3, 4#8), (700, 5#8)]⟩)] } }
def rbs (r : Rebond) (st : Nat) : State := op ((idd base [(3, 4, st)]).setD Reg.REBOND_STATE st) fun o => { o with rebond := some r }
def run (r : Rebond) (o off : Nat) : State := ((rbs r 2).wr Reg.REBOND_OWNER 0 (o % 64) o).wr Reg.REBOND_OFFSET 0 (o % 64) off
def ctx (x : Context) (st : Nat) : State := op (idd base [(5, 4, st)]) fun o => { o with context := some x }
def st1 : List State := (ms.flatMap fun m => [mtst m 2 id, mtst m 3 fun o => { o with suspending := [1] }, mtst m 2 fun o => { o with cancelling := [1] }]) ++ [base]
def st2 : List State := (ls.flatMap fun l => [ld l 2 id, ld l 3 fun o => { o with suspending := [2] }, ld l 2 fun o => { o with cancelling := [2] }]) ++ [ld ⟨[], 0, 2⟩ 2 id, base]
def st3 : List State := [rbs rb0 1, rbs rbAway 1, run rb0 0 0, run rb0 0 48, run rb0 1 32, run rb0 0 240, run rbOwed 0 0, run rbOwed 1 (15 * 32)] ++ (xs.flatMap fun x => [ctx x 2])
def states : List State := st1 ++ st2 ++ st3 ++ [ld ⟨[1], 0, 2⟩ 2 id]
theorem witness_1 :
  let op (s : State) (k : Nat) : Nat := s.opState k
  (∃ (m : MemTest), ∃ last,
  let runs (s : State) : Prop := s.clocksRun = true ∧ s.ops.memtest = some m ∧ m.step < 4 ∧ s.railClosed 1 = true ∧ (op s 1 = 2 ∨ op s 1 = 3);
    Meets (.memtestPassEnd last) (fun s => runs s ∧ 1 ∉ s.ops.cancelling ∧ 1 ∉ s.ops.suspending)) ∧
  (∃ (m : MemTest), ∃ last,
  let runs (s : State) : Prop := s.clocksRun = true ∧ s.ops.memtest = some m ∧ m.step < 4 ∧ s.railClosed 1 = true ∧ (op s 1 = 2 ∨ op s 1 = 3);
    Meets (.memtestPassEnd last) (fun s => runs s ∧ 1 ∉ s.ops.cancelling ∧ 1 ∈ s.ops.suspending)) ∧
  (∃ (m : MemTest), ∃ last,
  let runs (s : State) : Prop := s.clocksRun = true ∧ s.ops.memtest = some m ∧ m.step < 4 ∧ s.railClosed 1 = true ∧ (op s 1 = 2 ∨ op s 1 = 3);
    Meets (.memtestPassEnd last) (fun s => runs s ∧ 1 ∈ s.ops.cancelling)) ∧
  (∃ (m : MemTest), Meets (.memtestDone []) (fun s => s.clocksRun = true ∧ s.ops.memtest = some m ∧ m.step = 4 ∧ s.railClosed 1 = true ∧ op s 1 = 2)) ∧
  (∃ faults, Meets (.memtestDone faults) (fun s => s.clocksRun = true ∧ s.ops.memtest = none ∧ (s.ops.group = [] ∨ s.ops.load ≠ none))) ∧
  (∃ (l : Load), ∃ c, ∃ k, ∃ data,
  let takes (s : State) : Prop := s.clocksRun = true ∧ s.ops.load = some l ∧ c ∈ l.cores ∧ s.loading l = true ∧ s.segments ≤ 8;
    Meets (.floodPacket c k data) (fun s => takes s ∧ k < 8 * s.segments)) ∧
  (∃ (l : Load), ∃ c, ∃ data,
  let takes (s : State) : Prop := s.clocksRun = true ∧ s.ops.load = some l ∧ c ∈ l.cores ∧ s.loading l = true ∧ s.segments ≤ 8;
    Meets (.floodPacket c 64 data) takes) ∧
  (∃ (l : Load), ∃ c, ∃ data,
  let takes (s : State) : Prop := s.clocksRun = true ∧ s.ops.load = some l ∧ c ∈ l.cores ∧ s.loading l = true ∧ s.segments ≤ 8;
    Meets (.floodPacket c 65 data) takes) := by
  refine ⟨⟨({ quick := true, step := 1, setting := 0, pass := 0 }), (false), shown (states.getD 0 State.reset) ?_ ?_⟩,
    ⟨({ quick := true, step := 1, setting := 0, pass := 0 }), (false), shown (states.getD 1 State.reset) ?_ ?_⟩,
    ⟨({ quick := true, step := 1, setting := 0, pass := 0 }), (false), shown (states.getD 2 State.reset) ?_ ?_⟩,
    ⟨({ quick := true, step := 4, setting := 0, pass := 0 }), shown (states.getD 15 State.reset) ?_ ?_⟩,
    ⟨([]), shown (states.getD 21 State.reset) ?_ ?_⟩,
    ⟨({ cores := [1, 2], round := 0, why := 2 }), (1), (0), ([0x07#8,  0x08#8,  0x09#8,  0x0a#8,  0x0b#8,  0x0c#8,  0x0d#8,  0x0e#8,  0x0f#8,  0x10#8,  0x11#8,  0x12#8,  0x13#8,  0x14#8,  0x15#8,  0x16#8,  0x17#8,  0x18#8,  0x19#8,  0x1a#8,  0x1b#8,  0x1c#8,  0x1d#8,  0x1e#8,  0x1f#8,  0x20#8,  0x21#8,  0x22#8,  0x23#8,  0x24#8,  0x25#8,  0x26#8,  0x27#8,  0x28#8,  0x29#8,  0x2a#8,  0x2b#8,  0x2c#8,  0x2d#8,  0x2e#8,  0x2f#8,  0x30#8,  0x31#8,  0x32#8,  0x33#8,  0x34#8,  0x35#8,  0x36#8,  0x37#8,  0x38#8,  0x39#8,  0x3a#8,  0x3b#8,  0x3c#8,  0x3d#8,  0x3e#8,  0x3f#8,  0x40#8,  0x41#8,  0x42#8,  0x43#8,  0x44#8,  0x45#8,  0x46#8,  0x47#8,  0x48#8,  0x49#8,  0x4a#8,  0x4b#8,  0x4c#8,  0x4d#8,  0x4e#8,  0x4f#8,  0x50#8,  0x51#8,  0x52#8,  0x53#8,  0x54#8,  0x55#8,  0x56#8,  0x57#8,  0x58#8,  0x59#8,  0x5a#8,  0x5b#8,  0x5c#8,  0x5d#8,  0x5e#8,  0x5f#8,  0x60#8,  0x61#8,  0x62#8,  0x63#8,  0x64#8,  0x65#8,  0x66#8,  0x67#8,  0x68#8,  0x69#8,  0x6a#8,  0x6b#8,  0x6c#8,  0x6d#8,  0x6e#8,  0x6f#8,  0x70#8,  0x71#8,  0x72#8,  0x73#8,  0x74#8,  0x75#8,  0x76#8,  0x77#8,  0x78#8,  0x79#8,  0x7a#8,  0x7b#8,  0x7c#8,  0x7d#8,  0x7e#8,  0x7f#8,  0x80#8,  0x81#8,  0x82#8,  0x83#8,  0x84#8,  0x85#8,  0x86#8,  0x87#8,  0x88#8,  0x89#8,  0x8a#8,  0x8b#8,  0x8c#8,  0x8d#8,  0x8e#8,  0x8f#8,  0x90#8,  0x91#8,  0x92#8,  0x93#8,  0x94#8,  0x95#8,  0x96#8,  0x97#8,  0x98#8,  0x99#8,  0x9a#8,  0x9b#8,  0x9c#8,  0x9d#8,  0x9e#8,  0x9f#8,  0xa0#8,  0xa1#8,  0xa2#8,  0xa3#8,  0xa4#8,  0xa5#8,  0xa6#8,  0xa7#8,  0xa8#8,  0xa9#8,  0xaa#8,  0xab#8,  0xac#8,  0xad#8,  0xae#8,  0xaf#8,  0xb0#8,  0xb1#8,  0xb2#8,  0xb3#8,  0xb4#8,  0xb5#8,  0xb6#8,  0xb7#8,  0xb8#8,  0xb9#8,  0xba#8,  0xbb#8,  0xbc#8,  0xbd#8,  0xbe#8,  0xbf#8,  0xc0#8,  0xc1#8,  0xc2#8,  0xc3#8,  0xc4#8,  0xc5#8,  0xc6#8,  0xc7#8,  0xc8#8,  0xc9#8,  0xca#8,  0xcb#8,  0xcc#8,  0xcd#8,  0xce#8,  0xcf#8,  0xd0#8,  0xd1#8,  0xd2#8,  0xd3#8,  0xd4#8,  0xd5#8,  0xd6#8,  0xd7#8,  0xd8#8,  0xd9#8,  0xda#8,  0xdb#8,  0xdc#8,  0xdd#8,  0xde#8,  0xdf#8,  0xe0#8,  0xe1#8,  0xe2#8,  0xe3#8,  0xe4#8,  0xe5#8,  0xe6#8,  0xe7#8,  0xe8#8,  0xe9#8,  0xea#8,  0xeb#8,  0xec#8,  0xed#8,  0xee#8,  0xef#8,  0xf0#8,  0xf1#8,  0xf2#8,  0xf3#8,  0xf4#8,  0xf5#8,  0xf6#8,  0xf7#8,  0xf8#8,  0xf9#8,  0xfa#8,  0xfb#8,  0xfc#8,  0xfd#8,  0xfe#8,  0xff#8,  0x00#8,  0x01#8,  0x02#8,  0x03#8,  0x04#8,  0x05#8,  0x06#8,  0x07#8,  0x08#8,  0x09#8,  0x0a#8,  0x0b#8,  0x0c#8,  0x0d#8,  0x0e#8,  0x0f#8,  0x10#8,  0x11#8,  0x12#8,  0x13#8,  0x14#8,  0x15#8,  0x16#8,  0x17#8,  0x18#8,  0x19#8,  0x1a#8,  0x1b#8,  0x1c#8,  0x1d#8,  0x1e#8,  0x1f#8,  0x20#8,  0x21#8,  0x22#8,  0x23#8,  0x24#8,  0x25#8,  0x26#8,  0x27#8,  0x28#8,  0x29#8,  0x2a#8,  0x2b#8,  0x2c#8,  0x2d#8,  0x2e#8,  0x2f#8,  0x30#8,  0x31#8,  0x32#8,  0x33#8,  0x34#8,  0x35#8,  0x36#8,  0x37#8,  0x38#8,  0x39#8,  0x3a#8,  0x3b#8,  0x3c#8,  0x3d#8,  0x3e#8,  0x3f#8,  0x40#8,  0x41#8,  0x42#8,  0x43#8,  0x44#8,  0x45#8,  0x46#8,  0x47#8,  0x48#8,  0x49#8,  0x4a#8,  0x4b#8,  0x4c#8,  0x4d#8,  0x4e#8,  0x4f#8,  0x50#8,  0x51#8,  0x52#8,  0x53#8,  0x54#8,  0x55#8,  0x56#8,  0x57#8,  0x58#8,  0x59#8,  0x5a#8,  0x5b#8,  0x5c#8,  0x5d#8,  0x5e#8,  0x5f#8,  0x60#8,  0x61#8,  0x62#8,  0x63#8,  0x64#8,  0x65#8,  0x66#8,  0x67#8,  0x68#8,  0x69#8,  0x6a#8,  0x6b#8,  0x6c#8,  0x6d#8,  0x6e#8,  0x6f#8,  0x70#8,  0x71#8,  0x72#8,  0x73#8,  0x74#8,  0x75#8,  0x76#8,  0x77#8,  0x78#8,  0x79#8,  0x7a#8,  0x7b#8,  0x7c#8,  0x7d#8,  0x7e#8,  0x7f#8,  0x80#8,  0x81#8,  0x82#8,  0x83#8,  0x84#8,  0x85#8,  0x86#8,  0x87#8,  0x88#8,  0x89#8,  0x8a#8,  0x8b#8,  0x8c#8,  0x8d#8,  0x8e#8,  0x8f#8,  0x90#8,  0x91#8,  0x92#8,  0x93#8,  0x94#8,  0x95#8,  0x96#8,  0x97#8,  0x98#8,  0x99#8,  0x9a#8,  0x9b#8,  0x9c#8,  0x9d#8,  0x9e#8,  0x9f#8,  0xa0#8,  0xa1#8,  0xa2#8,  0xa3#8,  0xa4#8,  0xa5#8,  0xa6#8,  0xa7#8,  0xa8#8,  0xa9#8,  0xaa#8,  0xab#8,  0xac#8,  0xad#8,  0xae#8,  0xaf#8,  0xb0#8,  0xb1#8,  0xb2#8,  0xb3#8,  0xb4#8,  0xb5#8,  0xb6#8,  0xb7#8,  0xb8#8,  0xb9#8,  0xba#8,  0xbb#8,  0xbc#8,  0xbd#8,  0xbe#8,  0xbf#8,  0xc0#8,  0xc1#8,  0xc2#8,  0xc3#8,  0xc4#8,  0xc5#8,  0xc6#8,  0xc7#8,  0xc8#8,  0xc9#8,  0xca#8,  0xcb#8,  0xcc#8,  0xcd#8,  0xce#8,  0xcf#8,  0xd0#8,  0xd1#8,  0xd2#8,  0xd3#8,  0xd4#8,  0xd5#8,  0xd6#8,  0xd7#8,  0xd8#8,  0xd9#8,  0xda#8,  0xdb#8,  0xdc#8,  0xdd#8,  0xde#8,  0xdf#8,  0xe0#8,  0xe1#8,  0xe2#8,  0xe3#8,  0xe4#8,  0xe5#8,  0xe6#8,  0xe7#8,  0xe8#8,  0xe9#8,  0xea#8,  0xeb#8,  0xec#8,  0xed#8,  0xee#8,  0xef#8,  0xf0#8,  0xf1#8,  0xf2#8,  0xf3#8,  0xf4#8,  0xf5#8,  0xf6#8,  0xf7#8,  0xf8#8,  0xf9#8,  0xfa#8,  0xfb#8,  0xfc#8,  0xfd#8,  0xfe#8,  0xff#8,  0x00#8,  0x01#8,  0x02#8,  0x03#8,  0x04#8,  0x05#8,  0x06#8]), shown (states.getD 22 State.reset) ?_ ?_⟩,
    ⟨({ cores := [1, 2], round := 0, why := 2 }), (1), ([0x07#8,  0x08#8,  0x09#8,  0x0a#8,  0x0b#8,  0x0c#8,  0x0d#8,  0x0e#8,  0x0f#8,  0x10#8,  0x11#8,  0x12#8,  0x13#8,  0x14#8,  0x15#8,  0x16#8,  0x17#8,  0x18#8,  0x19#8,  0x1a#8,  0x1b#8,  0x1c#8,  0x1d#8,  0x1e#8,  0x1f#8,  0x20#8,  0x21#8,  0x22#8,  0x23#8,  0x24#8,  0x25#8,  0x26#8,  0x27#8,  0x28#8,  0x29#8,  0x2a#8,  0x2b#8,  0x2c#8,  0x2d#8,  0x2e#8,  0x2f#8,  0x30#8,  0x31#8,  0x32#8,  0x33#8,  0x34#8,  0x35#8,  0x36#8,  0x37#8,  0x38#8,  0x39#8,  0x3a#8,  0x3b#8,  0x3c#8,  0x3d#8,  0x3e#8,  0x3f#8,  0x40#8,  0x41#8,  0x42#8,  0x43#8,  0x44#8,  0x45#8,  0x46#8,  0x47#8,  0x48#8,  0x49#8,  0x4a#8,  0x4b#8,  0x4c#8,  0x4d#8,  0x4e#8,  0x4f#8,  0x50#8,  0x51#8,  0x52#8,  0x53#8,  0x54#8,  0x55#8,  0x56#8,  0x57#8,  0x58#8,  0x59#8,  0x5a#8,  0x5b#8,  0x5c#8,  0x5d#8,  0x5e#8,  0x5f#8,  0x60#8,  0x61#8,  0x62#8,  0x63#8,  0x64#8,  0x65#8,  0x66#8,  0x67#8,  0x68#8,  0x69#8,  0x6a#8,  0x6b#8,  0x6c#8,  0x6d#8,  0x6e#8,  0x6f#8,  0x70#8,  0x71#8,  0x72#8,  0x73#8,  0x74#8,  0x75#8,  0x76#8,  0x77#8,  0x78#8,  0x79#8,  0x7a#8,  0x7b#8,  0x7c#8,  0x7d#8,  0x7e#8,  0x7f#8,  0x80#8,  0x81#8,  0x82#8,  0x83#8,  0x84#8,  0x85#8,  0x86#8,  0x87#8,  0x88#8,  0x89#8,  0x8a#8,  0x8b#8,  0x8c#8,  0x8d#8,  0x8e#8,  0x8f#8,  0x90#8,  0x91#8,  0x92#8,  0x93#8,  0x94#8,  0x95#8,  0x96#8,  0x97#8,  0x98#8,  0x99#8,  0x9a#8,  0x9b#8,  0x9c#8,  0x9d#8,  0x9e#8,  0x9f#8,  0xa0#8,  0xa1#8,  0xa2#8,  0xa3#8,  0xa4#8,  0xa5#8,  0xa6#8,  0xa7#8,  0xa8#8,  0xa9#8,  0xaa#8,  0xab#8,  0xac#8,  0xad#8,  0xae#8,  0xaf#8,  0xb0#8,  0xb1#8,  0xb2#8,  0xb3#8,  0xb4#8,  0xb5#8,  0xb6#8,  0xb7#8,  0xb8#8,  0xb9#8,  0xba#8,  0xbb#8,  0xbc#8,  0xbd#8,  0xbe#8,  0xbf#8,  0xc0#8,  0xc1#8,  0xc2#8,  0xc3#8,  0xc4#8,  0xc5#8,  0xc6#8,  0xc7#8,  0xc8#8,  0xc9#8,  0xca#8,  0xcb#8,  0xcc#8,  0xcd#8,  0xce#8,  0xcf#8,  0xd0#8,  0xd1#8,  0xd2#8,  0xd3#8,  0xd4#8,  0xd5#8,  0xd6#8,  0xd7#8,  0xd8#8,  0xd9#8,  0xda#8,  0xdb#8,  0xdc#8,  0xdd#8,  0xde#8,  0xdf#8,  0xe0#8,  0xe1#8,  0xe2#8,  0xe3#8,  0xe4#8,  0xe5#8,  0xe6#8,  0xe7#8,  0xe8#8,  0xe9#8,  0xea#8,  0xeb#8,  0xec#8,  0xed#8,  0xee#8,  0xef#8,  0xf0#8,  0xf1#8,  0xf2#8,  0xf3#8,  0xf4#8,  0xf5#8,  0xf6#8,  0xf7#8,  0xf8#8,  0xf9#8,  0xfa#8,  0xfb#8,  0xfc#8,  0xfd#8,  0xfe#8,  0xff#8,  0x00#8,  0x01#8,  0x02#8,  0x03#8,  0x04#8,  0x05#8,  0x06#8,  0x07#8,  0x08#8,  0x09#8,  0x0a#8,  0x0b#8,  0x0c#8,  0x0d#8,  0x0e#8,  0x0f#8,  0x10#8,  0x11#8,  0x12#8,  0x13#8,  0x14#8,  0x15#8,  0x16#8,  0x17#8,  0x18#8,  0x19#8,  0x1a#8,  0x1b#8,  0x1c#8,  0x1d#8,  0x1e#8,  0x1f#8,  0x20#8,  0x21#8,  0x22#8,  0x23#8,  0x24#8,  0x25#8,  0x26#8,  0x27#8,  0x28#8,  0x29#8,  0x2a#8,  0x2b#8,  0x2c#8,  0x2d#8,  0x2e#8,  0x2f#8,  0x30#8,  0x31#8,  0x32#8,  0x33#8,  0x34#8,  0x35#8,  0x36#8,  0x37#8,  0x38#8,  0x39#8,  0x3a#8,  0x3b#8,  0x3c#8,  0x3d#8,  0x3e#8,  0x3f#8,  0x40#8,  0x41#8,  0x42#8,  0x43#8,  0x44#8,  0x45#8,  0x46#8,  0x47#8,  0x48#8,  0x49#8,  0x4a#8,  0x4b#8,  0x4c#8,  0x4d#8,  0x4e#8,  0x4f#8,  0x50#8,  0x51#8,  0x52#8,  0x53#8,  0x54#8,  0x55#8,  0x56#8,  0x57#8,  0x58#8,  0x59#8,  0x5a#8,  0x5b#8,  0x5c#8,  0x5d#8,  0x5e#8,  0x5f#8,  0x60#8,  0x61#8,  0x62#8,  0x63#8,  0x64#8,  0x65#8,  0x66#8,  0x67#8,  0x68#8,  0x69#8,  0x6a#8,  0x6b#8,  0x6c#8,  0x6d#8,  0x6e#8,  0x6f#8,  0x70#8,  0x71#8,  0x72#8,  0x73#8,  0x74#8,  0x75#8,  0x76#8,  0x77#8,  0x78#8,  0x79#8,  0x7a#8,  0x7b#8,  0x7c#8,  0x7d#8,  0x7e#8,  0x7f#8,  0x80#8,  0x81#8,  0x82#8,  0x83#8,  0x84#8,  0x85#8,  0x86#8,  0x87#8,  0x88#8,  0x89#8,  0x8a#8,  0x8b#8,  0x8c#8,  0x8d#8,  0x8e#8,  0x8f#8,  0x90#8,  0x91#8,  0x92#8,  0x93#8,  0x94#8,  0x95#8,  0x96#8,  0x97#8,  0x98#8,  0x99#8,  0x9a#8,  0x9b#8,  0x9c#8,  0x9d#8,  0x9e#8,  0x9f#8,  0xa0#8,  0xa1#8,  0xa2#8,  0xa3#8,  0xa4#8,  0xa5#8,  0xa6#8,  0xa7#8,  0xa8#8,  0xa9#8,  0xaa#8,  0xab#8,  0xac#8,  0xad#8,  0xae#8,  0xaf#8,  0xb0#8,  0xb1#8,  0xb2#8,  0xb3#8,  0xb4#8,  0xb5#8,  0xb6#8,  0xb7#8,  0xb8#8,  0xb9#8,  0xba#8,  0xbb#8,  0xbc#8,  0xbd#8,  0xbe#8,  0xbf#8,  0xc0#8,  0xc1#8,  0xc2#8,  0xc3#8,  0xc4#8,  0xc5#8,  0xc6#8,  0xc7#8,  0xc8#8,  0xc9#8,  0xca#8,  0xcb#8,  0xcc#8,  0xcd#8,  0xce#8,  0xcf#8,  0xd0#8,  0xd1#8,  0xd2#8,  0xd3#8,  0xd4#8,  0xd5#8,  0xd6#8,  0xd7#8,  0xd8#8,  0xd9#8,  0xda#8,  0xdb#8,  0xdc#8,  0xdd#8,  0xde#8,  0xdf#8,  0xe0#8,  0xe1#8,  0xe2#8,  0xe3#8,  0xe4#8,  0xe5#8,  0xe6#8,  0xe7#8,  0xe8#8,  0xe9#8,  0xea#8,  0xeb#8,  0xec#8,  0xed#8,  0xee#8,  0xef#8,  0xf0#8,  0xf1#8,  0xf2#8,  0xf3#8,  0xf4#8,  0xf5#8,  0xf6#8,  0xf7#8,  0xf8#8,  0xf9#8,  0xfa#8,  0xfb#8,  0xfc#8,  0xfd#8,  0xfe#8,  0xff#8,  0x00#8,  0x01#8,  0x02#8,  0x03#8,  0x04#8,  0x05#8,  0x06#8]), shown (states.getD 22 State.reset) ?_ ?_⟩,
    ⟨({ cores := [1, 2], round := 0, why := 2 }), (1), ([0x07#8,  0x08#8,  0x09#8,  0x0a#8,  0x0b#8,  0x0c#8,  0x0d#8,  0x0e#8,  0x0f#8,  0x10#8,  0x11#8,  0x12#8,  0x13#8,  0x14#8,  0x15#8,  0x16#8,  0x17#8,  0x18#8,  0x19#8,  0x1a#8,  0x1b#8,  0x1c#8,  0x1d#8,  0x1e#8,  0x1f#8,  0x20#8,  0x21#8,  0x22#8,  0x23#8,  0x24#8,  0x25#8,  0x26#8,  0x27#8,  0x28#8,  0x29#8,  0x2a#8,  0x2b#8,  0x2c#8,  0x2d#8,  0x2e#8,  0x2f#8,  0x30#8,  0x31#8,  0x32#8,  0x33#8,  0x34#8,  0x35#8,  0x36#8,  0x37#8,  0x38#8,  0x39#8,  0x3a#8,  0x3b#8,  0x3c#8,  0x3d#8,  0x3e#8,  0x3f#8,  0x40#8,  0x41#8,  0x42#8,  0x43#8,  0x44#8,  0x45#8,  0x46#8,  0x47#8,  0x48#8,  0x49#8,  0x4a#8,  0x4b#8,  0x4c#8,  0x4d#8,  0x4e#8,  0x4f#8,  0x50#8,  0x51#8,  0x52#8,  0x53#8,  0x54#8,  0x55#8,  0x56#8,  0x57#8,  0x58#8,  0x59#8,  0x5a#8,  0x5b#8,  0x5c#8,  0x5d#8,  0x5e#8,  0x5f#8,  0x60#8,  0x61#8,  0x62#8,  0x63#8,  0x64#8,  0x65#8,  0x66#8,  0x67#8,  0x68#8,  0x69#8,  0x6a#8,  0x6b#8,  0x6c#8,  0x6d#8,  0x6e#8,  0x6f#8,  0x70#8,  0x71#8,  0x72#8,  0x73#8,  0x74#8,  0x75#8,  0x76#8,  0x77#8,  0x78#8,  0x79#8,  0x7a#8,  0x7b#8,  0x7c#8,  0x7d#8,  0x7e#8,  0x7f#8,  0x80#8,  0x81#8,  0x82#8,  0x83#8,  0x84#8,  0x85#8,  0x86#8,  0x87#8,  0x88#8,  0x89#8,  0x8a#8,  0x8b#8,  0x8c#8,  0x8d#8,  0x8e#8,  0x8f#8,  0x90#8,  0x91#8,  0x92#8,  0x93#8,  0x94#8,  0x95#8,  0x96#8,  0x97#8,  0x98#8,  0x99#8,  0x9a#8,  0x9b#8,  0x9c#8,  0x9d#8,  0x9e#8,  0x9f#8,  0xa0#8,  0xa1#8,  0xa2#8,  0xa3#8,  0xa4#8,  0xa5#8,  0xa6#8,  0xa7#8,  0xa8#8,  0xa9#8,  0xaa#8,  0xab#8,  0xac#8,  0xad#8,  0xae#8,  0xaf#8,  0xb0#8,  0xb1#8,  0xb2#8,  0xb3#8,  0xb4#8,  0xb5#8,  0xb6#8,  0xb7#8,  0xb8#8,  0xb9#8,  0xba#8,  0xbb#8,  0xbc#8,  0xbd#8,  0xbe#8,  0xbf#8,  0xc0#8,  0xc1#8,  0xc2#8,  0xc3#8,  0xc4#8,  0xc5#8,  0xc6#8,  0xc7#8,  0xc8#8,  0xc9#8,  0xca#8,  0xcb#8,  0xcc#8,  0xcd#8,  0xce#8,  0xcf#8,  0xd0#8,  0xd1#8,  0xd2#8,  0xd3#8,  0xd4#8,  0xd5#8,  0xd6#8,  0xd7#8,  0xd8#8,  0xd9#8,  0xda#8,  0xdb#8,  0xdc#8,  0xdd#8,  0xde#8,  0xdf#8,  0xe0#8,  0xe1#8,  0xe2#8,  0xe3#8,  0xe4#8,  0xe5#8,  0xe6#8,  0xe7#8,  0xe8#8,  0xe9#8,  0xea#8,  0xeb#8,  0xec#8,  0xed#8,  0xee#8,  0xef#8,  0xf0#8,  0xf1#8,  0xf2#8,  0xf3#8,  0xf4#8,  0xf5#8,  0xf6#8,  0xf7#8,  0xf8#8,  0xf9#8,  0xfa#8,  0xfb#8,  0xfc#8,  0xfd#8,  0xfe#8,  0xff#8,  0x00#8,  0x01#8,  0x02#8,  0x03#8,  0x04#8,  0x05#8,  0x06#8,  0x07#8,  0x08#8,  0x09#8,  0x0a#8,  0x0b#8,  0x0c#8,  0x0d#8,  0x0e#8,  0x0f#8,  0x10#8,  0x11#8,  0x12#8,  0x13#8,  0x14#8,  0x15#8,  0x16#8,  0x17#8,  0x18#8,  0x19#8,  0x1a#8,  0x1b#8,  0x1c#8,  0x1d#8,  0x1e#8,  0x1f#8,  0x20#8,  0x21#8,  0x22#8,  0x23#8,  0x24#8,  0x25#8,  0x26#8,  0x27#8,  0x28#8,  0x29#8,  0x2a#8,  0x2b#8,  0x2c#8,  0x2d#8,  0x2e#8,  0x2f#8,  0x30#8,  0x31#8,  0x32#8,  0x33#8,  0x34#8,  0x35#8,  0x36#8,  0x37#8,  0x38#8,  0x39#8,  0x3a#8,  0x3b#8,  0x3c#8,  0x3d#8,  0x3e#8,  0x3f#8,  0x40#8,  0x41#8,  0x42#8,  0x43#8,  0x44#8,  0x45#8,  0x46#8,  0x47#8,  0x48#8,  0x49#8,  0x4a#8,  0x4b#8,  0x4c#8,  0x4d#8,  0x4e#8,  0x4f#8,  0x50#8,  0x51#8,  0x52#8,  0x53#8,  0x54#8,  0x55#8,  0x56#8,  0x57#8,  0x58#8,  0x59#8,  0x5a#8,  0x5b#8,  0x5c#8,  0x5d#8,  0x5e#8,  0x5f#8,  0x60#8,  0x61#8,  0x62#8,  0x63#8,  0x64#8,  0x65#8,  0x66#8,  0x67#8,  0x68#8,  0x69#8,  0x6a#8,  0x6b#8,  0x6c#8,  0x6d#8,  0x6e#8,  0x6f#8,  0x70#8,  0x71#8,  0x72#8,  0x73#8,  0x74#8,  0x75#8,  0x76#8,  0x77#8,  0x78#8,  0x79#8,  0x7a#8,  0x7b#8,  0x7c#8,  0x7d#8,  0x7e#8,  0x7f#8,  0x80#8,  0x81#8,  0x82#8,  0x83#8,  0x84#8,  0x85#8,  0x86#8,  0x87#8,  0x88#8,  0x89#8,  0x8a#8,  0x8b#8,  0x8c#8,  0x8d#8,  0x8e#8,  0x8f#8,  0x90#8,  0x91#8,  0x92#8,  0x93#8,  0x94#8,  0x95#8,  0x96#8,  0x97#8,  0x98#8,  0x99#8,  0x9a#8,  0x9b#8,  0x9c#8,  0x9d#8,  0x9e#8,  0x9f#8,  0xa0#8,  0xa1#8,  0xa2#8,  0xa3#8,  0xa4#8,  0xa5#8,  0xa6#8,  0xa7#8,  0xa8#8,  0xa9#8,  0xaa#8,  0xab#8,  0xac#8,  0xad#8,  0xae#8,  0xaf#8,  0xb0#8,  0xb1#8,  0xb2#8,  0xb3#8,  0xb4#8,  0xb5#8,  0xb6#8,  0xb7#8,  0xb8#8,  0xb9#8,  0xba#8,  0xbb#8,  0xbc#8,  0xbd#8,  0xbe#8,  0xbf#8,  0xc0#8,  0xc1#8,  0xc2#8,  0xc3#8,  0xc4#8,  0xc5#8,  0xc6#8,  0xc7#8,  0xc8#8,  0xc9#8,  0xca#8,  0xcb#8,  0xcc#8,  0xcd#8,  0xce#8,  0xcf#8,  0xd0#8,  0xd1#8,  0xd2#8,  0xd3#8,  0xd4#8,  0xd5#8,  0xd6#8,  0xd7#8,  0xd8#8,  0xd9#8,  0xda#8,  0xdb#8,  0xdc#8,  0xdd#8,  0xde#8,  0xdf#8,  0xe0#8,  0xe1#8,  0xe2#8,  0xe3#8,  0xe4#8,  0xe5#8,  0xe6#8,  0xe7#8,  0xe8#8,  0xe9#8,  0xea#8,  0xeb#8,  0xec#8,  0xed#8,  0xee#8,  0xef#8,  0xf0#8,  0xf1#8,  0xf2#8,  0xf3#8,  0xf4#8,  0xf5#8,  0xf6#8,  0xf7#8,  0xf8#8,  0xf9#8,  0xfa#8,  0xfb#8,  0xfc#8,  0xfd#8,  0xfe#8,  0xff#8,  0x00#8,  0x01#8,  0x02#8,  0x03#8,  0x04#8,  0x05#8,  0x06#8]), shown (states.getD 22 State.reset) ?_ ?_⟩⟩
  all_goals repeat' first | decide +kernel | (with_reducible first | refine State.wordFits_of ?_ | refine sidecars_of ?_ | refine apart_of ?_ ?_ ?_ | refine notWaiting_of ?_ | refine reaches_of ?_ | refine plainWord_of ?_ | refine forall_covers ?_ | refine placed_bed ?_ | refine placed_sync ?_ | refine placed_tie ?_ | refine State.branchable_of ?_ | refine ok_of ?_ | refine Sparse.sorted_of_sortedB _ ?_ | exact List.mem_cons_self | unfold vectorOk | refine error_of ?_ | refine ⟨1, 3, by decide +kernel, ?_⟩) | (intro h; exact absurd h (by decide +kernel)) | (intro q h4 h8; revert h4; revert h8; revert q; decide +kernel) | (refine Or.inl (by decide +kernel)) | (refine Or.inr (by decide +kernel)) | apply And.intro | (refine Exists.intro _ ?_) | (with_reducible constructor) | rfl | intro _
theorem witness_2 :
  let op (s : State) (k : Nat) : Nat := s.opState k
  (∃ (l : Load),
  let live (s : State) : Prop := s.clocksRun = true ∧ s.ops.load = some l ∧ l.why = 2 ∧ s.loading l = true;
    Meets .broadcastRound (fun s => live s ∧ 2 ∉ s.ops.cancelling ∧ s.incomplete l = [])) ∧
  (∃ (l : Load),
  let live (s : State) : Prop := s.clocksRun = true ∧ s.ops.load = some l ∧ l.why = 2 ∧ s.loading l = true;
    Meets .broadcastRound (fun s => live s ∧ 2 ∉ s.ops.cancelling ∧ 2 ∉ s.ops.suspending ∧ s.incomplete l ≠ [] ∧ l.round < 3)) ∧
  (∃ (l : Load),
  let live (s : State) : Prop := s.clocksRun = true ∧ s.ops.load = some l ∧ l.why = 2 ∧ s.loading l = true;
    Meets .broadcastRound (fun s => live s ∧ 2 ∉ s.ops.cancelling ∧ s.incomplete l ≠ [] ∧ 3 ≤ l.round)) ∧
  (∃ (l : Load),
  let live (s : State) : Prop := s.clocksRun = true ∧ s.ops.load = some l ∧ l.why = 2 ∧ s.loading l = true;
    Meets .broadcastRound (fun s => live s ∧ 2 ∈ s.ops.cancelling)) ∧
  (∃ (r : Rebond), Meets .rebondMoverStart (fun s => s.clocksRun = true ∧ s.ops.rebond = some r ∧ op s 3 = 1 ∧ r.dst.pr * r.dst.pc ≤ 4096 ∧ ∃ m < 64, s.nextOwner r m 0 ≠ none)) ∧
  (∃ (r : Rebond), Meets .rebondMoverStart (fun s => s.clocksRun = true ∧ s.ops.rebond = some r ∧ op s 3 = 1 ∧ r.owners = [] ∧ ∀ m < 64, s.nextOwner r m 0 = none)) ∧
  (∃ (r : Rebond), ∃ m, ∃ o, ∃ q, ∃ bs, (m < 64) ∧
  let n (s : State) : Nat := s.packetGranules r o q 32;
    Meets (.rebondPacket m) (fun s => s.clocksRun = true ∧ s.ops.rebond = some r ∧ op s 3 = 2 ∧ s.rd Reg.REBOND_OWNER 0 m = o ∧ o < 4096 ∧ (r.owner o).abandoned = false ∧
          s.nextGranule r o (r.granuleAt o (s.rd Reg.REBOND_OFFSET 0 m)) = some q ∧ s.marks = [] ∧
          (s.readGranules r o ((List.range (n s)).map (· + q))).2 = .ok bs)) ∧
  (∃ (r : Rebond), ∃ m, ∃ o, ∃ x, Meets (.rebondTimeout m) (fun s => s.clocksRun = true ∧ s.ops.rebond = some r ∧ op s 3 = 2 ∧ r.owners.find? (fun x => decide (x.1 % 64 = m) && decide (0 < x.2.owed)) = some (o, x))) := by
  refine ⟨⟨({ cores := [], round := 0, why := 2 }), shown (states.getD 34 State.reset) ?_ ?_⟩,
    ⟨({ cores := [1, 2], round := 0, why := 2 }), shown (states.getD 22 State.reset) ?_ ?_⟩,
    ⟨({ cores := [1, 2], round := 3, why := 2 }), shown (states.getD 25 State.reset) ?_ ?_⟩,
    ⟨({ cores := [1, 2], round := 0, why := 2 }), shown (states.getD 24 State.reset) ?_ ?_⟩,
    ⟨({ transform := 0,   e := 1,   r := 32,   c := 16,   idx := 0,   g := 0,   src := { rows := 32, cols := 16, br := 32, bc := 16, pr := 1, pc := 1, owners := [(2568459162517504, 16)] },   dst := { rows := 32,            cols := 16,            br := 16,            bc := 16,            pr := 2,            pc := 1,            owners := [(2586051349577728, 5510459818000), (2568459162521600, 5510443040800)] },   owners := [] }), shown (states.getD 36 State.reset) ?_ ?_⟩,
    ⟨({ transform := 0,   e := 1,   r := 32,   c := 16,   idx := 0,   g := 0,   src := { rows := 32, cols := 16, br := 32, bc := 16, pr := 1, pc := 1, owners := [(2586051348561920, 16)] },   dst := { rows := 32,            cols := 16,            br := 16,            bc := 16,            pr := 2,            pc := 1,            owners := [(2586051349577728, 5510459818000), (2568459162521600, 5510443040800)] },   owners := [] }), shown (states.getD 37 State.reset) ?_ ?_⟩,
    ⟨({ transform := 0,   e := 1,   r := 32,   c := 16,   idx := 0,   g := 0,   src := { rows := 32, cols := 16, br := 32, bc := 16, pr := 1, pc := 1, owners := [(2568459162517504, 16)] },   dst := { rows := 32,            cols := 16,            br := 16,            bc := 16,            pr := 2,            pc := 1,            owners := [(2586051349577728, 5510459818000), (2568459162521600, 5510443040800)] },   owners := [] }), (0), (0), (0), ([0x00#8,  0x00#8,  0x00#8,  0x00#8,  0x00#8,  0x00#8,  0x00#8,  0x00#8,  0x00#8,  0x00#8,  0x00#8,  0x00#8,  0x00#8,  0x00#8,  0x00#8,  0x00#8,  0x00#8,  0x00#8,  0x00#8,  0x00#8,  0x00#8,  0x00#8,  0x00#8,  0x00#8,  0x00#8,  0x00#8,  0x00#8,  0x00#8,  0x00#8,  0x00#8,  0x00#8,  0x00#8,  0x00#8,  0x00#8,  0x00#8,  0x00#8,  0x00#8,  0x00#8,  0x00#8,  0x00#8,  0x00#8,  0x00#8,  0x00#8,  0x00#8,  0x00#8,  0x00#8,  0x00#8,  0x00#8,  0x00#8,  0x00#8,  0x00#8,  0x00#8,  0x00#8,  0x00#8,  0x00#8,  0x00#8,  0x00#8,  0x00#8,  0x00#8,  0x00#8,  0x00#8,  0x00#8,  0x00#8,  0x00#8,  0x00#8,  0x00#8,  0x00#8,  0x00#8,  0x00#8,  0x00#8,  0x00#8,  0x00#8,  0x00#8,  0x00#8,  0x00#8,  0x00#8,  0x00#8,  0x00#8,  0x00#8,  0x00#8,  0x00#8,  0x00#8,  0x00#8,  0x00#8,  0x00#8,  0x00#8,  0x00#8,  0x00#8,  0x00#8,  0x00#8,  0x00#8,  0x00#8,  0x00#8,  0x00#8,  0x00#8,  0x00#8,  0x00#8,  0x00#8,  0x00#8,  0x00#8,  0x00#8,  0x00#8,  0x00#8,  0x00#8,  0x00#8,  0x00#8,  0x00#8,  0x00#8,  0x00#8,  0x00#8,  0x00#8,  0x00#8,  0x00#8,  0x00#8,  0x00#8,  0x00#8,  0x00#8,  0x00#8,  0x00#8,  0x00#8,  0x00#8,  0x00#8,  0x00#8,  0x00#8,  0x00#8,  0x00#8,  0x00#8,  0x00#8,  0x00#8,  0x00#8,  0x00#8,  0x00#8,  0x00#8,  0x00#8,  0x00#8,  0x00#8,  0x00#8,  0x00#8,  0x00#8,  0x00#8,  0x00#8,  0x00#8,  0x00#8,  0x00#8,  0x00#8,  0x00#8,  0x00#8,  0x00#8,  0x00#8,  0x00#8,  0x00#8,  0x00#8,  0x00#8,  0x00#8,  0x00#8,  0x00#8,  0x00#8,  0x00#8,  0x00#8,  0x00#8,  0x00#8,  0x00#8,  0x00#8,  0x00#8,  0x00#8,  0x00#8,  0x00#8,  0x00#8,  0x00#8,  0x00#8,  0x00#8,  0x00#8,  0x00#8,  0x00#8,  0x00#8,  0x00#8,  0x00#8,  0x00#8,  0x00#8,  0x00#8,  0x00#8,  0x00#8,  0x00#8,  0x00#8,  0x00#8,  0x00#8,  0x00#8,  0x00#8,  0x00#8,  0x00#8,  0x00#8,  0x00#8,  0x00#8,  0x00#8,  0x00#8,  0x00#8,  0x00#8,  0x00#8,  0x00#8,  0x00#8,  0x00#8,  0x00#8,  0x00#8,  0x00#8,  0x00#8,  0x00#8,  0x00#8,  0x00#8,  0x00#8,  0x00#8,  0x00#8,  0x00#8,  0x00#8,  0x00#8,  0x00#8,  0x00#8,  0x00#8,  0x00#8,  0x00#8,  0x00#8,  0x00#8,  0x00#8,  0x00#8,  0x00#8,  0x00#8,  0x00#8,  0x00#8,  0x00#8,  0x00#8,  0x00#8,  0x00#8,  0x00#8,  0x00#8,  0x00#8,  0x00#8,  0x00#8,  0x00#8,  0x00#8,  0x00#8,  0x00#8,  0x00#8,  0x00#8,  0x00#8,  0x00#8,  0x00#8,  0x00#8,  0x00#8,  0x00#8,  0x00#8,  0x00#8,  0x00#8,  0x00#8,  0x00#8,  0x00#8,  0x00#8,  0x00#8]), ?_, shown (states.getD 38 State.reset) ?_ ?_⟩,
    ⟨({ transform := 0,   e := 1,   r := 32,   c := 16,   idx := 0,   g := 0,   src := { rows := 32, cols := 16, br := 32, bc := 16, pr := 1, pc := 1, owners := [(2568459162517504, 16)] },   dst := { rows := 32,            cols := 16,            br := 16,            bc := 16,            pr := 2,            pc := 1,            owners := [(2586051349577728, 5510459818000), (2568459162521600, 5510443040800)] },   owners := [(1, { formed := 3, owed := 2, last := false, abandoned := false, finished := false })] }), (1), (1), ({ formed := 3, owed := 2, last := false, abandoned := false, finished := false }), shown (states.getD 42 State.reset) ?_ ?_⟩⟩
  all_goals repeat' first | decide +kernel | (with_reducible first | refine State.wordFits_of ?_ | refine sidecars_of ?_ | refine apart_of ?_ ?_ ?_ | refine notWaiting_of ?_ | refine reaches_of ?_ | refine plainWord_of ?_ | refine forall_covers ?_ | refine placed_bed ?_ | refine placed_sync ?_ | refine placed_tie ?_ | refine State.branchable_of ?_ | refine ok_of ?_ | refine Sparse.sorted_of_sortedB _ ?_ | exact List.mem_cons_self | unfold vectorOk | refine error_of ?_ | refine ⟨1, 3, by decide +kernel, ?_⟩) | (intro h; exact absurd h (by decide +kernel)) | (intro q h4 h8; revert h4; revert h8; revert q; decide +kernel) | (refine Or.inl (by decide +kernel)) | (refine Or.inr (by decide +kernel)) | apply And.intro | (refine Exists.intro _ ?_) | (with_reducible constructor) | rfl | intro _
theorem witness_3 :
  let op (s : State) (k : Nat) : Nat := s.opState k
  (∃ (x : Context), ∃ g, ∃ (k : CtxCore),
  let job (s : State) : Prop := s.clocksRun = true ∧ s.ops.context = some x ∧ x.job g = some k ∧ (op s 5 = 2 ∨ op s 5 = 3) ∧ k.waiting = false;
    Meets (.contextTransfer g) (fun s => job s ∧ x.save = false)) ∧
  (∃ (x : Context), ∃ g, ∃ (k : CtxCore),
  let job (s : State) : Prop := s.clocksRun = true ∧ s.ops.context = some x ∧ x.job g = some k ∧ (op s 5 = 2 ∨ op s 5 = 3) ∧ k.waiting = false;
    Meets (.contextTransfer g) (fun s => job s ∧ x.save = true ∧ k.begun = true)) ∧
  (∃ (x : Context), ∃ g, ∃ (k : CtxCore),
  let job (s : State) : Prop := s.clocksRun = true ∧ s.ops.context = some x ∧ x.job g = some k ∧ (op s 5 = 2 ∨ op s 5 = 3) ∧ k.waiting = false;
    Meets (.contextTransfer g) (fun s => job s ∧ x.save = true ∧ k.begun = false ∧ s.marks = [] ∧ (s.core k.core).accMarks = [])) ∧
  (∃ (x : Context), ∃ g, ∃ (k : CtxCore), Meets (.rebondTimeout g) (fun s => s.clocksRun = true ∧ s.ops.rebond = none ∧ s.ops.context = some x ∧ x.job g = some k ∧ k.waiting = true ∧ x.save = true)) := by
  refine ⟨⟨({ save := false,   acc := true,   bed := true,   off := false,   base := 2674012278755328,   stride := 2097152,   cores := [{ core := 0, image := [], next := 0, begun := false, waiting := false, done := true },             { core := 1, image := [], next := 0, begun := false, waiting := false, done := false },             { core := 2, image := [], next := 0, begun := false, waiting := false, done := false }] }), (0), ({ core := 1, image := [], next := 0, begun := false, waiting := false, done := false }), shown (states.getD 45 State.reset) ?_ ?_⟩,
    ⟨({ save := true,   acc := true,   bed := true,   off := false,   base := 2674012278755328,   stride := 2097152,   cores := [{ core := 0, image := [], next := 0, begun := false, waiting := false, done := true },             { core := 1,               image := [0x00#8,                         0x01#8,                         0x02#8,                         0x03#8,                         0x04#8,                         0x05#8,                         0x06#8,                         0x07#8,                         0x08#8,                         0x09#8,                         0x0a#8,                         0x0b#8,                         0x0c#8,                         0x0d#8,                         0x0e#8,                         0x0f#8,                         0x10#8,                         0x11#8,                         0x12#8,                         0x13#8,                         0x14#8,                         0x15#8,                         0x16#8,                         0x17#8,                         0x18#8,                         0x19#8,                         0x1a#8,                         0x1b#8,                         0x1c#8,                         0x1d#8,                         0x1e#8,                         0x1f#8,                         0x20#8,                         0x21#8,                         0x22#8,                         0x23#8,                         0x24#8,                         0x25#8,                         0x26#8,                         0x27#8,                         0x28#8,                         0x29#8,                         0x2a#8,                         0x2b#8,                         0x2c#8,                         0x2d#8,                         0x2e#8,                         0x2f#8,                         0x30#8,                         0x31#8,                         0x32#8,                         0x33#8,                         0x34#8,                         0x35#8,                         0x36#8,                         0x37#8,                         0x38#8,                         0x39#8,                         0x3a#8,                         0x3b#8,                         0x3c#8,                         0x3d#8,                         0x3e#8,                         0x3f#8,                         0x40#8,                         0x41#8,                         0x42#8,                         0x43#8,                         0x44#8,                         0x45#8,                         0x46#8,                         0x47#8,                         0x48#8,                         0x49#8,                         0x4a#8,                         0x4b#8,                         0x4c#8,                         0x4d#8,                         0x4e#8,                         0x4f#8,                         0x50#8,                         0x51#8,                         0x52#8,                         0x53#8,                         0x54#8,                         0x55#8,                         0x56#8,                         0x57#8,                         0x58#8,                         0x59#8,                         0x5a#8,                         0x5b#8,                         0x5c#8,                         0x5d#8,                         0x5e#8,                         0x5f#8,                         0x60#8,                         0x61#8,                         0x62#8,                         0x63#8,                         0x64#8,                         0x65#8,                         0x66#8,                         0x67#8,                         0x68#8,                         0x69#8,                         0x6a#8,                         0x6b#8,                         0x6c#8,                         0x6d#8,                         0x6e#8,                         0x6f#8,                         0x70#8,                         0x71#8,                         0x72#8,                         0x73#8,                         0x74#8,                         0x75#8,                         0x76#8,                         0x77#8,                         0x78#8,                         0x79#8,                         0x7a#8,                         0x7b#8,                         0x7c#8,                         0x7d#8,                         0x7e#8,                         0x7f#8,                         0x80#8,                         0x81#8,                         0x82#8,                         0x83#8,                         0x84#8,                         0x85#8,                         0x86#8,                         0x87#8,                         0x88#8,                         0x89#8,                         0x8a#8,                         0x8b#8,                         0x8c#8,                         0x8d#8,                         0x8e#8,                         0x8f#8,                         0x90#8,                         0x91#8,                         0x92#8,                         0x93#8,                         0x94#8,                         0x95#8,                         0x96#8,                         0x97#8,                         0x98#8,                         0x99#8,                         0x9a#8,                         0x9b#8,                         0x9c#8,                         0x9d#8,                         0x9e#8,                         0x9f#8,                         0xa0#8,                         0xa1#8,                         0xa2#8,                         0xa3#8,                         0xa4#8,                         0xa5#8,                         0xa6#8,                         0xa7#8,                         0xa8#8,                         0xa9#8,                         0xaa#8,                         0xab#8,                         0xac#8,                         0xad#8,                         0xae#8,                         0xaf#8,                         0xb0#8,                         0xb1#8,                         0xb2#8,                         0xb3#8,                         0xb4#8,                         0xb5#8,                         0xb6#8,                         0xb7#8,                         0xb8#8,                         0xb9#8,                         0xba#8,                         0xbb#8,                         0xbc#8,                         0xbd#8,                         0xbe#8,                         0xbf#8,                         0xc0#8,                         0xc1#8,                         0xc2#8,                         0xc3#8,                         0xc4#8,                         0xc5#8,                         0xc6#8,                         0xc7#8,                         0xc8#8,                         0xc9#8,                         0xca#8,                         0xcb#8,                         0xcc#8,                         0xcd#8,                         0xce#8,                         0xcf#8,                         0xd0#8,                         0xd1#8,                         0xd2#8,                         0xd3#8,                         0xd4#8,                         0xd5#8,                         0xd6#8,                         0xd7#8,                         0xd8#8,                         0xd9#8,                         0xda#8,                         0xdb#8,                         0xdc#8,                         0xdd#8,                         0xde#8,                         0xdf#8,                         0xe0#8,                         0xe1#8,                         0xe2#8,                         0xe3#8,                         0xe4#8,                         0xe5#8,                         0xe6#8,                         0xe7#8,                         0xe8#8,                         0xe9#8,                         0xea#8,                         0xeb#8,                         0xec#8,                         0xed#8,                         0xee#8,                         0xef#8,                         0xf0#8,                         0xf1#8,                         0xf2#8,                         0xf3#8,                         0xf4#8,                         0xf5#8,                         0xf6#8,                         0xf7#8,                         0xf8#8,                         0xf9#8,                         0xfa#8,                         0xfb#8,                         0xfc#8,                         0xfd#8,                         0xfe#8,                         0xff#8,                         0x00#8,                         0x01#8,                         0x02#8,                         0x03#8,                         0x04#8,                         0x05#8,                         0x06#8,                         0x07#8,                         0x08#8,                         0x09#8,                         0x0a#8,                         0x0b#8,                         0x0c#8,                         0x0d#8,                         0x0e#8,                         0x0f#8,                         0x10#8,                         0x11#8,                         0x12#8,                         0x13#8,                         0x14#8,                         0x15#8,                         0x16#8,                         0x17#8,                         0x18#8,                         0x19#8,                         0x1a#8,                         0x1b#8,                         0x1c#8,                         0x1d#8,                         0x1e#8,                         0x1f#8,                         0x20#8,                         0x21#8,                         0x22#8,                         0x23#8,                         0x24#8,                         0x25#8,                         0x26#8,                         0x27#8,                         0x28#8,                         0x29#8,                         0x2a#8,                         0x2b#8,                         0x2c#8,                         0x2d#8,                         0x2e#8,                         0x2f#8,                         0x30#8,                         0x31#8,                         0x32#8,                         0x33#8,                         0x34#8,                         0x35#8,                         0x36#8,                         0x37#8,                         0x38#8,                         0x39#8,                         0x3a#8,                         0x3b#8,                         0x3c#8,                         0x3d#8,                         0x3e#8,                         0x3f#8,                         0x40#8,                         0x41#8,                         0x42#8,                         0x43#8,                         0x44#8,                         0x45#8,                         0x46#8,                         0x47#8,                         0x48#8,                         0x49#8,                         0x4a#8,                         0x4b#8,                         0x4c#8,                         0x4d#8,                         0x4e#8,                         0x4f#8,                         0x50#8,                         0x51#8,                         0x52#8,                         0x53#8,                         0x54#8,                         0x55#8,                         0x56#8,                         0x57#8,                         0x58#8,                         0x59#8,                         0x5a#8,                         0x5b#8,                         0x5c#8,                         0x5d#8,                         0x5e#8,                         0x5f#8,                         0x60#8,                         0x61#8,                         0x62#8,                         0x63#8,                         0x64#8,                         0x65#8,                         0x66#8,                         0x67#8,                         0x68#8,                         0x69#8,                         0x6a#8,                         0x6b#8,                         0x6c#8,                         0x6d#8,                         0x6e#8,                         0x6f#8,                         0x70#8,                         0x71#8,                         0x72#8,                         0x73#8,                         0x74#8,                         0x75#8,                         0x76#8,                         0x77#8,                         0x78#8,                         0x79#8,                         0x7a#8,                         0x7b#8,                         0x7c#8,                         0x7d#8,                         0x7e#8,                         0x7f#8,                         0x80#8,                         0x81#8,                         0x82#8,                         0x83#8,                         0x84#8,                         0x85#8,                         0x86#8,                         0x87#8,                         0x88#8,                         0x89#8,                         0x8a#8,                         0x8b#8,                         0x8c#8,                         0x8d#8,                         0x8e#8,                         0x8f#8,                         0x90#8,                         0x91#8,                         0x92#8,                         0x93#8,                         0x94#8,                         0x95#8,                         0x96#8,                         0x97#8,                         0x98#8,                         0x99#8,                         0x9a#8,                         0x9b#8,                         0x9c#8,                         0x9d#8,                         0x9e#8,                         0x9f#8,                         0xa0#8,                         0xa1#8,                         0xa2#8,                         0xa3#8,                         0xa4#8,                         0xa5#8,                         0xa6#8,                         0xa7#8,                         0xa8#8,                         0xa9#8,                         0xaa#8,                         0xab#8,                         0xac#8,                         0xad#8,                         0xae#8,                         0xaf#8,                         0xb0#8,                         0xb1#8,                         0xb2#8,                         0xb3#8,                         0xb4#8,                         0xb5#8,                         0xb6#8,                         0xb7#8,                         0xb8#8,                         0xb9#8,                         0xba#8,                         0xbb#8,                         0xbc#8,                         0xbd#8,                         0xbe#8,                         0xbf#8,                         0xc0#8,                         0xc1#8,                         0xc2#8,                         0xc3#8,                         0xc4#8,                         0xc5#8,                         0xc6#8,                         0xc7#8,                         0xc8#8,                         0xc9#8,                         0xca#8,                         0xcb#8,                         0xcc#8,                         0xcd#8,                         0xce#8,                         0xcf#8,                         0xd0#8,                         0xd1#8,                         0xd2#8,                         0xd3#8,                         0xd4#8,                         0xd5#8,                         0xd6#8,                         0xd7#8,                         0xd8#8,                         0xd9#8,                         0xda#8,                         0xdb#8,                         0xdc#8,                         0xdd#8,                         0xde#8,                         0xdf#8,                         0xe0#8,                         0xe1#8,                         0xe2#8,                         0xe3#8,                         0xe4#8,                         0xe5#8,                         0xe6#8,                         0xe7#8,                         0xe8#8,                         0xe9#8,                         0xea#8,                         0xeb#8,                         0xec#8,                         0xed#8,                         0xee#8,                         0xef#8,                         0xf0#8,                         0xf1#8,                         0xf2#8,                         0xf3#8,                         0xf4#8,                         0xf5#8,                         0xf6#8,                         0xf7#8,                         0xf8#8,                         0xf9#8,                         0xfa#8,                         0xfb#8,                         0xfc#8,                         0xfd#8,                         0xfe#8,                         0xff#8,                         0x00#8,                         0x01#8,                         0x02#8,                         0x03#8,                         0x04#8,                         0x05#8,                         0x06#8,                         0x07#8,                         0x08#8,                         0x09#8,                         0x0a#8,                         0x0b#8,                         0x0c#8,                         0x0d#8,                         0x0e#8,                         0x0f#8,                         0x10#8,                         0x11#8,                         0x12#8,                         0x13#8,                         0x14#8,                         0x15#8,                         0x16#8,                         0x17#8,                         0x18#8,                         0x19#8,                         0x1a#8,                         0x1b#8,                         0x1c#8,                         0x1d#8,                         0x1e#8,                         0x1f#8,                         0x20#8,                         0x21#8,                         0x22#8,                         0x23#8,                         0x24#8,                         0x25#8,                         0x26#8,                         0x27#8,                         0x28#8,                         0x29#8,                         0x2a#8,                         0x2b#8,                         0x2c#8,                         0x2d#8,                         0x2e#8,                         0x2f#8,                         0x30#8,                         0x31#8,                         0x32#8,                         0x33#8,                         0x34#8,                         0x35#8,                         0x36#8,                         0x37#8,                         0x38#8,                         0x39#8,                         0x3a#8,                         0x3b#8,                         0x3c#8,                         0x3d#8,                         0x3e#8,                         0x3f#8,                         0x40#8,                         0x41#8,                         0x42#8,                         0x43#8,                         0x44#8,                         0x45#8,                         0x46#8,                         0x47#8,                         0x48#8,                         0x49#8,                         0x4a#8,                         0x4b#8,                         0x4c#8,                         0x4d#8,                         0x4e#8,                         0x4f#8,                         0x50#8,                         0x51#8,                         0x52#8,                         0x53#8,                         0x54#8,                         0x55#8,                         0x56#8,                         0x57#8,                         0x58#8,                         0x59#8,                         0x5a#8,                         0x5b#8,                         0x5c#8,                         0x5d#8,                         0x5e#8,                         0x5f#8,                         0x60#8,                         0x61#8,                         0x62#8,                         0x63#8,                         0x64#8,                         0x65#8,                         0x66#8,                         0x67#8,                         0x68#8,                         0x69#8,                         0x6a#8,                         0x6b#8,                         0x6c#8,                         0x6d#8,                         0x6e#8,                         0x6f#8,                         0x70#8,                         0x71#8,                         0x72#8,                         0x73#8,                         0x74#8,                         0x75#8,                         0x76#8,                         0x77#8,                         0x78#8,                         0x79#8,                         0x7a#8,                         0x7b#8,                         0x7c#8,                         0x7d#8,                         0x7e#8,                         0x7f#8,                         0x80#8,                         0x81#8,                         0x82#8,                         0x83#8,                         0x84#8,                         0x85#8,                         0x86#8,                         0x87#8,                         0x88#8,                         0x89#8,                         0x8a#8,                         0x8b#8,                         0x8c#8,                         0x8d#8,                         0x8e#8,                         0x8f#8,                         0x90#8,                         0x91#8,                         0x92#8,                         0x93#8,                         0x94#8,                         0x95#8,                         0x96#8,                         0x97#8,                         0x98#8,                         0x99#8,                         0x9a#8,                         0x9b#8,                         0x9c#8,                         0x9d#8,                         0x9e#8,                         0x9f#8,                         0xa0#8,                         0xa1#8,                         0xa2#8,                         0xa3#8,                         0xa4#8,                         0xa5#8,                         0xa6#8,                         0xa7#8,                         0xa8#8,                         0xa9#8,                         0xaa#8,                         0xab#8,                         0xac#8,                         0xad#8,                         0xae#8,                         0xaf#8,                         0xb0#8,                         0xb1#8,                         0xb2#8,                         0xb3#8,                         0xb4#8,                         0xb5#8,                         0xb6#8,                         0xb7#8,                         0xb8#8,                         0xb9#8,                         0xba#8,                         0xbb#8,                         0xbc#8,                         0xbd#8,                         0xbe#8,                         0xbf#8,                         0xc0#8,                         0xc1#8,                         0xc2#8,                         0xc3#8,                         0xc4#8,                         0xc5#8,                         0xc6#8,                         0xc7#8,                         0xc8#8,                         0xc9#8,                         0xca#8,                         0xcb#8,                         0xcc#8,                         0xcd#8,                         0xce#8,                         0xcf#8,                         0xd0#8,                         0xd1#8,                         0xd2#8,                         0xd3#8,                         0xd4#8,                         0xd5#8,                         0xd6#8,                         0xd7#8,                         0xd8#8,                         0xd9#8,                         0xda#8,                         0xdb#8,                         0xdc#8,                         0xdd#8,                         0xde#8,                         0xdf#8,                         0xe0#8,                         0xe1#8,                         0xe2#8,                         0xe3#8,                         0xe4#8,                         0xe5#8,                         0xe6#8,                         0xe7#8,                         0xe8#8,                         0xe9#8,                         0xea#8,                         0xeb#8,                         0xec#8,                         0xed#8,                         0xee#8,                         0xef#8,                         0xf0#8,                         0xf1#8,                         0xf2#8,                         0xf3#8,                         0xf4#8,                         0xf5#8,                         0xf6#8,                         0xf7#8,                         0xf8#8,                         0xf9#8,                         0xfa#8,                         0xfb#8,                         0xfc#8,                         0xfd#8,                         0xfe#8,                         0xff#8,                         0x00#8,                         0x01#8,                         0x02#8,                         0x03#8,                         0x04#8,                         0x05#8,                         0x06#8,                         0x07#8,                         0x08#8,                         0x09#8,                         0x0a#8,                         0x0b#8,                         0x0c#8,                         0x0d#8,                         0x0e#8,                         0x0f#8,                         0x10#8,                         0x11#8,                         0x12#8,                         0x13#8,                         0x14#8,                         0x15#8,                         0x16#8,                         0x17#8,                         0x18#8,                         0x19#8,                         0x1a#8,                         0x1b#8,                         0x1c#8,                         0x1d#8,                         0x1e#8,                         0x1f#8,                         0x20#8,                         0x21#8,                         0x22#8,                         0x23#8,                         0x24#8,                         0x25#8,                         0x26#8,                         0x27#8,                         0x28#8,                         0x29#8,                         0x2a#8,                         0x2b#8,                         0x2c#8,                         0x2d#8,                         0x2e#8,                         0x2f#8,                         0x30#8,                         0x31#8,                         0x32#8,                         0x33#8,                         0x34#8,                         0x35#8,                         0x36#8,                         0x37#8,                         0x38#8,                         0x39#8,                         0x3a#8,                         0x3b#8,                         0x3c#8,                         0x3d#8,                         0x3e#8,                         0x3f#8,                         0x40#8,                         0x41#8,                         0x42#8,                         0x43#8,                         0x44#8,                         0x45#8,                         0x46#8,                         0x47#8,                         0x48#8,                         0x49#8,                         0x4a#8,                         0x4b#8,                         0x4c#8,                         0x4d#8,                         0x4e#8,                         0x4f#8,                         0x50#8,                         0x51#8,                         0x52#8,                         0x53#8,                         0x54#8,                         0x55#8,                         0x56#8,                         0x57#8,                         0x58#8,                         0x59#8,                         0x5a#8,                         0x5b#8,                         0x5c#8,                         0x5d#8,                         0x5e#8,                         0x5f#8,                         0x60#8,                         0x61#8,                         0x62#8,                         0x63#8,                         0x64#8,                         0x65#8,                         0x66#8,                         0x67#8,                         0x68#8,                         0x69#8,                         0x6a#8,                         0x6b#8,                         0x6c#8,                         0x6d#8,                         0x6e#8,                         0x6f#8,                         0x70#8,                         0x71#8,                         0x72#8,                         0x73#8,                         0x74#8,                         0x75#8,                         0x76#8,                         0x77#8,                         0x78#8,                         0x79#8,                         0x7a#8,                         0x7b#8,                         0x7c#8,                         0x7d#8,                         0x7e#8,                         0x7f#8,                         0x80#8,                         0x81#8,                         0x82#8,                         0x83#8,                         0x84#8,                         0x85#8,                         0x86#8,                         0x87#8,                         0x88#8,                         0x89#8,                         0x8a#8,                         0x8b#8,                         0x8c#8,                         0x8d#8,                         0x8e#8,                         0x8f#8,                         0x90#8,                         0x91#8,                         0x92#8,                         0x93#8,                         0x94#8,                         0x95#8,                         0x96#8,                         0x97#8,                         0x98#8,                         0x99#8,                         0x9a#8,                         0x9b#8,                         0x9c#8,                         0x9d#8,                         0x9e#8,                         0x9f#8,                         0xa0#8,                         0xa1#8,                         0xa2#8,                         0xa3#8,                         0xa4#8,                         0xa5#8,                         0xa6#8,                         0xa7#8,                         0xa8#8,                         0xa9#8,                         0xaa#8,                         0xab#8,                         0xac#8,                         0xad#8,                         0xae#8,                         0xaf#8,                         0xb0#8,                         0xb1#8,                         0xb2#8,                         0xb3#8,                         0xb4#8,                         0xb5#8,                         0xb6#8,                         0xb7#8,                         0xb8#8,                         0xb9#8,                         0xba#8,                         0xbb#8,                         0xbc#8,                         0xbd#8,                         0xbe#8,                         0xbf#8,                         0xc0#8,                         0xc1#8,                         0xc2#8,                         0xc3#8,                         0xc4#8,                         0xc5#8,                         0xc6#8,                         0xc7#8,                         0xc8#8,                         0xc9#8,                         0xca#8,                         0xcb#8,                         0xcc#8,                         0xcd#8,                         0xce#8,                         0xcf#8,                         0xd0#8,                         0xd1#8,                         0xd2#8,                         0xd3#8,                         0xd4#8,                         0xd5#8,                         0xd6#8,                         0xd7#8,                         0xd8#8,                         0xd9#8,                         0xda#8,                         0xdb#8,                         0xdc#8,                         0xdd#8,                         0xde#8,                         0xdf#8,                         0xe0#8,                         0xe1#8,                         0xe2#8,                         0xe3#8,                         0xe4#8,                         0xe5#8,                         0xe6#8,                         0xe7#8,                         0xe8#8,                         0xe9#8,                         0xea#8,                         0xeb#8,                         0xec#8,                         0xed#8,                         0xee#8,                         0xef#8,                         0xf0#8,                         0xf1#8,                         0xf2#8,                         0xf3#8,                         0xf4#8,                         0xf5#8,                         0xf6#8,                         0xf7#8,                         0xf8#8,                         0xf9#8,                         0xfa#8,                         0xfb#8,                         0xfc#8,                         0xfd#8,                         0xfe#8,                         0xff#8,                         0x00#8,                         0x01#8,                         0x02#8,                         0x03#8,                         0x04#8,                         0x05#8,                         0x06#8,                         0x07#8,                         0x08#8,                         0x09#8,                         0x0a#8,                         0x0b#8,                         0x0c#8,                         0x0d#8,                         0x0e#8,                         0x0f#8,                         0x10#8,                         0x11#8,                         0x12#8,                         0x13#8,                         0x14#8,                         0x15#8,                         0x16#8,                         0x17#8,                         0x18#8,                         0x19#8,                         0x1a#8,                         0x1b#8,                         0x1c#8,                         0x1d#8,                         0x1e#8,                         0x1f#8,                         0x20#8,                         0x21#8,                         0x22#8,                         0x23#8,                         0x24#8,                         0x25#8,                         0x26#8,                         0x27#8,                         0x28#8,                         0x29#8,                         0x2a#8,                         0x2b#8,                         0x2c#8,                         0x2d#8,                         0x2e#8,                         0x2f#8,                         0x30#8,                         0x31#8,                         0x32#8,                         0x33#8,                         0x34#8,                         0x35#8,                         0x36#8,                         0x37#8,                         0x38#8,                         0x39#8,                         0x3a#8,                         0x3b#8,                         0x3c#8,                         0x3d#8,                         0x3e#8,                         0x3f#8,                         0x40#8,                         0x41#8,                         0x42#8,                         0x43#8,                         0x44#8,                         0x45#8,                         0x46#8,                         0x47#8,                         0x48#8,                         0x49#8,                         0x4a#8,                         0x4b#8],               next := 512,               begun := true,               waiting := false,               done := false },             { core := 2, image := [], next := 0, begun := false, waiting := false, done := false }] }), (0), ({ core := 1,   image := [0x00#8,             0x01#8,             0x02#8,             0x03#8,             0x04#8,             0x05#8,             0x06#8,             0x07#8,             0x08#8,             0x09#8,             0x0a#8,             0x0b#8,             0x0c#8,             0x0d#8,             0x0e#8,             0x0f#8,             0x10#8,             0x11#8,             0x12#8,             0x13#8,             0x14#8,             0x15#8,             0x16#8,             0x17#8,             0x18#8,             0x19#8,             0x1a#8,             0x1b#8,             0x1c#8,             0x1d#8,             0x1e#8,             0x1f#8,             0x20#8,             0x21#8,             0x22#8,             0x23#8,             0x24#8,             0x25#8,             0x26#8,             0x27#8,             0x28#8,             0x29#8,             0x2a#8,             0x2b#8,             0x2c#8,             0x2d#8,             0x2e#8,             0x2f#8,             0x30#8,             0x31#8,             0x32#8,             0x33#8,             0x34#8,             0x35#8,             0x36#8,             0x37#8,             0x38#8,             0x39#8,             0x3a#8,             0x3b#8,             0x3c#8,             0x3d#8,             0x3e#8,             0x3f#8,             0x40#8,             0x41#8,             0x42#8,             0x43#8,             0x44#8,             0x45#8,             0x46#8,             0x47#8,             0x48#8,             0x49#8,             0x4a#8,             0x4b#8,             0x4c#8,             0x4d#8,             0x4e#8,             0x4f#8,             0x50#8,             0x51#8,             0x52#8,             0x53#8,             0x54#8,             0x55#8,             0x56#8,             0x57#8,             0x58#8,             0x59#8,             0x5a#8,             0x5b#8,             0x5c#8,             0x5d#8,             0x5e#8,             0x5f#8,             0x60#8,             0x61#8,             0x62#8,             0x63#8,             0x64#8,             0x65#8,             0x66#8,             0x67#8,             0x68#8,             0x69#8,             0x6a#8,             0x6b#8,             0x6c#8,             0x6d#8,             0x6e#8,             0x6f#8,             0x70#8,             0x71#8,             0x72#8,             0x73#8,             0x74#8,             0x75#8,             0x76#8,             0x77#8,             0x78#8,             0x79#8,             0x7a#8,             0x7b#8,             0x7c#8,             0x7d#8,             0x7e#8,             0x7f#8,             0x80#8,             0x81#8,             0x82#8,             0x83#8,             0x84#8,             0x85#8,             0x86#8,             0x87#8,             0x88#8,             0x89#8,             0x8a#8,             0x8b#8,             0x8c#8,             0x8d#8,             0x8e#8,             0x8f#8,             0x90#8,             0x91#8,             0x92#8,             0x93#8,             0x94#8,             0x95#8,             0x96#8,             0x97#8,             0x98#8,             0x99#8,             0x9a#8,             0x9b#8,             0x9c#8,             0x9d#8,             0x9e#8,             0x9f#8,             0xa0#8,             0xa1#8,             0xa2#8,             0xa3#8,             0xa4#8,             0xa5#8,             0xa6#8,             0xa7#8,             0xa8#8,             0xa9#8,             0xaa#8,             0xab#8,             0xac#8,             0xad#8,             0xae#8,             0xaf#8,             0xb0#8,             0xb1#8,             0xb2#8,             0xb3#8,             0xb4#8,             0xb5#8,             0xb6#8,             0xb7#8,             0xb8#8,             0xb9#8,             0xba#8,             0xbb#8,             0xbc#8,             0xbd#8,             0xbe#8,             0xbf#8,             0xc0#8,             0xc1#8,             0xc2#8,             0xc3#8,             0xc4#8,             0xc5#8,             0xc6#8,             0xc7#8,             0xc8#8,             0xc9#8,             0xca#8,             0xcb#8,             0xcc#8,             0xcd#8,             0xce#8,             0xcf#8,             0xd0#8,             0xd1#8,             0xd2#8,             0xd3#8,             0xd4#8,             0xd5#8,             0xd6#8,             0xd7#8,             0xd8#8,             0xd9#8,             0xda#8,             0xdb#8,             0xdc#8,             0xdd#8,             0xde#8,             0xdf#8,             0xe0#8,             0xe1#8,             0xe2#8,             0xe3#8,             0xe4#8,             0xe5#8,             0xe6#8,             0xe7#8,             0xe8#8,             0xe9#8,             0xea#8,             0xeb#8,             0xec#8,             0xed#8,             0xee#8,             0xef#8,             0xf0#8,             0xf1#8,             0xf2#8,             0xf3#8,             0xf4#8,             0xf5#8,             0xf6#8,             0xf7#8,             0xf8#8,             0xf9#8,             0xfa#8,             0xfb#8,             0xfc#8,             0xfd#8,             0xfe#8,             0xff#8,             0x00#8,             0x01#8,             0x02#8,             0x03#8,             0x04#8,             0x05#8,             0x06#8,             0x07#8,             0x08#8,             0x09#8,             0x0a#8,             0x0b#8,             0x0c#8,             0x0d#8,             0x0e#8,             0x0f#8,             0x10#8,             0x11#8,             0x12#8,             0x13#8,             0x14#8,             0x15#8,             0x16#8,             0x17#8,             0x18#8,             0x19#8,             0x1a#8,             0x1b#8,             0x1c#8,             0x1d#8,             0x1e#8,             0x1f#8,             0x20#8,             0x21#8,             0x22#8,             0x23#8,             0x24#8,             0x25#8,             0x26#8,             0x27#8,             0x28#8,             0x29#8,             0x2a#8,             0x2b#8,             0x2c#8,             0x2d#8,             0x2e#8,             0x2f#8,             0x30#8,             0x31#8,             0x32#8,             0x33#8,             0x34#8,             0x35#8,             0x36#8,             0x37#8,             0x38#8,             0x39#8,             0x3a#8,             0x3b#8,             0x3c#8,             0x3d#8,             0x3e#8,             0x3f#8,             0x40#8,             0x41#8,             0x42#8,             0x43#8,             0x44#8,             0x45#8,             0x46#8,             0x47#8,             0x48#8,             0x49#8,             0x4a#8,             0x4b#8,             0x4c#8,             0x4d#8,             0x4e#8,             0x4f#8,             0x50#8,             0x51#8,             0x52#8,             0x53#8,             0x54#8,             0x55#8,             0x56#8,             0x57#8,             0x58#8,             0x59#8,             0x5a#8,             0x5b#8,             0x5c#8,             0x5d#8,             0x5e#8,             0x5f#8,             0x60#8,             0x61#8,             0x62#8,             0x63#8,             0x64#8,             0x65#8,             0x66#8,             0x67#8,             0x68#8,             0x69#8,             0x6a#8,             0x6b#8,             0x6c#8,             0x6d#8,             0x6e#8,             0x6f#8,             0x70#8,             0x71#8,             0x72#8,             0x73#8,             0x74#8,             0x75#8,             0x76#8,             0x77#8,             0x78#8,             0x79#8,             0x7a#8,             0x7b#8,             0x7c#8,             0x7d#8,             0x7e#8,             0x7f#8,             0x80#8,             0x81#8,             0x82#8,             0x83#8,             0x84#8,             0x85#8,             0x86#8,             0x87#8,             0x88#8,             0x89#8,             0x8a#8,             0x8b#8,             0x8c#8,             0x8d#8,             0x8e#8,             0x8f#8,             0x90#8,             0x91#8,             0x92#8,             0x93#8,             0x94#8,             0x95#8,             0x96#8,             0x97#8,             0x98#8,             0x99#8,             0x9a#8,             0x9b#8,             0x9c#8,             0x9d#8,             0x9e#8,             0x9f#8,             0xa0#8,             0xa1#8,             0xa2#8,             0xa3#8,             0xa4#8,             0xa5#8,             0xa6#8,             0xa7#8,             0xa8#8,             0xa9#8,             0xaa#8,             0xab#8,             0xac#8,             0xad#8,             0xae#8,             0xaf#8,             0xb0#8,             0xb1#8,             0xb2#8,             0xb3#8,             0xb4#8,             0xb5#8,             0xb6#8,             0xb7#8,             0xb8#8,             0xb9#8,             0xba#8,             0xbb#8,             0xbc#8,             0xbd#8,             0xbe#8,             0xbf#8,             0xc0#8,             0xc1#8,             0xc2#8,             0xc3#8,             0xc4#8,             0xc5#8,             0xc6#8,             0xc7#8,             0xc8#8,             0xc9#8,             0xca#8,             0xcb#8,             0xcc#8,             0xcd#8,             0xce#8,             0xcf#8,             0xd0#8,             0xd1#8,             0xd2#8,             0xd3#8,             0xd4#8,             0xd5#8,             0xd6#8,             0xd7#8,             0xd8#8,             0xd9#8,             0xda#8,             0xdb#8,             0xdc#8,             0xdd#8,             0xde#8,             0xdf#8,             0xe0#8,             0xe1#8,             0xe2#8,             0xe3#8,             0xe4#8,             0xe5#8,             0xe6#8,             0xe7#8,             0xe8#8,             0xe9#8,             0xea#8,             0xeb#8,             0xec#8,             0xed#8,             0xee#8,             0xef#8,             0xf0#8,             0xf1#8,             0xf2#8,             0xf3#8,             0xf4#8,             0xf5#8,             0xf6#8,             0xf7#8,             0xf8#8,             0xf9#8,             0xfa#8,             0xfb#8,             0xfc#8,             0xfd#8,             0xfe#8,             0xff#8,             0x00#8,             0x01#8,             0x02#8,             0x03#8,             0x04#8,             0x05#8,             0x06#8,             0x07#8,             0x08#8,             0x09#8,             0x0a#8,             0x0b#8,             0x0c#8,             0x0d#8,             0x0e#8,             0x0f#8,             0x10#8,             0x11#8,             0x12#8,             0x13#8,             0x14#8,             0x15#8,             0x16#8,             0x17#8,             0x18#8,             0x19#8,             0x1a#8,             0x1b#8,             0x1c#8,             0x1d#8,             0x1e#8,             0x1f#8,             0x20#8,             0x21#8,             0x22#8,             0x23#8,             0x24#8,             0x25#8,             0x26#8,             0x27#8,             0x28#8,             0x29#8,             0x2a#8,             0x2b#8,             0x2c#8,             0x2d#8,             0x2e#8,             0x2f#8,             0x30#8,             0x31#8,             0x32#8,             0x33#8,             0x34#8,             0x35#8,             0x36#8,             0x37#8,             0x38#8,             0x39#8,             0x3a#8,             0x3b#8,             0x3c#8,             0x3d#8,             0x3e#8,             0x3f#8,             0x40#8,             0x41#8,             0x42#8,             0x43#8,             0x44#8,             0x45#8,             0x46#8,             0x47#8,             0x48#8,             0x49#8,             0x4a#8,             0x4b#8,             0x4c#8,             0x4d#8,             0x4e#8,             0x4f#8,             0x50#8,             0x51#8,             0x52#8,             0x53#8,             0x54#8,             0x55#8,             0x56#8,             0x57#8,             0x58#8,             0x59#8,             0x5a#8,             0x5b#8,             0x5c#8,             0x5d#8,             0x5e#8,             0x5f#8,             0x60#8,             0x61#8,             0x62#8,             0x63#8,             0x64#8,             0x65#8,             0x66#8,             0x67#8,             0x68#8,             0x69#8,             0x6a#8,             0x6b#8,             0x6c#8,             0x6d#8,             0x6e#8,             0x6f#8,             0x70#8,             0x71#8,             0x72#8,             0x73#8,             0x74#8,             0x75#8,             0x76#8,             0x77#8,             0x78#8,             0x79#8,             0x7a#8,             0x7b#8,             0x7c#8,             0x7d#8,             0x7e#8,             0x7f#8,             0x80#8,             0x81#8,             0x82#8,             0x83#8,             0x84#8,             0x85#8,             0x86#8,             0x87#8,             0x88#8,             0x89#8,             0x8a#8,             0x8b#8,             0x8c#8,             0x8d#8,             0x8e#8,             0x8f#8,             0x90#8,             0x91#8,             0x92#8,             0x93#8,             0x94#8,             0x95#8,             0x96#8,             0x97#8,             0x98#8,             0x99#8,             0x9a#8,             0x9b#8,             0x9c#8,             0x9d#8,             0x9e#8,             0x9f#8,             0xa0#8,             0xa1#8,             0xa2#8,             0xa3#8,             0xa4#8,             0xa5#8,             0xa6#8,             0xa7#8,             0xa8#8,             0xa9#8,             0xaa#8,             0xab#8,             0xac#8,             0xad#8,             0xae#8,             0xaf#8,             0xb0#8,             0xb1#8,             0xb2#8,             0xb3#8,             0xb4#8,             0xb5#8,             0xb6#8,             0xb7#8,             0xb8#8,             0xb9#8,             0xba#8,             0xbb#8,             0xbc#8,             0xbd#8,             0xbe#8,             0xbf#8,             0xc0#8,             0xc1#8,             0xc2#8,             0xc3#8,             0xc4#8,             0xc5#8,             0xc6#8,             0xc7#8,             0xc8#8,             0xc9#8,             0xca#8,             0xcb#8,             0xcc#8,             0xcd#8,             0xce#8,             0xcf#8,             0xd0#8,             0xd1#8,             0xd2#8,             0xd3#8,             0xd4#8,             0xd5#8,             0xd6#8,             0xd7#8,             0xd8#8,             0xd9#8,             0xda#8,             0xdb#8,             0xdc#8,             0xdd#8,             0xde#8,             0xdf#8,             0xe0#8,             0xe1#8,             0xe2#8,             0xe3#8,             0xe4#8,             0xe5#8,             0xe6#8,             0xe7#8,             0xe8#8,             0xe9#8,             0xea#8,             0xeb#8,             0xec#8,             0xed#8,             0xee#8,             0xef#8,             0xf0#8,             0xf1#8,             0xf2#8,             0xf3#8,             0xf4#8,             0xf5#8,             0xf6#8,             0xf7#8,             0xf8#8,             0xf9#8,             0xfa#8,             0xfb#8,             0xfc#8,             0xfd#8,             0xfe#8,             0xff#8,             0x00#8,             0x01#8,             0x02#8,             0x03#8,             0x04#8,             0x05#8,             0x06#8,             0x07#8,             0x08#8,             0x09#8,             0x0a#8,             0x0b#8,             0x0c#8,             0x0d#8,             0x0e#8,             0x0f#8,             0x10#8,             0x11#8,             0x12#8,             0x13#8,             0x14#8,             0x15#8,             0x16#8,             0x17#8,             0x18#8,             0x19#8,             0x1a#8,             0x1b#8,             0x1c#8,             0x1d#8,             0x1e#8,             0x1f#8,             0x20#8,             0x21#8,             0x22#8,             0x23#8,             0x24#8,             0x25#8,             0x26#8,             0x27#8,             0x28#8,             0x29#8,             0x2a#8,             0x2b#8,             0x2c#8,             0x2d#8,             0x2e#8,             0x2f#8,             0x30#8,             0x31#8,             0x32#8,             0x33#8,             0x34#8,             0x35#8,             0x36#8,             0x37#8,             0x38#8,             0x39#8,             0x3a#8,             0x3b#8,             0x3c#8,             0x3d#8,             0x3e#8,             0x3f#8,             0x40#8,             0x41#8,             0x42#8,             0x43#8,             0x44#8,             0x45#8,             0x46#8,             0x47#8,             0x48#8,             0x49#8,             0x4a#8,             0x4b#8,             0x4c#8,             0x4d#8,             0x4e#8,             0x4f#8,             0x50#8,             0x51#8,             0x52#8,             0x53#8,             0x54#8,             0x55#8,             0x56#8,             0x57#8,             0x58#8,             0x59#8,             0x5a#8,             0x5b#8,             0x5c#8,             0x5d#8,             0x5e#8,             0x5f#8,             0x60#8,             0x61#8,             0x62#8,             0x63#8,             0x64#8,             0x65#8,             0x66#8,             0x67#8,             0x68#8,             0x69#8,             0x6a#8,             0x6b#8,             0x6c#8,             0x6d#8,             0x6e#8,             0x6f#8,             0x70#8,             0x71#8,             0x72#8,             0x73#8,             0x74#8,             0x75#8,             0x76#8,             0x77#8,             0x78#8,             0x79#8,             0x7a#8,             0x7b#8,             0x7c#8,             0x7d#8,             0x7e#8,             0x7f#8,             0x80#8,             0x81#8,             0x82#8,             0x83#8,             0x84#8,             0x85#8,             0x86#8,             0x87#8,             0x88#8,             0x89#8,             0x8a#8,             0x8b#8,             0x8c#8,             0x8d#8,             0x8e#8,             0x8f#8,             0x90#8,             0x91#8,             0x92#8,             0x93#8,             0x94#8,             0x95#8,             0x96#8,             0x97#8,             0x98#8,             0x99#8,             0x9a#8,             0x9b#8,             0x9c#8,             0x9d#8,             0x9e#8,             0x9f#8,             0xa0#8,             0xa1#8,             0xa2#8,             0xa3#8,             0xa4#8,             0xa5#8,             0xa6#8,             0xa7#8,             0xa8#8,             0xa9#8,             0xaa#8,             0xab#8,             0xac#8,             0xad#8,             0xae#8,             0xaf#8,             0xb0#8,             0xb1#8,             0xb2#8,             0xb3#8,             0xb4#8,             0xb5#8,             0xb6#8,             0xb7#8,             0xb8#8,             0xb9#8,             0xba#8,             0xbb#8,             0xbc#8,             0xbd#8,             0xbe#8,             0xbf#8,             0xc0#8,             0xc1#8,             0xc2#8,             0xc3#8,             0xc4#8,             0xc5#8,             0xc6#8,             0xc7#8,             0xc8#8,             0xc9#8,             0xca#8,             0xcb#8,             0xcc#8,             0xcd#8,             0xce#8,             0xcf#8,             0xd0#8,             0xd1#8,             0xd2#8,             0xd3#8,             0xd4#8,             0xd5#8,             0xd6#8,             0xd7#8,             0xd8#8,             0xd9#8,             0xda#8,             0xdb#8,             0xdc#8,             0xdd#8,             0xde#8,             0xdf#8,             0xe0#8,             0xe1#8,             0xe2#8,             0xe3#8,             0xe4#8,             0xe5#8,             0xe6#8,             0xe7#8,             0xe8#8,             0xe9#8,             0xea#8,             0xeb#8,             0xec#8,             0xed#8,             0xee#8,             0xef#8,             0xf0#8,             0xf1#8,             0xf2#8,             0xf3#8,             0xf4#8,             0xf5#8,             0xf6#8,             0xf7#8,             0xf8#8,             0xf9#8,             0xfa#8,             0xfb#8,             0xfc#8,             0xfd#8,             0xfe#8,             0xff#8,             0x00#8,             0x01#8,             0x02#8,             0x03#8,             0x04#8,             0x05#8,             0x06#8,             0x07#8,             0x08#8,             0x09#8,             0x0a#8,             0x0b#8,             0x0c#8,             0x0d#8,             0x0e#8,             0x0f#8,             0x10#8,             0x11#8,             0x12#8,             0x13#8,             0x14#8,             0x15#8,             0x16#8,             0x17#8,             0x18#8,             0x19#8,             0x1a#8,             0x1b#8,             0x1c#8,             0x1d#8,             0x1e#8,             0x1f#8,             0x20#8,             0x21#8,             0x22#8,             0x23#8,             0x24#8,             0x25#8,             0x26#8,             0x27#8,             0x28#8,             0x29#8,             0x2a#8,             0x2b#8,             0x2c#8,             0x2d#8,             0x2e#8,             0x2f#8,             0x30#8,             0x31#8,             0x32#8,             0x33#8,             0x34#8,             0x35#8,             0x36#8,             0x37#8,             0x38#8,             0x39#8,             0x3a#8,             0x3b#8,             0x3c#8,             0x3d#8,             0x3e#8,             0x3f#8,             0x40#8,             0x41#8,             0x42#8,             0x43#8,             0x44#8,             0x45#8,             0x46#8,             0x47#8,             0x48#8,             0x49#8,             0x4a#8,             0x4b#8],   next := 512,   begun := true,   waiting := false,   done := false }), shown (states.getD 46 State.reset) ?_ ?_⟩,
    ⟨({ save := true,   acc := true,   bed := true,   off := false,   base := 2674012278755328,   stride := 2097152,   cores := [{ core := 0, image := [], next := 0, begun := false, waiting := false, done := true },             { core := 1, image := [], next := 0, begun := false, waiting := false, done := false },             { core := 2, image := [], next := 0, begun := false, waiting := false, done := false }] }), (0), ({ core := 1, image := [], next := 0, begun := false, waiting := false, done := false }), shown (states.getD 44 State.reset) ?_ ?_⟩,
    ⟨({ save := true,   acc := true,   bed := true,   off := false,   base := 2674012278755328,   stride := 2097152,   cores := [{ core := 0, image := [], next := 0, begun := false, waiting := false, done := true },             { core := 1,               image := [0x00#8,                         0x01#8,                         0x02#8,                         0x03#8,                         0x04#8,                         0x05#8,                         0x06#8,                         0x07#8,                         0x08#8,                         0x09#8,                         0x0a#8,                         0x0b#8,                         0x0c#8,                         0x0d#8,                         0x0e#8,                         0x0f#8,                         0x10#8,                         0x11#8,                         0x12#8,                         0x13#8,                         0x14#8,                         0x15#8,                         0x16#8,                         0x17#8,                         0x18#8,                         0x19#8,                         0x1a#8,                         0x1b#8,                         0x1c#8,                         0x1d#8,                         0x1e#8,                         0x1f#8,                         0x20#8,                         0x21#8,                         0x22#8,                         0x23#8,                         0x24#8,                         0x25#8,                         0x26#8,                         0x27#8,                         0x28#8,                         0x29#8,                         0x2a#8,                         0x2b#8,                         0x2c#8,                         0x2d#8,                         0x2e#8,                         0x2f#8,                         0x30#8,                         0x31#8,                         0x32#8,                         0x33#8,                         0x34#8,                         0x35#8,                         0x36#8,                         0x37#8,                         0x38#8,                         0x39#8,                         0x3a#8,                         0x3b#8,                         0x3c#8,                         0x3d#8,                         0x3e#8,                         0x3f#8,                         0x40#8,                         0x41#8,                         0x42#8,                         0x43#8,                         0x44#8,                         0x45#8,                         0x46#8,                         0x47#8,                         0x48#8,                         0x49#8,                         0x4a#8,                         0x4b#8,                         0x4c#8,                         0x4d#8,                         0x4e#8,                         0x4f#8,                         0x50#8,                         0x51#8,                         0x52#8,                         0x53#8,                         0x54#8,                         0x55#8,                         0x56#8,                         0x57#8,                         0x58#8,                         0x59#8,                         0x5a#8,                         0x5b#8,                         0x5c#8,                         0x5d#8,                         0x5e#8,                         0x5f#8,                         0x60#8,                         0x61#8,                         0x62#8,                         0x63#8,                         0x64#8,                         0x65#8,                         0x66#8,                         0x67#8,                         0x68#8,                         0x69#8,                         0x6a#8,                         0x6b#8,                         0x6c#8,                         0x6d#8,                         0x6e#8,                         0x6f#8,                         0x70#8,                         0x71#8,                         0x72#8,                         0x73#8,                         0x74#8,                         0x75#8,                         0x76#8,                         0x77#8,                         0x78#8,                         0x79#8,                         0x7a#8,                         0x7b#8,                         0x7c#8,                         0x7d#8,                         0x7e#8,                         0x7f#8,                         0x80#8,                         0x81#8,                         0x82#8,                         0x83#8,                         0x84#8,                         0x85#8,                         0x86#8,                         0x87#8,                         0x88#8,                         0x89#8,                         0x8a#8,                         0x8b#8,                         0x8c#8,                         0x8d#8,                         0x8e#8,                         0x8f#8,                         0x90#8,                         0x91#8,                         0x92#8,                         0x93#8,                         0x94#8,                         0x95#8,                         0x96#8,                         0x97#8,                         0x98#8,                         0x99#8,                         0x9a#8,                         0x9b#8,                         0x9c#8,                         0x9d#8,                         0x9e#8,                         0x9f#8,                         0xa0#8,                         0xa1#8,                         0xa2#8,                         0xa3#8,                         0xa4#8,                         0xa5#8,                         0xa6#8,                         0xa7#8,                         0xa8#8,                         0xa9#8,                         0xaa#8,                         0xab#8,                         0xac#8,                         0xad#8,                         0xae#8,                         0xaf#8,                         0xb0#8,                         0xb1#8,                         0xb2#8,                         0xb3#8,                         0xb4#8,                         0xb5#8,                         0xb6#8,                         0xb7#8,                         0xb8#8,                         0xb9#8,                         0xba#8,                         0xbb#8,                         0xbc#8,                         0xbd#8,                         0xbe#8,                         0xbf#8,                         0xc0#8,                         0xc1#8,                         0xc2#8,                         0xc3#8,                         0xc4#8,                         0xc5#8,                         0xc6#8,                         0xc7#8,                         0xc8#8,                         0xc9#8,                         0xca#8,                         0xcb#8,                         0xcc#8,                         0xcd#8,                         0xce#8,                         0xcf#8,                         0xd0#8,                         0xd1#8,                         0xd2#8,                         0xd3#8,                         0xd4#8,                         0xd5#8,                         0xd6#8,                         0xd7#8,                         0xd8#8,                         0xd9#8,                         0xda#8,                         0xdb#8,                         0xdc#8,                         0xdd#8,                         0xde#8,                         0xdf#8,                         0xe0#8,                         0xe1#8,                         0xe2#8,                         0xe3#8,                         0xe4#8,                         0xe5#8,                         0xe6#8,                         0xe7#8,                         0xe8#8,                         0xe9#8,                         0xea#8,                         0xeb#8,                         0xec#8,                         0xed#8,                         0xee#8,                         0xef#8,                         0xf0#8,                         0xf1#8,                         0xf2#8,                         0xf3#8,                         0xf4#8,                         0xf5#8,                         0xf6#8,                         0xf7#8,                         0xf8#8,                         0xf9#8,                         0xfa#8,                         0xfb#8,                         0xfc#8,                         0xfd#8,                         0xfe#8,                         0xff#8,                         0x00#8,                         0x01#8,                         0x02#8,                         0x03#8,                         0x04#8,                         0x05#8,                         0x06#8,                         0x07#8,                         0x08#8,                         0x09#8,                         0x0a#8,                         0x0b#8,                         0x0c#8,                         0x0d#8,                         0x0e#8,                         0x0f#8,                         0x10#8,                         0x11#8,                         0x12#8,                         0x13#8,                         0x14#8,                         0x15#8,                         0x16#8,                         0x17#8,                         0x18#8,                         0x19#8,                         0x1a#8,                         0x1b#8,                         0x1c#8,                         0x1d#8,                         0x1e#8,                         0x1f#8,                         0x20#8,                         0x21#8,                         0x22#8,                         0x23#8,                         0x24#8,                         0x25#8,                         0x26#8,                         0x27#8,                         0x28#8,                         0x29#8,                         0x2a#8,                         0x2b#8,                         0x2c#8,                         0x2d#8,                         0x2e#8,                         0x2f#8,                         0x30#8,                         0x31#8,                         0x32#8,                         0x33#8,                         0x34#8,                         0x35#8,                         0x36#8,                         0x37#8,                         0x38#8,                         0x39#8,                         0x3a#8,                         0x3b#8,                         0x3c#8,                         0x3d#8,                         0x3e#8,                         0x3f#8,                         0x40#8,                         0x41#8,                         0x42#8,                         0x43#8,                         0x44#8,                         0x45#8,                         0x46#8,                         0x47#8,                         0x48#8,                         0x49#8,                         0x4a#8,                         0x4b#8,                         0x4c#8,                         0x4d#8,                         0x4e#8,                         0x4f#8,                         0x50#8,                         0x51#8,                         0x52#8,                         0x53#8,                         0x54#8,                         0x55#8,                         0x56#8,                         0x57#8,                         0x58#8,                         0x59#8,                         0x5a#8,                         0x5b#8,                         0x5c#8,                         0x5d#8,                         0x5e#8,                         0x5f#8,                         0x60#8,                         0x61#8,                         0x62#8,                         0x63#8,                         0x64#8,                         0x65#8,                         0x66#8,                         0x67#8,                         0x68#8,                         0x69#8,                         0x6a#8,                         0x6b#8,                         0x6c#8,                         0x6d#8,                         0x6e#8,                         0x6f#8,                         0x70#8,                         0x71#8,                         0x72#8,                         0x73#8,                         0x74#8,                         0x75#8,                         0x76#8,                         0x77#8,                         0x78#8,                         0x79#8,                         0x7a#8,                         0x7b#8,                         0x7c#8,                         0x7d#8,                         0x7e#8,                         0x7f#8,                         0x80#8,                         0x81#8,                         0x82#8,                         0x83#8,                         0x84#8,                         0x85#8,                         0x86#8,                         0x87#8,                         0x88#8,                         0x89#8,                         0x8a#8,                         0x8b#8,                         0x8c#8,                         0x8d#8,                         0x8e#8,                         0x8f#8,                         0x90#8,                         0x91#8,                         0x92#8,                         0x93#8,                         0x94#8,                         0x95#8,                         0x96#8,                         0x97#8,                         0x98#8,                         0x99#8,                         0x9a#8,                         0x9b#8,                         0x9c#8,                         0x9d#8,                         0x9e#8,                         0x9f#8,                         0xa0#8,                         0xa1#8,                         0xa2#8,                         0xa3#8,                         0xa4#8,                         0xa5#8,                         0xa6#8,                         0xa7#8,                         0xa8#8,                         0xa9#8,                         0xaa#8,                         0xab#8,                         0xac#8,                         0xad#8,                         0xae#8,                         0xaf#8,                         0xb0#8,                         0xb1#8,                         0xb2#8,                         0xb3#8,                         0xb4#8,                         0xb5#8,                         0xb6#8,                         0xb7#8,                         0xb8#8,                         0xb9#8,                         0xba#8,                         0xbb#8,                         0xbc#8,                         0xbd#8,                         0xbe#8,                         0xbf#8,                         0xc0#8,                         0xc1#8,                         0xc2#8,                         0xc3#8,                         0xc4#8,                         0xc5#8,                         0xc6#8,                         0xc7#8,                         0xc8#8,                         0xc9#8,                         0xca#8,                         0xcb#8,                         0xcc#8,                         0xcd#8,                         0xce#8,                         0xcf#8,                         0xd0#8,                         0xd1#8,                         0xd2#8,                         0xd3#8,                         0xd4#8,                         0xd5#8,                         0xd6#8,                         0xd7#8,                         0xd8#8,                         0xd9#8,                         0xda#8,                         0xdb#8,                         0xdc#8,                         0xdd#8,                         0xde#8,                         0xdf#8,                         0xe0#8,                         0xe1#8,                         0xe2#8,                         0xe3#8,                         0xe4#8,                         0xe5#8,                         0xe6#8,                         0xe7#8,                         0xe8#8,                         0xe9#8,                         0xea#8,                         0xeb#8,                         0xec#8,                         0xed#8,                         0xee#8,                         0xef#8,                         0xf0#8,                         0xf1#8,                         0xf2#8,                         0xf3#8,                         0xf4#8,                         0xf5#8,                         0xf6#8,                         0xf7#8,                         0xf8#8,                         0xf9#8,                         0xfa#8,                         0xfb#8,                         0xfc#8,                         0xfd#8,                         0xfe#8,                         0xff#8,                         0x00#8,                         0x01#8,                         0x02#8,                         0x03#8,                         0x04#8,                         0x05#8,                         0x06#8,                         0x07#8,                         0x08#8,                         0x09#8,                         0x0a#8,                         0x0b#8,                         0x0c#8,                         0x0d#8,                         0x0e#8,                         0x0f#8,                         0x10#8,                         0x11#8,                         0x12#8,                         0x13#8,                         0x14#8,                         0x15#8,                         0x16#8,                         0x17#8,                         0x18#8,                         0x19#8,                         0x1a#8,                         0x1b#8,                         0x1c#8,                         0x1d#8,                         0x1e#8,                         0x1f#8,                         0x20#8,                         0x21#8,                         0x22#8,                         0x23#8,                         0x24#8,                         0x25#8,                         0x26#8,                         0x27#8,                         0x28#8,                         0x29#8,                         0x2a#8,                         0x2b#8,                         0x2c#8,                         0x2d#8,                         0x2e#8,                         0x2f#8,                         0x30#8,                         0x31#8,                         0x32#8,                         0x33#8,                         0x34#8,                         0x35#8,                         0x36#8,                         0x37#8,                         0x38#8,                         0x39#8,                         0x3a#8,                         0x3b#8,                         0x3c#8,                         0x3d#8,                         0x3e#8,                         0x3f#8,                         0x40#8,                         0x41#8,                         0x42#8,                         0x43#8,                         0x44#8,                         0x45#8,                         0x46#8,                         0x47#8,                         0x48#8,                         0x49#8,                         0x4a#8,                         0x4b#8,                         0x4c#8,                         0x4d#8,                         0x4e#8,                         0x4f#8,                         0x50#8,                         0x51#8,                         0x52#8,                         0x53#8,                         0x54#8,                         0x55#8,                         0x56#8,                         0x57#8,                         0x58#8,                         0x59#8,                         0x5a#8,                         0x5b#8,                         0x5c#8,                         0x5d#8,                         0x5e#8,                         0x5f#8,                         0x60#8,                         0x61#8,                         0x62#8,                         0x63#8,                         0x64#8,                         0x65#8,                         0x66#8,                         0x67#8,                         0x68#8,                         0x69#8,                         0x6a#8,                         0x6b#8,                         0x6c#8,                         0x6d#8,                         0x6e#8,                         0x6f#8,                         0x70#8,                         0x71#8,                         0x72#8,                         0x73#8,                         0x74#8,                         0x75#8,                         0x76#8,                         0x77#8,                         0x78#8,                         0x79#8,                         0x7a#8,                         0x7b#8,                         0x7c#8,                         0x7d#8,                         0x7e#8,                         0x7f#8,                         0x80#8,                         0x81#8,                         0x82#8,                         0x83#8,                         0x84#8,                         0x85#8,                         0x86#8,                         0x87#8,                         0x88#8,                         0x89#8,                         0x8a#8,                         0x8b#8,                         0x8c#8,                         0x8d#8,                         0x8e#8,                         0x8f#8,                         0x90#8,                         0x91#8,                         0x92#8,                         0x93#8,                         0x94#8,                         0x95#8,                         0x96#8,                         0x97#8,                         0x98#8,                         0x99#8,                         0x9a#8,                         0x9b#8,                         0x9c#8,                         0x9d#8,                         0x9e#8,                         0x9f#8,                         0xa0#8,                         0xa1#8,                         0xa2#8,                         0xa3#8,                         0xa4#8,                         0xa5#8,                         0xa6#8,                         0xa7#8,                         0xa8#8,                         0xa9#8,                         0xaa#8,                         0xab#8,                         0xac#8,                         0xad#8,                         0xae#8,                         0xaf#8,                         0xb0#8,                         0xb1#8,                         0xb2#8,                         0xb3#8,                         0xb4#8,                         0xb5#8,                         0xb6#8,                         0xb7#8,                         0xb8#8,                         0xb9#8,                         0xba#8,                         0xbb#8,                         0xbc#8,                         0xbd#8,                         0xbe#8,                         0xbf#8,                         0xc0#8,                         0xc1#8,                         0xc2#8,                         0xc3#8,                         0xc4#8,                         0xc5#8,                         0xc6#8,                         0xc7#8,                         0xc8#8,                         0xc9#8,                         0xca#8,                         0xcb#8,                         0xcc#8,                         0xcd#8,                         0xce#8,                         0xcf#8,                         0xd0#8,                         0xd1#8,                         0xd2#8,                         0xd3#8,                         0xd4#8,                         0xd5#8,                         0xd6#8,                         0xd7#8,                         0xd8#8,                         0xd9#8,                         0xda#8,                         0xdb#8,                         0xdc#8,                         0xdd#8,                         0xde#8,                         0xdf#8,                         0xe0#8,                         0xe1#8,                         0xe2#8,                         0xe3#8,                         0xe4#8,                         0xe5#8,                         0xe6#8,                         0xe7#8,                         0xe8#8,                         0xe9#8,                         0xea#8,                         0xeb#8,                         0xec#8,                         0xed#8,                         0xee#8,                         0xef#8,                         0xf0#8,                         0xf1#8,                         0xf2#8,                         0xf3#8,                         0xf4#8,                         0xf5#8,                         0xf6#8,                         0xf7#8,                         0xf8#8,                         0xf9#8,                         0xfa#8,                         0xfb#8,                         0xfc#8,                         0xfd#8,                         0xfe#8,                         0xff#8,                         0x00#8,                         0x01#8,                         0x02#8,                         0x03#8,                         0x04#8,                         0x05#8,                         0x06#8,                         0x07#8,                         0x08#8,                         0x09#8,                         0x0a#8,                         0x0b#8,                         0x0c#8,                         0x0d#8,                         0x0e#8,                         0x0f#8,                         0x10#8,                         0x11#8,                         0x12#8,                         0x13#8,                         0x14#8,                         0x15#8,                         0x16#8,                         0x17#8,                         0x18#8,                         0x19#8,                         0x1a#8,                         0x1b#8,                         0x1c#8,                         0x1d#8,                         0x1e#8,                         0x1f#8,                         0x20#8,                         0x21#8,                         0x22#8,                         0x23#8,                         0x24#8,                         0x25#8,                         0x26#8,                         0x27#8,                         0x28#8,                         0x29#8,                         0x2a#8,                         0x2b#8,                         0x2c#8,                         0x2d#8,                         0x2e#8,                         0x2f#8,                         0x30#8,                         0x31#8,                         0x32#8,                         0x33#8,                         0x34#8,                         0x35#8,                         0x36#8,                         0x37#8,                         0x38#8,                         0x39#8,                         0x3a#8,                         0x3b#8,                         0x3c#8,                         0x3d#8,                         0x3e#8,                         0x3f#8,                         0x40#8,                         0x41#8,                         0x42#8,                         0x43#8,                         0x44#8,                         0x45#8,                         0x46#8,                         0x47#8,                         0x48#8,                         0x49#8,                         0x4a#8,                         0x4b#8,                         0x4c#8,                         0x4d#8,                         0x4e#8,                         0x4f#8,                         0x50#8,                         0x51#8,                         0x52#8,                         0x53#8,                         0x54#8,                         0x55#8,                         0x56#8,                         0x57#8,                         0x58#8,                         0x59#8,                         0x5a#8,                         0x5b#8,                         0x5c#8,                         0x5d#8,                         0x5e#8,                         0x5f#8,                         0x60#8,                         0x61#8,                         0x62#8,                         0x63#8,                         0x64#8,                         0x65#8,                         0x66#8,                         0x67#8,                         0x68#8,                         0x69#8,                         0x6a#8,                         0x6b#8,                         0x6c#8,                         0x6d#8,                         0x6e#8,                         0x6f#8,                         0x70#8,                         0x71#8,                         0x72#8,                         0x73#8,                         0x74#8,                         0x75#8,                         0x76#8,                         0x77#8,                         0x78#8,                         0x79#8,                         0x7a#8,                         0x7b#8,                         0x7c#8,                         0x7d#8,                         0x7e#8,                         0x7f#8,                         0x80#8,                         0x81#8,                         0x82#8,                         0x83#8,                         0x84#8,                         0x85#8,                         0x86#8,                         0x87#8,                         0x88#8,                         0x89#8,                         0x8a#8,                         0x8b#8,                         0x8c#8,                         0x8d#8,                         0x8e#8,                         0x8f#8,                         0x90#8,                         0x91#8,                         0x92#8,                         0x93#8,                         0x94#8,                         0x95#8,                         0x96#8,                         0x97#8,                         0x98#8,                         0x99#8,                         0x9a#8,                         0x9b#8,                         0x9c#8,                         0x9d#8,                         0x9e#8,                         0x9f#8,                         0xa0#8,                         0xa1#8,                         0xa2#8,                         0xa3#8,                         0xa4#8,                         0xa5#8,                         0xa6#8,                         0xa7#8,                         0xa8#8,                         0xa9#8,                         0xaa#8,                         0xab#8,                         0xac#8,                         0xad#8,                         0xae#8,                         0xaf#8,                         0xb0#8,                         0xb1#8,                         0xb2#8,                         0xb3#8,                         0xb4#8,                         0xb5#8,                         0xb6#8,                         0xb7#8,                         0xb8#8,                         0xb9#8,                         0xba#8,                         0xbb#8,                         0xbc#8,                         0xbd#8,                         0xbe#8,                         0xbf#8,                         0xc0#8,                         0xc1#8,                         0xc2#8,                         0xc3#8,                         0xc4#8,                         0xc5#8,                         0xc6#8,                         0xc7#8,                         0xc8#8,                         0xc9#8,                         0xca#8,                         0xcb#8,                         0xcc#8,                         0xcd#8,                         0xce#8,                         0xcf#8,                         0xd0#8,                         0xd1#8,                         0xd2#8,                         0xd3#8,                         0xd4#8,                         0xd5#8,                         0xd6#8,                         0xd7#8,                         0xd8#8,                         0xd9#8,                         0xda#8,                         0xdb#8,                         0xdc#8,                         0xdd#8,                         0xde#8,                         0xdf#8,                         0xe0#8,                         0xe1#8,                         0xe2#8,                         0xe3#8,                         0xe4#8,                         0xe5#8,                         0xe6#8,                         0xe7#8,                         0xe8#8,                         0xe9#8,                         0xea#8,                         0xeb#8,                         0xec#8,                         0xed#8,                         0xee#8,                         0xef#8,                         0xf0#8,                         0xf1#8,                         0xf2#8,                         0xf3#8,                         0xf4#8,                         0xf5#8,                         0xf6#8,                         0xf7#8,                         0xf8#8,                         0xf9#8,                         0xfa#8,                         0xfb#8,                         0xfc#8,                         0xfd#8,                         0xfe#8,                         0xff#8,                         0x00#8,                         0x01#8,                         0x02#8,                         0x03#8,                         0x04#8,                         0x05#8,                         0x06#8,                         0x07#8,                         0x08#8,                         0x09#8,                         0x0a#8,                         0x0b#8,                         0x0c#8,                         0x0d#8,                         0x0e#8,                         0x0f#8,                         0x10#8,                         0x11#8,                         0x12#8,                         0x13#8,                         0x14#8,                         0x15#8,                         0x16#8,                         0x17#8,                         0x18#8,                         0x19#8,                         0x1a#8,                         0x1b#8,                         0x1c#8,                         0x1d#8,                         0x1e#8,                         0x1f#8,                         0x20#8,                         0x21#8,                         0x22#8,                         0x23#8,                         0x24#8,                         0x25#8,                         0x26#8,                         0x27#8,                         0x28#8,                         0x29#8,                         0x2a#8,                         0x2b#8,                         0x2c#8,                         0x2d#8,                         0x2e#8,                         0x2f#8,                         0x30#8,                         0x31#8,                         0x32#8,                         0x33#8,                         0x34#8,                         0x35#8,                         0x36#8,                         0x37#8,                         0x38#8,                         0x39#8,                         0x3a#8,                         0x3b#8,                         0x3c#8,                         0x3d#8,                         0x3e#8,                         0x3f#8,                         0x40#8,                         0x41#8,                         0x42#8,                         0x43#8,                         0x44#8,                         0x45#8,                         0x46#8,                         0x47#8,                         0x48#8,                         0x49#8,                         0x4a#8,                         0x4b#8],               next := 1536,               begun := true,               waiting := true,               done := false },             { core := 2, image := [], next := 0, begun := false, waiting := false, done := false }] }), (0), ({ core := 1,   image := [0x00#8,             0x01#8,             0x02#8,             0x03#8,             0x04#8,             0x05#8,             0x06#8,             0x07#8,             0x08#8,             0x09#8,             0x0a#8,             0x0b#8,             0x0c#8,             0x0d#8,             0x0e#8,             0x0f#8,             0x10#8,             0x11#8,             0x12#8,             0x13#8,             0x14#8,             0x15#8,             0x16#8,             0x17#8,             0x18#8,             0x19#8,             0x1a#8,             0x1b#8,             0x1c#8,             0x1d#8,             0x1e#8,             0x1f#8,             0x20#8,             0x21#8,             0x22#8,             0x23#8,             0x24#8,             0x25#8,             0x26#8,             0x27#8,             0x28#8,             0x29#8,             0x2a#8,             0x2b#8,             0x2c#8,             0x2d#8,             0x2e#8,             0x2f#8,             0x30#8,             0x31#8,             0x32#8,             0x33#8,             0x34#8,             0x35#8,             0x36#8,             0x37#8,             0x38#8,             0x39#8,             0x3a#8,             0x3b#8,             0x3c#8,             0x3d#8,             0x3e#8,             0x3f#8,             0x40#8,             0x41#8,             0x42#8,             0x43#8,             0x44#8,             0x45#8,             0x46#8,             0x47#8,             0x48#8,             0x49#8,             0x4a#8,             0x4b#8,             0x4c#8,             0x4d#8,             0x4e#8,             0x4f#8,             0x50#8,             0x51#8,             0x52#8,             0x53#8,             0x54#8,             0x55#8,             0x56#8,             0x57#8,             0x58#8,             0x59#8,             0x5a#8,             0x5b#8,             0x5c#8,             0x5d#8,             0x5e#8,             0x5f#8,             0x60#8,             0x61#8,             0x62#8,             0x63#8,             0x64#8,             0x65#8,             0x66#8,             0x67#8,             0x68#8,             0x69#8,             0x6a#8,             0x6b#8,             0x6c#8,             0x6d#8,             0x6e#8,             0x6f#8,             0x70#8,             0x71#8,             0x72#8,             0x73#8,             0x74#8,             0x75#8,             0x76#8,             0x77#8,             0x78#8,             0x79#8,             0x7a#8,             0x7b#8,             0x7c#8,             0x7d#8,             0x7e#8,             0x7f#8,             0x80#8,             0x81#8,             0x82#8,             0x83#8,             0x84#8,             0x85#8,             0x86#8,             0x87#8,             0x88#8,             0x89#8,             0x8a#8,             0x8b#8,             0x8c#8,             0x8d#8,             0x8e#8,             0x8f#8,             0x90#8,             0x91#8,             0x92#8,             0x93#8,             0x94#8,             0x95#8,             0x96#8,             0x97#8,             0x98#8,             0x99#8,             0x9a#8,             0x9b#8,             0x9c#8,             0x9d#8,             0x9e#8,             0x9f#8,             0xa0#8,             0xa1#8,             0xa2#8,             0xa3#8,             0xa4#8,             0xa5#8,             0xa6#8,             0xa7#8,             0xa8#8,             0xa9#8,             0xaa#8,             0xab#8,             0xac#8,             0xad#8,             0xae#8,             0xaf#8,             0xb0#8,             0xb1#8,             0xb2#8,             0xb3#8,             0xb4#8,             0xb5#8,             0xb6#8,             0xb7#8,             0xb8#8,             0xb9#8,             0xba#8,             0xbb#8,             0xbc#8,             0xbd#8,             0xbe#8,             0xbf#8,             0xc0#8,             0xc1#8,             0xc2#8,             0xc3#8,             0xc4#8,             0xc5#8,             0xc6#8,             0xc7#8,             0xc8#8,             0xc9#8,             0xca#8,             0xcb#8,             0xcc#8,             0xcd#8,             0xce#8,             0xcf#8,             0xd0#8,             0xd1#8,             0xd2#8,             0xd3#8,             0xd4#8,             0xd5#8,             0xd6#8,             0xd7#8,             0xd8#8,             0xd9#8,             0xda#8,             0xdb#8,             0xdc#8,             0xdd#8,             0xde#8,             0xdf#8,             0xe0#8,             0xe1#8,             0xe2#8,             0xe3#8,             0xe4#8,             0xe5#8,             0xe6#8,             0xe7#8,             0xe8#8,             0xe9#8,             0xea#8,             0xeb#8,             0xec#8,             0xed#8,             0xee#8,             0xef#8,             0xf0#8,             0xf1#8,             0xf2#8,             0xf3#8,             0xf4#8,             0xf5#8,             0xf6#8,             0xf7#8,             0xf8#8,             0xf9#8,             0xfa#8,             0xfb#8,             0xfc#8,             0xfd#8,             0xfe#8,             0xff#8,             0x00#8,             0x01#8,             0x02#8,             0x03#8,             0x04#8,             0x05#8,             0x06#8,             0x07#8,             0x08#8,             0x09#8,             0x0a#8,             0x0b#8,             0x0c#8,             0x0d#8,             0x0e#8,             0x0f#8,             0x10#8,             0x11#8,             0x12#8,             0x13#8,             0x14#8,             0x15#8,             0x16#8,             0x17#8,             0x18#8,             0x19#8,             0x1a#8,             0x1b#8,             0x1c#8,             0x1d#8,             0x1e#8,             0x1f#8,             0x20#8,             0x21#8,             0x22#8,             0x23#8,             0x24#8,             0x25#8,             0x26#8,             0x27#8,             0x28#8,             0x29#8,             0x2a#8,             0x2b#8,             0x2c#8,             0x2d#8,             0x2e#8,             0x2f#8,             0x30#8,             0x31#8,             0x32#8,             0x33#8,             0x34#8,             0x35#8,             0x36#8,             0x37#8,             0x38#8,             0x39#8,             0x3a#8,             0x3b#8,             0x3c#8,             0x3d#8,             0x3e#8,             0x3f#8,             0x40#8,             0x41#8,             0x42#8,             0x43#8,             0x44#8,             0x45#8,             0x46#8,             0x47#8,             0x48#8,             0x49#8,             0x4a#8,             0x4b#8,             0x4c#8,             0x4d#8,             0x4e#8,             0x4f#8,             0x50#8,             0x51#8,             0x52#8,             0x53#8,             0x54#8,             0x55#8,             0x56#8,             0x57#8,             0x58#8,             0x59#8,             0x5a#8,             0x5b#8,             0x5c#8,             0x5d#8,             0x5e#8,             0x5f#8,             0x60#8,             0x61#8,             0x62#8,             0x63#8,             0x64#8,             0x65#8,             0x66#8,             0x67#8,             0x68#8,             0x69#8,             0x6a#8,             0x6b#8,             0x6c#8,             0x6d#8,             0x6e#8,             0x6f#8,             0x70#8,             0x71#8,             0x72#8,             0x73#8,             0x74#8,             0x75#8,             0x76#8,             0x77#8,             0x78#8,             0x79#8,             0x7a#8,             0x7b#8,             0x7c#8,             0x7d#8,             0x7e#8,             0x7f#8,             0x80#8,             0x81#8,             0x82#8,             0x83#8,             0x84#8,             0x85#8,             0x86#8,             0x87#8,             0x88#8,             0x89#8,             0x8a#8,             0x8b#8,             0x8c#8,             0x8d#8,             0x8e#8,             0x8f#8,             0x90#8,             0x91#8,             0x92#8,             0x93#8,             0x94#8,             0x95#8,             0x96#8,             0x97#8,             0x98#8,             0x99#8,             0x9a#8,             0x9b#8,             0x9c#8,             0x9d#8,             0x9e#8,             0x9f#8,             0xa0#8,             0xa1#8,             0xa2#8,             0xa3#8,             0xa4#8,             0xa5#8,             0xa6#8,             0xa7#8,             0xa8#8,             0xa9#8,             0xaa#8,             0xab#8,             0xac#8,             0xad#8,             0xae#8,             0xaf#8,             0xb0#8,             0xb1#8,             0xb2#8,             0xb3#8,             0xb4#8,             0xb5#8,             0xb6#8,             0xb7#8,             0xb8#8,             0xb9#8,             0xba#8,             0xbb#8,             0xbc#8,             0xbd#8,             0xbe#8,             0xbf#8,             0xc0#8,             0xc1#8,             0xc2#8,             0xc3#8,             0xc4#8,             0xc5#8,             0xc6#8,             0xc7#8,             0xc8#8,             0xc9#8,             0xca#8,             0xcb#8,             0xcc#8,             0xcd#8,             0xce#8,             0xcf#8,             0xd0#8,             0xd1#8,             0xd2#8,             0xd3#8,             0xd4#8,             0xd5#8,             0xd6#8,             0xd7#8,             0xd8#8,             0xd9#8,             0xda#8,             0xdb#8,             0xdc#8,             0xdd#8,             0xde#8,             0xdf#8,             0xe0#8,             0xe1#8,             0xe2#8,             0xe3#8,             0xe4#8,             0xe5#8,             0xe6#8,             0xe7#8,             0xe8#8,             0xe9#8,             0xea#8,             0xeb#8,             0xec#8,             0xed#8,             0xee#8,             0xef#8,             0xf0#8,             0xf1#8,             0xf2#8,             0xf3#8,             0xf4#8,             0xf5#8,             0xf6#8,             0xf7#8,             0xf8#8,             0xf9#8,             0xfa#8,             0xfb#8,             0xfc#8,             0xfd#8,             0xfe#8,             0xff#8,             0x00#8,             0x01#8,             0x02#8,             0x03#8,             0x04#8,             0x05#8,             0x06#8,             0x07#8,             0x08#8,             0x09#8,             0x0a#8,             0x0b#8,             0x0c#8,             0x0d#8,             0x0e#8,             0x0f#8,             0x10#8,             0x11#8,             0x12#8,             0x13#8,             0x14#8,             0x15#8,             0x16#8,             0x17#8,             0x18#8,             0x19#8,             0x1a#8,             0x1b#8,             0x1c#8,             0x1d#8,             0x1e#8,             0x1f#8,             0x20#8,             0x21#8,             0x22#8,             0x23#8,             0x24#8,             0x25#8,             0x26#8,             0x27#8,             0x28#8,             0x29#8,             0x2a#8,             0x2b#8,             0x2c#8,             0x2d#8,             0x2e#8,             0x2f#8,             0x30#8,             0x31#8,             0x32#8,             0x33#8,             0x34#8,             0x35#8,             0x36#8,             0x37#8,             0x38#8,             0x39#8,             0x3a#8,             0x3b#8,             0x3c#8,             0x3d#8,             0x3e#8,             0x3f#8,             0x40#8,             0x41#8,             0x42#8,             0x43#8,             0x44#8,             0x45#8,             0x46#8,             0x47#8,             0x48#8,             0x49#8,             0x4a#8,             0x4b#8,             0x4c#8,             0x4d#8,             0x4e#8,             0x4f#8,             0x50#8,             0x51#8,             0x52#8,             0x53#8,             0x54#8,             0x55#8,             0x56#8,             0x57#8,             0x58#8,             0x59#8,             0x5a#8,             0x5b#8,             0x5c#8,             0x5d#8,             0x5e#8,             0x5f#8,             0x60#8,             0x61#8,             0x62#8,             0x63#8,             0x64#8,             0x65#8,             0x66#8,             0x67#8,             0x68#8,             0x69#8,             0x6a#8,             0x6b#8,             0x6c#8,             0x6d#8,             0x6e#8,             0x6f#8,             0x70#8,             0x71#8,             0x72#8,             0x73#8,             0x74#8,             0x75#8,             0x76#8,             0x77#8,             0x78#8,             0x79#8,             0x7a#8,             0x7b#8,             0x7c#8,             0x7d#8,             0x7e#8,             0x7f#8,             0x80#8,             0x81#8,             0x82#8,             0x83#8,             0x84#8,             0x85#8,             0x86#8,             0x87#8,             0x88#8,             0x89#8,             0x8a#8,             0x8b#8,             0x8c#8,             0x8d#8,             0x8e#8,             0x8f#8,             0x90#8,             0x91#8,             0x92#8,             0x93#8,             0x94#8,             0x95#8,             0x96#8,             0x97#8,             0x98#8,             0x99#8,             0x9a#8,             0x9b#8,             0x9c#8,             0x9d#8,             0x9e#8,             0x9f#8,             0xa0#8,             0xa1#8,             0xa2#8,             0xa3#8,             0xa4#8,             0xa5#8,             0xa6#8,             0xa7#8,             0xa8#8,             0xa9#8,             0xaa#8,             0xab#8,             0xac#8,             0xad#8,             0xae#8,             0xaf#8,             0xb0#8,             0xb1#8,             0xb2#8,             0xb3#8,             0xb4#8,             0xb5#8,             0xb6#8,             0xb7#8,             0xb8#8,             0xb9#8,             0xba#8,             0xbb#8,             0xbc#8,             0xbd#8,             0xbe#8,             0xbf#8,             0xc0#8,             0xc1#8,             0xc2#8,             0xc3#8,             0xc4#8,             0xc5#8,             0xc6#8,             0xc7#8,             0xc8#8,             0xc9#8,             0xca#8,             0xcb#8,             0xcc#8,             0xcd#8,             0xce#8,             0xcf#8,             0xd0#8,             0xd1#8,             0xd2#8,             0xd3#8,             0xd4#8,             0xd5#8,             0xd6#8,             0xd7#8,             0xd8#8,             0xd9#8,             0xda#8,             0xdb#8,             0xdc#8,             0xdd#8,             0xde#8,             0xdf#8,             0xe0#8,             0xe1#8,             0xe2#8,             0xe3#8,             0xe4#8,             0xe5#8,             0xe6#8,             0xe7#8,             0xe8#8,             0xe9#8,             0xea#8,             0xeb#8,             0xec#8,             0xed#8,             0xee#8,             0xef#8,             0xf0#8,             0xf1#8,             0xf2#8,             0xf3#8,             0xf4#8,             0xf5#8,             0xf6#8,             0xf7#8,             0xf8#8,             0xf9#8,             0xfa#8,             0xfb#8,             0xfc#8,             0xfd#8,             0xfe#8,             0xff#8,             0x00#8,             0x01#8,             0x02#8,             0x03#8,             0x04#8,             0x05#8,             0x06#8,             0x07#8,             0x08#8,             0x09#8,             0x0a#8,             0x0b#8,             0x0c#8,             0x0d#8,             0x0e#8,             0x0f#8,             0x10#8,             0x11#8,             0x12#8,             0x13#8,             0x14#8,             0x15#8,             0x16#8,             0x17#8,             0x18#8,             0x19#8,             0x1a#8,             0x1b#8,             0x1c#8,             0x1d#8,             0x1e#8,             0x1f#8,             0x20#8,             0x21#8,             0x22#8,             0x23#8,             0x24#8,             0x25#8,             0x26#8,             0x27#8,             0x28#8,             0x29#8,             0x2a#8,             0x2b#8,             0x2c#8,             0x2d#8,             0x2e#8,             0x2f#8,             0x30#8,             0x31#8,             0x32#8,             0x33#8,             0x34#8,             0x35#8,             0x36#8,             0x37#8,             0x38#8,             0x39#8,             0x3a#8,             0x3b#8,             0x3c#8,             0x3d#8,             0x3e#8,             0x3f#8,             0x40#8,             0x41#8,             0x42#8,             0x43#8,             0x44#8,             0x45#8,             0x46#8,             0x47#8,             0x48#8,             0x49#8,             0x4a#8,             0x4b#8,             0x4c#8,             0x4d#8,             0x4e#8,             0x4f#8,             0x50#8,             0x51#8,             0x52#8,             0x53#8,             0x54#8,             0x55#8,             0x56#8,             0x57#8,             0x58#8,             0x59#8,             0x5a#8,             0x5b#8,             0x5c#8,             0x5d#8,             0x5e#8,             0x5f#8,             0x60#8,             0x61#8,             0x62#8,             0x63#8,             0x64#8,             0x65#8,             0x66#8,             0x67#8,             0x68#8,             0x69#8,             0x6a#8,             0x6b#8,             0x6c#8,             0x6d#8,             0x6e#8,             0x6f#8,             0x70#8,             0x71#8,             0x72#8,             0x73#8,             0x74#8,             0x75#8,             0x76#8,             0x77#8,             0x78#8,             0x79#8,             0x7a#8,             0x7b#8,             0x7c#8,             0x7d#8,             0x7e#8,             0x7f#8,             0x80#8,             0x81#8,             0x82#8,             0x83#8,             0x84#8,             0x85#8,             0x86#8,             0x87#8,             0x88#8,             0x89#8,             0x8a#8,             0x8b#8,             0x8c#8,             0x8d#8,             0x8e#8,             0x8f#8,             0x90#8,             0x91#8,             0x92#8,             0x93#8,             0x94#8,             0x95#8,             0x96#8,             0x97#8,             0x98#8,             0x99#8,             0x9a#8,             0x9b#8,             0x9c#8,             0x9d#8,             0x9e#8,             0x9f#8,             0xa0#8,             0xa1#8,             0xa2#8,             0xa3#8,             0xa4#8,             0xa5#8,             0xa6#8,             0xa7#8,             0xa8#8,             0xa9#8,             0xaa#8,             0xab#8,             0xac#8,             0xad#8,             0xae#8,             0xaf#8,             0xb0#8,             0xb1#8,             0xb2#8,             0xb3#8,             0xb4#8,             0xb5#8,             0xb6#8,             0xb7#8,             0xb8#8,             0xb9#8,             0xba#8,             0xbb#8,             0xbc#8,             0xbd#8,             0xbe#8,             0xbf#8,             0xc0#8,             0xc1#8,             0xc2#8,             0xc3#8,             0xc4#8,             0xc5#8,             0xc6#8,             0xc7#8,             0xc8#8,             0xc9#8,             0xca#8,             0xcb#8,             0xcc#8,             0xcd#8,             0xce#8,             0xcf#8,             0xd0#8,             0xd1#8,             0xd2#8,             0xd3#8,             0xd4#8,             0xd5#8,             0xd6#8,             0xd7#8,             0xd8#8,             0xd9#8,             0xda#8,             0xdb#8,             0xdc#8,             0xdd#8,             0xde#8,             0xdf#8,             0xe0#8,             0xe1#8,             0xe2#8,             0xe3#8,             0xe4#8,             0xe5#8,             0xe6#8,             0xe7#8,             0xe8#8,             0xe9#8,             0xea#8,             0xeb#8,             0xec#8,             0xed#8,             0xee#8,             0xef#8,             0xf0#8,             0xf1#8,             0xf2#8,             0xf3#8,             0xf4#8,             0xf5#8,             0xf6#8,             0xf7#8,             0xf8#8,             0xf9#8,             0xfa#8,             0xfb#8,             0xfc#8,             0xfd#8,             0xfe#8,             0xff#8,             0x00#8,             0x01#8,             0x02#8,             0x03#8,             0x04#8,             0x05#8,             0x06#8,             0x07#8,             0x08#8,             0x09#8,             0x0a#8,             0x0b#8,             0x0c#8,             0x0d#8,             0x0e#8,             0x0f#8,             0x10#8,             0x11#8,             0x12#8,             0x13#8,             0x14#8,             0x15#8,             0x16#8,             0x17#8,             0x18#8,             0x19#8,             0x1a#8,             0x1b#8,             0x1c#8,             0x1d#8,             0x1e#8,             0x1f#8,             0x20#8,             0x21#8,             0x22#8,             0x23#8,             0x24#8,             0x25#8,             0x26#8,             0x27#8,             0x28#8,             0x29#8,             0x2a#8,             0x2b#8,             0x2c#8,             0x2d#8,             0x2e#8,             0x2f#8,             0x30#8,             0x31#8,             0x32#8,             0x33#8,             0x34#8,             0x35#8,             0x36#8,             0x37#8,             0x38#8,             0x39#8,             0x3a#8,             0x3b#8,             0x3c#8,             0x3d#8,             0x3e#8,             0x3f#8,             0x40#8,             0x41#8,             0x42#8,             0x43#8,             0x44#8,             0x45#8,             0x46#8,             0x47#8,             0x48#8,             0x49#8,             0x4a#8,             0x4b#8],   next := 1536,   begun := true,   waiting := true,   done := false }), shown (states.getD 50 State.reset) ?_ ?_⟩⟩
  all_goals repeat' first | decide +kernel | (with_reducible first | refine State.wordFits_of ?_ | refine sidecars_of ?_ | refine apart_of ?_ ?_ ?_ | refine notWaiting_of ?_ | refine reaches_of ?_ | refine plainWord_of ?_ | refine forall_covers ?_ | refine placed_bed ?_ | refine placed_sync ?_ | refine placed_tie ?_ | refine State.branchable_of ?_ | refine ok_of ?_ | refine Sparse.sorted_of_sortedB _ ?_ | exact List.mem_cons_self | unfold vectorOk | refine error_of ?_ | refine ⟨1, 3, by decide +kernel, ?_⟩) | (intro h; exact absurd h (by decide +kernel)) | (intro q h4 h8; revert h4; revert h8; revert q; decide +kernel) | (refine Or.inl (by decide +kernel)) | (refine Or.inr (by decide +kernel)) | apply And.intro | (refine Exists.intro _ ?_) | (with_reducible constructor) | rfl | intro _
end LongOperations

/-! PowerControl -/
namespace PowerControl
def pw (s : State) (f : PowerCtl → PowerCtl) : State := { s with power := f s.power }
def sid (s : State) (f : Sideband → Sideband) : State := { s with side := f s.side }
def T (s : State) := setDs s [(Reg.POWER_TEL_LOST, 1)]
def est (s : State) (n : Nat) : State := pw s fun p => { p with ests := List.replicate 50 n }
def states : List State := [up, fr up, inTask up [0, 1], pw up fun p => { p with held := true }, pw (setDs up [(Reg.POWER_SETPOINT, 50), (Reg.POWER_RAMP_UP, 7), (Reg.POWER_SEQ, 0x123)]) fun p => { p with held := true },
  pw (setDs up [(Reg.POWER_TARGET_NOW, 200000), (Reg.POWER_Q_DIE, 1)]) fun p => { p with prev := 70000, track := true, overPrev := true, stretched := [(3, 43), (4, 42)] },
  setR (setDs up [(Reg.POWER_ALL, 1), (Reg.POWER_Q_DIE, 1), (Reg.POWER_PRELIMIT, 0), (Reg.POWER_CAL_FAULT, 1)]) [(Reg.POWER_Q_THERM, 0, 2, 5), (Reg.POWER_Q_DROOP, 0, 2, 9), (Reg.POWER_Q_THERM, 0, 0, 1)],
  setR (T (setDs up [(Reg.POWER_ALL, 1), (Reg.POWER_TARGET_NOW, 100000), (Reg.POWER_Q_DIE, 30)])) [(Reg.POWER_LEVEL, 0, 2, 5)],
  setR (inTask up [0, 1]) [(Reg.POWER_LEVEL, 0, 0, 20), (Reg.POWER_GROUP_ALL, 0, 0, 1)], setR (inTask up [0, 1]) [(Reg.POWER_LEVEL, 0, 0, 20)],
  est up 750, est up 800, est up 2000, setDs (est up 2000) [(Reg.POWER_DISAGREE, 9)], setDs (est up 750) [(Reg.POWER_CAL_FAULT, 1), (Reg.POWER_AGREE, 199)], T (est up 750),
  setDs up [(Reg.POWER_COOLANT_OK, 0)], setDs (inTask up [0, 1]) [(Reg.POWER_COOLANT_OK, 0)], fr (setDs up [(Reg.POWER_COOLANT_OK, 0)]), pw (setDs up [(Reg.POWER_COOLANT_OK, 0)]) (fun p => { p with lowPulse := true }),
  setDs up [(Reg.POWER_COOLANT_OK, 0), (Reg.POWER_STOPPED, 1)], pw (setDs up [(Reg.POWER_COOLANT_OK, 0), (Reg.POWER_STOPPED, 1)]) (fun p => { p with release := true }),
  pw up fun p => { p with stretching := true, tripped := [50] }, pw up fun p => { p with stretching := true, tripped := [5] },
  pw (setR up [(Reg.POWER_EVENTS, 0, 2, 10), (Reg.POWER_DURATION, 0, 5, 7)]) fun p => { p with summary := [(0,0),(0,0),(3,0)] },
  setDs up ((List.range 7).map fun i => (alertRows.getD i Reg.POWER_ALERT_CAL_FAULT, i % 2)), setDs up [(Reg.POWER_AGE_BUSY, 1)], setDs up [(Reg.POWER_AGE_BUSY, 1), (Reg.POWER_MARGIN, 30), (Reg.POWER_MARGIN_MAX, 35), (Reg.POWER_VID_BASE, 80), (Reg.LEDGER_HOURS, 3000)],
  sid up fun x => { x with rails := [⟨1, 7⟩, ⟨0, 9⟩] }, sid up fun x => { x with enabled := false, rails := [⟨1, 7⟩, ⟨0, 9⟩] }]
theorem witness :
  (∃ (x : LoopSample),
  let small (s : State) : Prop := s.df Reg.POWER_Q_DIE ≤ 64 ∧ ∀ g < 64, s.level g ≤ 64 ∧ s.rd Reg.POWER_Q_THERM 0 g ≤ 64 ∧ s.rd Reg.POWER_Q_DROOP 0 g ≤ 64;
    Meets (.powerLoop x) (fun s => s.frozen = false ∧ s.df Reg.BOOT_PHASE ≠ 0 ∧ s.power.held = false ∧ small s)) ∧
  (∃ (x : LoopSample), Meets (.powerLoop x) (fun s => s.frozen = false ∧ s.df Reg.BOOT_PHASE ≠ 0 ∧ s.power.held = true)) ∧
  (∃ holds, Meets (.powerWindow holds) (fun s => s.clocksRun = true ∧ ∀ g < 64, s.level g ≤ 64 ∧ s.rd Reg.POWER_GROUP_ALL 0 g ≤ 1)) ∧
  (∃ path, ∃ v, (v < 2 ^ 64) ∧
  let ramp := fld v 23 12;
    Meets (.envelopeTarget path v) (fun s => s.frozen = false ∧ path ≠ .other ∧ 1 ≤ ramp ∧ ramp ≤ 800)) ∧
  (∃ path, ∃ v, (v < 2 ^ 64) ∧
  let ramp := fld v 23 12;
    Meets (.envelopeTarget path v) (fun s => s.frozen = false ∧ (path = .other ∨ ramp = 0 ∨ 800 < ramp))) ∧
  (∃ rail, ∃ us, ∃ cur, ∃ tag,
  let p := toBytes 1 rail ++ [0#8] ++ toBytes 2 us ++ toBytes 4 cur;
  let good (s : State) : Prop := s.Receives 4 tag p ∧ rail < 2 ∧ 40 ≤ us ∧ us ≤ 60 ∧ cur < 2 ^ 32;
  let off (s : State) : Prop := s.measOf rail cur < 4 * absDiff s.meanEst (s.measOf rail cur);
    Meets (.telemetry (messageFrame 4 tag p)) (fun s => good s ∧ s.df Reg.POWER_TEL_LOST ≠ 1 ∧ s.df Reg.POWER_CAL_FAULT ≠ 1 ∧ ¬ off s ∧ s.meanEst ≠ 0)) ∧
  (∃ rail, ∃ us, ∃ cur, ∃ tag,
  let p := toBytes 1 rail ++ [0#8] ++ toBytes 2 us ++ toBytes 4 cur;
  let good (s : State) : Prop := s.Receives 4 tag p ∧ rail < 2 ∧ 40 ≤ us ∧ us ≤ 60 ∧ cur < 2 ^ 32;
  let off (s : State) : Prop := s.measOf rail cur < 4 * absDiff s.meanEst (s.measOf rail cur);
    Meets (.telemetry (messageFrame 4 tag p)) (fun s => good s ∧ s.df Reg.POWER_TEL_LOST ≠ 1 ∧ s.df Reg.POWER_CAL_FAULT ≠ 1 ∧ off s ∧ s.df Reg.POWER_DISAGREE = 9)) ∧
  (∃ rail, ∃ us, ∃ cur, ∃ tag,
  let p := toBytes 1 rail ++ [0#8] ++ toBytes 2 us ++ toBytes 4 cur;
  let good (s : State) : Prop := s.Receives 4 tag p ∧ rail < 2 ∧ 40 ≤ us ∧ us ≤ 60 ∧ cur < 2 ^ 32;
    Meets (.telemetry (messageFrame 4 tag p)) (fun s => good s ∧ s.df Reg.POWER_TEL_LOST ≠ 1 ∧ s.df Reg.POWER_CAL_FAULT = 1 ∧ s.df Reg.POWER_AGREE = 199 ∧
        10 * absDiff s.meanEst (s.measOf rail cur) ≤ s.measOf rail cur)) ∧
  (∃ rail, ∃ us, ∃ cur, ∃ tag,
  let p := toBytes 1 rail ++ [0#8] ++ toBytes 2 us ++ toBytes 4 cur;
  let good (s : State) : Prop := s.Receives 4 tag p ∧ rail < 2 ∧ 40 ≤ us ∧ us ≤ 60 ∧ cur < 2 ^ 32;
  let off (s : State) : Prop := s.measOf rail cur < 4 * absDiff s.meanEst (s.measOf rail cur);
    Meets (.telemetry (messageFrame 4 tag p)) (fun s => good s ∧ s.df Reg.POWER_TEL_LOST = 1 ∧ s.df Reg.POWER_CAL_FAULT ≠ 1 ∧ ¬ off s)) ∧
  (∃ rail, ∃ us, ∃ cur, ∃ tag,
  let p := toBytes 1 rail ++ [0#8] ++ toBytes 2 us ++ toBytes 4 cur;
    Meets (.telemetry (messageFrame 4 tag p)) (fun s => s.Receives 4 tag p ∧ rail < 256 ∧ us < 2 ^ 16 ∧ (1 < rail ∨ us < 40 ∨ 60 < us))) ∧
  (Meets .telemetryLost (fun s => s.frozen = false ∧ s.df Reg.POWER_TEL_LOST ≠ 1)) ∧
  (Meets .coolantOkFall (fun s => s.df Reg.POWER_COOLANT_OK = 1)) ∧
  (Meets .coolantStop (fun s => s.df Reg.POWER_COOLANT_OK ≠ 1 ∧ s.frozen = false ∧ s.df Reg.POWER_STOPPED ≠ 1)) ∧
  (Meets .coolantStop (fun s => s.df Reg.POWER_COOLANT_OK ≠ 1 ∧ s.frozen = true)) ∧
  (Meets .coolantRestored (fun s => s.df Reg.POWER_COOLANT_OK ≠ 1 ∧ s.power.lowPulse = true)) ∧
  (Meets .coolantRestored (fun s => s.df Reg.POWER_COOLANT_OK ≠ 1 ∧ s.power.lowPulse = false ∧ s.df Reg.POWER_STOPPED = 1 ∧ s.df Reg.POWER_STOP_SOURCE = 0)) ∧
  (∃ d, Meets (.droopTrip d) (fun s => s.frozen = false ∧ d < 256 ∧ d ∉ s.power.tripped ∧ s.power.stretching = false ∧ s.df Reg.POWER_STOPPED ≠ 1)) ∧
  (∃ d, Meets (.droopTrip d) (fun s => s.frozen = false ∧ d < 256 ∧ d ∉ s.power.tripped ∧ (s.power.stretching = true ∨ s.df Reg.POWER_STOPPED = 1))) ∧
  (∃ d, ∃ n, ∃ total, Meets (.droopClear d n total) (fun s => s.frozen = false ∧ s.power.tripped = [d] ∧ s.power.stretching = true)) ∧
  (Meets .droopLong (fun s => s.frozen = false ∧ s.power.stretching = true)) ∧
  (Meets .throttleSummary (fun s => s.frozen = false)) ∧
  (∃ path, ∃ v, Meets (.alert path v) (fun s => s.frozen = false ∧ path ≠ .other)) ∧
  (∃ path, Meets (.repointing path) (fun s => s.Writable path Reg.POWER_AGE_GO 0 0)) ∧
  (∃ mon, ∃ delay, (mon < 512) ∧ (delay < 2 ^ 15) ∧ Meets (.repointingDone mon delay) (fun s => s.frozen = false ∧ s.df Reg.POWER_AGE_BUSY = 1)) ∧
  (Meets .railReqRepeat (fun s => s.frozen = false ∧ s.side.pending = [] ∧ s.side.enabled = true)) ∧
  (Meets .railReqRepeat (fun s => s.frozen = false ∧ s.side.enabled = false)) ∧
  (∃ rail, Meets (.railReqTimeout rail) (fun s => s.frozen = false)) := by
  refine ⟨⟨({ groups := [1000, 1000, 1000, 1000, 1000, 1000, 1000, 1000, 1000, 1000, 1000, 1000, 1000, 1000, 1000, 1000, 1000, 1000,              1000, 1000, 1000, 1000, 1000, 1000, 1000, 1000, 1000, 1000, 1000, 1000, 1000, 1000, 1000, 1000, 1000, 1000,              1000, 1000, 1000, 1000, 1000, 1000, 1000, 1000, 1000, 1000, 1000, 1000, 1000, 1000, 1000, 1000, 1000, 1000,              1000, 1000, 1000, 1000, 1000, 1000, 1000, 1000, 1000, 1000],   rest := 5000,   core := 50000,   temps := [40, 41, 42, 43, 44, 45, 46, 47, 48, 49, 50, 51, 52, 53, 54, 55, 56, 57, 58, 59, 60, 61, 62, 63, 64, 65, 66,             67, 68, 69, 70, 71, 72, 73, 74, 75, 76, 77, 78, 79, 80, 81, 82, 83, 84, 85, 86, 87, 88, 89, 90, 91, 92, 93,             94, 95, 96, 97, 98, 99, 100, 101, 102, 103, 104, 105, 106, 107, 108, 109, 40, 41, 42, 43, 44, 45, 46, 47,             48, 49, 50, 51, 52, 53, 54, 55, 56, 57, 58, 59, 60, 61, 62, 63, 64, 65, 66, 67, 68, 69, 70, 71, 72, 73, 74,             75, 76, 77, 78, 79, 80, 81, 82, 83, 84, 85, 86, 87, 88, 89, 90, 91, 92, 93, 94, 95, 96, 97] }), shown (states.getD 0 State.reset) ?_ ?_⟩,
    ⟨({ groups := [1000, 1000, 1000, 1000, 1000, 1000, 1000, 1000, 1000, 1000, 1000, 1000, 1000, 1000, 1000, 1000, 1000, 1000,              1000, 1000, 1000, 1000, 1000, 1000, 1000, 1000, 1000, 1000, 1000, 1000, 1000, 1000, 1000, 1000, 1000, 1000,              1000, 1000, 1000, 1000, 1000, 1000, 1000, 1000, 1000, 1000, 1000, 1000, 1000, 1000, 1000, 1000, 1000, 1000,              1000, 1000, 1000, 1000, 1000, 1000, 1000, 1000, 1000, 1000],   rest := 5000,   core := 50000,   temps := [40, 41, 42, 43, 44, 45, 46, 47, 48, 49, 50, 51, 52, 53, 54, 55, 56, 57, 58, 59, 60, 61, 62, 63, 64, 65, 66,             67, 68, 69, 70, 71, 72, 73, 74, 75, 76, 77, 78, 79, 80, 81, 82, 83, 84, 85, 86, 87, 88, 89, 90, 91, 92, 93,             94, 95, 96, 97, 98, 99, 100, 101, 102, 103, 104, 105, 106, 107, 108, 109, 40, 41, 42, 43, 44, 45, 46, 47,             48, 49, 50, 51, 52, 53, 54, 55, 56, 57, 58, 59, 60, 61, 62, 63, 64, 65, 66, 67, 68, 69, 70, 71, 72, 73, 74,             75, 76, 77, 78, 79, 80, 81, 82, 83, 84, 85, 86, 87, 88, 89, 90, 91, 92, 93, 94, 95, 96, 97] }), shown (states.getD 3 State.reset) ?_ ?_⟩,
    ⟨([(0, 5), (1, 70)]), shown (states.getD 0 State.reset) ?_ ?_⟩,
    ⟨(Sys2Proof.Path.sideband), 844424947237664, ?_, shown (states.getD 0 State.reset) ?_ ?_⟩,
    ⟨(Sys2Proof.Path.sideband), 0, ?_, shown (states.getD 0 State.reset) ?_ ?_⟩,
    ⟨(0), (50), (800), (0), shown (states.getD 10 State.reset) ?_ ?_⟩,
    ⟨(0), (50), (0), (0), shown (states.getD 13 State.reset) ?_ ?_⟩,
    ⟨(0), (50), (1000), (0), shown (states.getD 14 State.reset) ?_ ?_⟩,
    ⟨(0), (50), (0), (0), shown (states.getD 7 State.reset) ?_ ?_⟩,
    ⟨(0), (0), (0), (0), shown (states.getD 0 State.reset) ?_ ?_⟩,
    shown (states.getD 0 State.reset) ?_ ?_,
    shown (states.getD 0 State.reset) ?_ ?_,
    shown (states.getD 16 State.reset) ?_ ?_,
    shown (states.getD 18 State.reset) ?_ ?_,
    shown (states.getD 19 State.reset) ?_ ?_,
    shown (states.getD 20 State.reset) ?_ ?_,
    ⟨(0), shown (states.getD 0 State.reset) ?_ ?_⟩,
    ⟨(0), shown (states.getD 20 State.reset) ?_ ?_⟩,
    ⟨(50), (0), (0), shown (states.getD 22 State.reset) ?_ ?_⟩,
    shown (states.getD 22 State.reset) ?_ ?_,
    shown (states.getD 0 State.reset) ?_ ?_,
    ⟨(Sys2Proof.Path.sideband), (0), shown (states.getD 0 State.reset) ?_ ?_⟩,
    ⟨(Sys2Proof.Path.sideband), shown (states.getD 0 State.reset) ?_ ?_⟩,
    ⟨(0), (0), ?_, ?_, shown (states.getD 26 State.reset) ?_ ?_⟩,
    shown (states.getD 0 State.reset) ?_ ?_,
    shown (states.getD 29 State.reset) ?_ ?_,
    ⟨(0), shown (states.getD 0 State.reset) ?_ ?_⟩⟩
  all_goals repeat' first | decide +kernel | (with_reducible first | refine State.wordFits_of ?_ | refine sidecars_of ?_ | refine apart_of ?_ ?_ ?_ | refine notWaiting_of ?_ | refine reaches_of ?_ | refine plainWord_of ?_ | refine forall_covers ?_ | refine placed_bed ?_ | refine placed_sync ?_ | refine placed_tie ?_ | refine State.branchable_of ?_ | refine ok_of ?_ | refine Sparse.sorted_of_sortedB _ ?_ | exact List.mem_cons_self | unfold vectorOk | refine error_of ?_ | refine ⟨1, 3, by decide +kernel, ?_⟩) | (intro h; exact absurd h (by decide +kernel)) | (intro q h4 h8; revert h4; revert h8; revert q; decide +kernel) | (refine Or.inl (by decide +kernel)) | (refine Or.inr (by decide +kernel)) | apply And.intro | (refine Exists.intro _ ?_) | (with_reducible constructor) | rfl | intro _
end PowerControl

/-! LedgerAndIdentity -/
namespace LedgerAndIdentity
def E1 := ev 0x0600 3 [1,2,3,4,5] 77 3 true
def E2 := ev 0x0100 0xFFFF [9] 77 0 false
def E3 := ev 0x0B08 2 [9] 99 2 true
def H (h a : Nat) : State := setDs up [(Reg.LEDGER_HEAD_SEQ, h), (Reg.LEDGER_ACK_SEQ, a), (Reg.LEDGER_HOURS, 77), (Reg.LEDGER_MINUTES, 5)]
def det (s : State) (l : List Event) : State := { s with detected := l }
def led (s : State) (f : Ledger → Ledger) : State := { s with ledger := f s.ledger }
def sid (s : State) (f : Sideband → Sideband) : State := { s with side := f s.side }
def nonce32 : List Byte := (List.range 32).map fun i => BitVec.ofNat 8 (i+7)
def AT : Attest := ⟨nonce32, nonce32 ++ nonce32, 44⟩
def states : List State :=
 [up, fr up, det (H 10 3) [E1, E2, E3], det (H 10 3) [E2, E3], det (H 9000 100) [E2, E1], det (H 9000 808) [E3], det (H 9000 809) [E3], det (led (H 9000 100) fun l => { l with overrun := true, bad := [808, 4], reported := [808] }) [E3],
  det (led (H 10 3) fun l => { l with counts := [(0x100, 64)], muted := [(0x100, 5)] }) [E2], det (led (H 10 3) fun l => { l with counts := [(0x100, 63)] }) [E2],
  det (H 10 10) [E1], det (H 10 10) [E3], det (setDs (H 10 3) [(Reg.LEDGER_FIRST_STOP_VALID, 1), (Reg.LEDGER_FIRST_STOP_TIME, 77), (Reg.LEDGER_FIRST_STOP_UNIT, 5)]) [E1],
  sid (H 10 3) (fun x => { x with enabled := false, pending := [(1, [])] }), led (H 10 10) (fun l => { l with counts := [(5, 3)], muted := [(5, 2), (9, 1)] }),
  led up (fun l => { l with fine := 958, steps := 62 }), led up (fun l => { l with fine := 959, steps := 62 }), led up (fun l => { l with fine := 479, steps := 62 }),led up (fun l => { l with fine := 959, steps := 6142 }),
  led up (fun l => { l with fine := 959, steps := 6143 }), setDs up [(Reg.MARK_LOCKED, 1)], setDs up [(Reg.ATTEST_BUSY, 1)], { setDs up [(Reg.ATTEST_BUSY, 1)] with attest := some AT },
  { setDs up [(Reg.ATTEST_BUSY, 1), (Reg.MARK_PUF_OK, 0)] with attest := some AT }, { setDs up [(Reg.ATTEST_BUSY, 1), (Reg.MARK_VERIFIED, 0)] with attest := some AT }]
theorem witness :
  let head (s : State) : Nat := s.df Reg.LEDGER_HEAD_SEQ
  let acks (s : State) : Nat := s.df Reg.LEDGER_ACK_SEQ
  let ready (s : State) (e : Event) : Prop := s.frozen = false ∧ s.df Reg.BOOT_PHASE ≠ 0 ∧ firstEvent s.detected = some e ∧ e.sev < 4 ∧
    head s + 1 < 2 ^ 48 ∧ acks s < head s
  let muting (s : State) (e : Event) : Prop := e.sev < 2 ∧ 64 ≤ Sparse.get 0 s.ledger.counts e.code
  let roomy (s : State) : Prop := head s < 8192 ∨ head s - 8192 < acks s
  (∃ (e : Event), Meets .ledgerRecord (fun s => ready s e ∧ roomy s ∧ ¬ muting s e)) ∧
  (∃ (e : Event), Meets .ledgerRecord (fun s => ready s e ∧ ¬ roomy s ∧ ¬ muting s e)) ∧
  (∃ (e : Event), Meets .ledgerRecord (fun s => ready s e ∧ muting s e)) ∧
  (∃ (e : Event), Meets .ledgerRecord (fun s => s.frozen = false ∧ s.df Reg.BOOT_PHASE ≠ 0 ∧ firstEvent s.detected = some e ∧ 2 ≤ e.sev ∧ e.sev < 4 ∧ head s < 8192 ∧
        acks s = head s ∧ s.side.enabled = true ∧ s.side.pending = [])) ∧
  (Meets .ledgerRecord (fun s => s.detected = [])) ∧
  (Meets .ledgerIbiRepeat (fun s => s.frozen = false ∧ acks s < head s ∧ s.side.enabled = true ∧ s.side.pending = [])) ∧
  (Meets .ledgerIbiRepeat (fun s => s.frozen = false ∧ acks s < head s ∧ s.side.enabled = false)) ∧
  (Meets .ledgerIbiRepeat (fun s => s.frozen = false ∧ head s ≤ acks s)) ∧
  (Meets .rateSummary (fun s => s.frozen = false)) ∧
  (
  let runs (s : State) : Prop := s.frozen = false ∧ s.boot.plinth = true ∧ s.boot.pwrgood = true ∧ s.df Reg.LEDGER_HOURS_SAT = 0;
    Meets .minuteCount (fun s => runs s ∧ s.ledger.fine + 1 < 960 ∧ s.ledger.steps < 6144)) ∧
  (
  let runs (s : State) : Prop := s.frozen = false ∧ s.boot.plinth = true ∧ s.boot.pwrgood = true ∧ s.df Reg.LEDGER_HOURS_SAT = 0;
    Meets .minuteCount (fun s => runs s ∧ s.ledger.fine = 959 ∧ s.ledger.steps < 6143)) ∧
  (
  let runs (s : State) : Prop := s.frozen = false ∧ s.boot.plinth = true ∧ s.boot.pwrgood = true ∧ s.df Reg.LEDGER_HOURS_SAT = 0;
    Meets .minuteCount (fun s => runs s ∧ s.ledger.fine = 959 ∧ s.ledger.steps = 6143)) ∧
  (Meets .minuteCount (fun s => s.frozen = true ∨ s.boot.plinth = false ∨ s.boot.pwrgood = false)) ∧
  (∃ path,
  let may (s : State) : Prop := s.Writable path Reg.ATTEST_GO 0 0;
    Meets (.attestGo path) (fun s => may s ∧ s.df Reg.ATTEST_BUSY ≠ 1)) ∧
  (∃ path,
  let may (s : State) : Prop := s.Writable path Reg.ATTEST_GO 0 0;
    Meets (.attestGo path) (fun s => may s ∧ s.df Reg.ATTEST_BUSY = 1)) ∧
  (Meets (.attestGo .other) (fun s => s.frozen = false)) ∧
  (∃ path, Meets (.markLock path) (fun s => s.Writable path Reg.MARK_LOCK 0 0 ∧ s.df Reg.MARK_LOCKED ≠ 1)) ∧
  (∃ path, Meets (.markLock path) (fun s => s.Writable path Reg.MARK_LOCK 0 0 ∧ s.df Reg.MARK_LOCKED = 1)) ∧
  (Meets (.markLock .other) (fun s => s.frozen = false)) ∧
  (∃ (q : Attest), Meets .attestReportDone (fun s => s.frozen = false ∧ s.attest = some q ∧ s.df Reg.MARK_PUF_OK ≠ 0 ∧ s.df Reg.MARK_VERIFIED ≠ 0 ∧
        s.df Reg.ATTEST_REPORT_SEQ + 1 < 2 ^ 32 ∧ q.nonce.length = 32)) ∧
  (∃ (q : Attest), Meets .attestReportDone (fun s => s.frozen = false ∧ s.attest = some q ∧ (s.df Reg.MARK_PUF_OK = 0 ∨ s.df Reg.MARK_VERIFIED = 0))) ∧
  (Meets .attestReportDone (fun s => s.frozen = true ∨ s.attest = none)) := by
  refine ⟨⟨({ code := 1536, unit := 3, data := [1, 2, 3, 4, 5], time := 77, sev := 3, stop := true }), shown (states.getD 12 State.reset) ?_ ?_⟩,
    ⟨({ code := 256, unit := 65535, data := [9], time := 77, sev := 0, stop := false }), shown (states.getD 4 State.reset) ?_ ?_⟩,
    ⟨({ code := 256, unit := 65535, data := [9], time := 77, sev := 0, stop := false }), shown (states.getD 8 State.reset) ?_ ?_⟩,
    ⟨({ code := 1536, unit := 3, data := [1, 2, 3, 4, 5], time := 77, sev := 3, stop := true }), shown (states.getD 10 State.reset) ?_ ?_⟩,
    shown (states.getD 0 State.reset) ?_ ?_,
    shown (states.getD 2 State.reset) ?_ ?_,
    shown (states.getD 13 State.reset) ?_ ?_,
    shown (states.getD 0 State.reset) ?_ ?_,
    shown (states.getD 0 State.reset) ?_ ?_,
    shown (states.getD 0 State.reset) ?_ ?_,
    shown (states.getD 16 State.reset) ?_ ?_,
    shown (states.getD 19 State.reset) ?_ ?_,
    shown (states.getD 1 State.reset) ?_ ?_,
    ⟨(Sys2Proof.Path.sideband), shown (states.getD 0 State.reset) ?_ ?_⟩,
    ⟨(Sys2Proof.Path.sideband), shown (states.getD 21 State.reset) ?_ ?_⟩,
    shown (states.getD 0 State.reset) ?_ ?_,
    ⟨(Sys2Proof.Path.sideband), shown (states.getD 0 State.reset) ?_ ?_⟩,
    ⟨(Sys2Proof.Path.sideband), shown (states.getD 20 State.reset) ?_ ?_⟩,
    shown (states.getD 0 State.reset) ?_ ?_,
    ⟨({ nonce := [0x07#8,             0x08#8,             0x09#8,             0x0a#8,             0x0b#8,             0x0c#8,             0x0d#8,             0x0e#8,             0x0f#8,             0x10#8,             0x11#8,             0x12#8,             0x13#8,             0x14#8,             0x15#8,             0x16#8,             0x17#8,             0x18#8,             0x19#8,             0x1a#8,             0x1b#8,             0x1c#8,             0x1d#8,             0x1e#8,             0x1f#8,             0x20#8,             0x21#8,             0x22#8,             0x23#8,             0x24#8,             0x25#8,             0x26#8],   config := [0x07#8,              0x08#8,              0x09#8,              0x0a#8,              0x0b#8,              0x0c#8,              0x0d#8,              0x0e#8,              0x0f#8,              0x10#8,              0x11#8,              0x12#8,              0x13#8,              0x14#8,              0x15#8,              0x16#8,              0x17#8,              0x18#8,              0x19#8,              0x1a#8,              0x1b#8,              0x1c#8,              0x1d#8,              0x1e#8,              0x1f#8,              0x20#8,              0x21#8,              0x22#8,              0x23#8,              0x24#8,              0x25#8,              0x26#8,              0x07#8,              0x08#8,              0x09#8,              0x0a#8,              0x0b#8,              0x0c#8,              0x0d#8,              0x0e#8,              0x0f#8,              0x10#8,              0x11#8,              0x12#8,              0x13#8,              0x14#8,              0x15#8,              0x16#8,              0x17#8,              0x18#8,              0x19#8,              0x1a#8,              0x1b#8,              0x1c#8,              0x1d#8,              0x1e#8,              0x1f#8,              0x20#8,              0x21#8,              0x22#8,              0x23#8,              0x24#8,              0x25#8,              0x26#8],   time := 44 }), shown (states.getD 22 State.reset) ?_ ?_⟩,
    ⟨({ nonce := [0x07#8,             0x08#8,             0x09#8,             0x0a#8,             0x0b#8,             0x0c#8,             0x0d#8,             0x0e#8,             0x0f#8,             0x10#8,             0x11#8,             0x12#8,             0x13#8,             0x14#8,             0x15#8,             0x16#8,             0x17#8,             0x18#8,             0x19#8,             0x1a#8,             0x1b#8,             0x1c#8,             0x1d#8,             0x1e#8,             0x1f#8,             0x20#8,             0x21#8,             0x22#8,             0x23#8,             0x24#8,             0x25#8,             0x26#8],   config := [0x07#8,              0x08#8,              0x09#8,              0x0a#8,              0x0b#8,              0x0c#8,              0x0d#8,              0x0e#8,              0x0f#8,              0x10#8,              0x11#8,              0x12#8,              0x13#8,              0x14#8,              0x15#8,              0x16#8,              0x17#8,              0x18#8,              0x19#8,              0x1a#8,              0x1b#8,              0x1c#8,              0x1d#8,              0x1e#8,              0x1f#8,              0x20#8,              0x21#8,              0x22#8,              0x23#8,              0x24#8,              0x25#8,              0x26#8,              0x07#8,              0x08#8,              0x09#8,              0x0a#8,              0x0b#8,              0x0c#8,              0x0d#8,              0x0e#8,              0x0f#8,              0x10#8,              0x11#8,              0x12#8,              0x13#8,              0x14#8,              0x15#8,              0x16#8,              0x17#8,              0x18#8,              0x19#8,              0x1a#8,              0x1b#8,              0x1c#8,              0x1d#8,              0x1e#8,              0x1f#8,              0x20#8,              0x21#8,              0x22#8,              0x23#8,              0x24#8,              0x25#8,              0x26#8],   time := 44 }), shown (states.getD 23 State.reset) ?_ ?_⟩,
    shown (states.getD 0 State.reset) ?_ ?_⟩
  all_goals repeat' first | decide +kernel | (with_reducible first | refine State.wordFits_of ?_ | refine sidecars_of ?_ | refine apart_of ?_ ?_ ?_ | refine notWaiting_of ?_ | refine reaches_of ?_ | refine plainWord_of ?_ | refine forall_covers ?_ | refine placed_bed ?_ | refine placed_sync ?_ | refine placed_tie ?_ | refine State.branchable_of ?_ | refine ok_of ?_ | refine Sparse.sorted_of_sortedB _ ?_ | exact List.mem_cons_self | unfold vectorOk | refine error_of ?_ | refine ⟨1, 3, by decide +kernel, ?_⟩) | (intro h; exact absurd h (by decide +kernel)) | (intro q h4 h8; revert h4; revert h8; revert q; decide +kernel) | (refine Or.inl (by decide +kernel)) | (refine Or.inr (by decide +kernel)) | apply And.intro | (refine Exists.intro _ ?_) | (with_reducible constructor) | rfl | intro _
end LedgerAndIdentity

/-! DebugAccess -/
namespace DebugAccess
def dbg (s : State) (f : Debug → Debug) : State := { s with dbg := f s.dbg }
def locked (s : State) : State := setDs s [(Reg.MARK_LOCKED, 1)]
def TR : TraceRec := ⟨5, 3, 300, 77, 88, 99, 2 ^ 31 + 5⟩
def TR2 : TraceRec := ⟨6, 3, 30, 77, 88, 99, 5⟩
def trc (s : State) : State := dbg (setDs s [(Reg.DEBUG_EN, 1), (Reg.DEBUG_READY, 1), (Reg.DEBUG_MODE, 1), (Reg.DEBUG_BASE, 4096), (Reg.DEBUG_SIZE_LOG, 4)]) fun d => { d with trace := [(1, ⟨18, [TR, TR2], 3⟩), (2, ⟨2 ^ 32 - 1, [TR], 0⟩)] }
def lit (s : State) : State := { s with mem := [(4096, 3#8), (5000, 4#8), (5120, 8#8), (6143, 1#8), (6144, 1#8)], marks := [(5120, 1), (8000, 2)] }
def jt (s : State) : State := dbg s fun d => { d with tap := 0x10 }
def base : List State := [up, fr up, locked up, jt up, trc up, lit (trc up)]
def states : List State := base ++
 [locked (setDs up [(Reg.DEBUG_MODE, 1), (Reg.DEBUG_EN, 1), (Reg.DEBUG_READY, 1)]), setDs up [(Reg.DEBUG_MODE, 1)], setDs up [(Reg.DEBUG_MODE, 1), (Reg.DEBUG_EN, 1), (Reg.DEBUG_READY, 1)],
  setDs up [(Reg.DEBUG_MODE, 1), (Reg.DEBUG_EN, 1)],
  inTask up [0, 1], dbg up (fun d => { d with drives := [3, 1], owed := 2 }), fr (dbg up fun d => { d with drives := [2] }), fr (dbg up fun d => { d with source := 2, releaser := 3 }),
  fr (dbg { up with boot := { up.boot with compHeld := true } } fun d => { d with source := 2, releaser := 3 }),
  fr (dbg (inTask up [0, 1]) fun d => { d with source := 2, releaser := 3, latched := true }), fr (dbg (setDs up [(Reg.POWER_STOPPED, 1)]) fun d => { d with source := 2, releaser := 3, latched := true }),
  lit (setR (setDs up [(Reg.DEBUG_EN, 1), (Reg.DEBUG_BASE, 4096), (Reg.DEBUG_MODE, 1), (Reg.DEBUG_SIZE_LOG, 4)]) [(Reg.DEBUG_TRACE_MASK, 0, 0, 3)]),
  setDs (lit (trc up)) [(Reg.DEBUG_STOP, 1)], fr (jt up), fr (jt (locked up)), fr (lit (jt (inTask up [0]))), setDs (jt up) [(Reg.DIR_DOM_ON_HI, 0)], dbg (jt up) (fun d => { d with drives := [3] }) ]
theorem witness :
  (∃ path,
  let may (s : State) : Prop := s.Writable path Reg.DEBUG_FREEZE 0 0;
    Meets (.debugFreeze path) (fun s => may s ∧ s.debugAllowed = true)) ∧
  (∃ path,
  let may (s : State) : Prop := s.Writable path Reg.DEBUG_FREEZE 0 0;
    Meets (.debugFreeze path) (fun s => may s ∧ s.debugAllowed = false)) ∧
  (Meets (.debugFreeze .other) (fun s => s.frozen = false)) ∧
  (∃ path,
  let may (s : State) : Prop := s.Writable path Reg.DEBUG_FREEZE 0 0;
    ∃ v, Meets (.debugMode path v) (fun s => may s ∧ s.debugAllowed = true ∧ s.df Reg.DEBUG_MODE ≠ b2n v)) ∧
  (∃ path,
  let may (s : State) : Prop := s.Writable path Reg.DEBUG_FREEZE 0 0;
    ∃ v, Meets (.debugMode path v) (fun s => may s ∧ s.debugAllowed = true ∧ s.df Reg.DEBUG_MODE = b2n v)) ∧
  (∃ path,
  let may (s : State) : Prop := s.Writable path Reg.DEBUG_FREEZE 0 0;
    ∃ v, Meets (.debugMode path v) (fun s => may s ∧ s.debugAllowed = false)) ∧
  (∃ path, ∃ v, (v < 2 ^ 33) ∧ (fld v 5 2 < 12) ∧ (3 < fld v 5 2) ∧
  let fits := traceFits (fld v 5 2) (fld v 32 6) = true;
  let go (s : State) : Prop := path ≠ .other ∧ s.frozen = false ∧ s.df Reg.DEBUG_READY = 0;
    Meets (.traceEnable path v) (fun s => go s ∧ fits ∧ s.taskRuns = false ∧ s.df Reg.DEBUG_MODE = 1)) ∧
  (∃ path, ∃ v, (v < 2 ^ 33) ∧ (fld v 5 2 < 12) ∧ (3 < fld v 5 2) ∧
  let fits := traceFits (fld v 5 2) (fld v 32 6) = true;
  let go (s : State) : Prop := path ≠ .other ∧ s.frozen = false ∧ s.df Reg.DEBUG_READY = 0;
    Meets (.traceEnable path v) (fun s => go s ∧ (¬ fits ∨ s.taskRuns = true))) ∧
  (∃ path, ∃ v, (v < 2 ^ 33) ∧ (fld v 5 2 < 12) ∧ (3 < fld v 5 2) ∧
  let fits := traceFits (fld v 5 2) (fld v 32 6) = true;
  let go (s : State) : Prop := path ≠ .other ∧ s.frozen = false ∧ s.df Reg.DEBUG_READY = 0;
    Meets (.traceEnable path v) (fun s => go s ∧ fits ∧ s.taskRuns = false ∧ s.df Reg.DEBUG_MODE = 0 ∧ s.df Reg.DEBUG_EN = 0)) ∧
  (Meets .freezeNLow (fun s => s.frozen = false ∧ s.boot.plinth = true ∧ s.tickCycle + 2 < s.inForce Reg.CTRL_PERIOD ∧ s.tickCycle + 2 < 2 ^ 24 ∧ s.now < 2 ^ 64)) ∧
  (Meets .freezeNLow (fun s => s.frozen = true ∨ s.boot.plinth = false)) ∧
  (∃ refs,
  let may (s : State) : Prop := s.frozen = true ∧ s.dbg.drives = [] ∧ s.dbg.source < 4;
    Meets (.freezeNHigh refs) (fun s => may s ∧ s.dbg.latched = false ∧ (s.boot.compHeld = false ∨ s.df Reg.BOOT_PHASE ≠ 7))) ∧
  (∃ refs,
  let may (s : State) : Prop := s.frozen = true ∧ s.dbg.drives = [] ∧ s.dbg.source < 4;
    Meets (.freezeNHigh refs) (fun s => may s ∧ s.dbg.latched = false ∧ s.boot.compHeld = true ∧ s.df Reg.BOOT_PHASE = 7)) ∧
  (∃ refs,
  let may (s : State) : Prop := s.frozen = true ∧ s.dbg.drives = [] ∧ s.dbg.source < 4;
    Meets (.freezeNHigh refs) (fun s => may s ∧ s.dbg.latched = true ∧ (s.boot.compHeld = false ∨ s.df Reg.BOOT_PHASE ≠ 7))) ∧
  (∃ refs, Meets (.freezeNHigh refs) (fun s => s.frozen = false ∨ s.dbg.drives ≠ [])) ∧
  (Meets .traceReady (fun s => s.clocksRun = true ∧ s.df Reg.DEBUG_EN ≠ 0 ∧ s.df Reg.DEBUG_READY ≠ 1)) ∧
  (Meets .traceReady (fun s => s.clocksRun = true ∧ (s.df Reg.DEBUG_EN = 0 ∨ s.df Reg.DEBUG_READY = 1))) ∧
  (∃ c, ∃ (r : TraceRec), ∃ (l : List TraceRec),
  let core (s : State) : TraceCore := Sparse.get ⟨0, [], 0⟩ s.dbg.trace c;
  let ready (s : State) : Prop := s.clocksRun = true ∧ s.df Reg.DEBUG_READY = 1 ∧ (core s).fifo = r :: l;
  let full (s : State) : Prop := s.df Reg.DEBUG_STOP = 1 ∧ 2 ^ s.df Reg.DEBUG_SIZE_LOG ≤ (core s).seq;
    Meets (.traceRecord c) (fun s => ready s ∧ ¬ full s)) ∧
  (∃ c, ∃ (r : TraceRec), ∃ (l : List TraceRec),
  let core (s : State) : TraceCore := Sparse.get ⟨0, [], 0⟩ s.dbg.trace c;
  let ready (s : State) : Prop := s.clocksRun = true ∧ s.df Reg.DEBUG_READY = 1 ∧ (core s).fifo = r :: l;
  let full (s : State) : Prop := s.df Reg.DEBUG_STOP = 1 ∧ 2 ^ s.df Reg.DEBUG_SIZE_LOG ≤ (core s).seq;
    Meets (.traceRecord c) (fun s => ready s ∧ full s)) ∧
  (
  let takes (i : Instr) (code : Nat) (out : List Nat) : Prop := (Meets i (fun _ => True));
    takes .idcode 0x01 [0x110245C7]) ∧
  (
  let takes (i : Instr) (code : Nat) (out : List Nat) : Prop := (Meets i (fun _ => True));
    takes .tapReset 0x01 []) ∧
  (
  let takes (i : Instr) (code : Nat) (out : List Nat) : Prop := (Meets i (fun _ => True));
    takes .ijtag 0x10 []) ∧
  (
  let takes (i : Instr) (code : Nat) (out : List Nat) : Prop := (Meets i (fun _ => True));
    ∃ code, (code < 256) ∧ (code ≠ 0x01) ∧ (code ≠ 0x10) ∧ takes (.bypass code) code [0]) ∧
  (
  let reached (s : State) : Prop := s.dbg.tap = 0x10 ∧ s.domainOn 78 = true;
  let shifts (i : Instr) (P : State → Prop) (out : State → List Nat) : Prop := (Meets i (fun s => reached s ∧ P s ∧ s.frozen = true ∧ s.debugAllowed = true)) ∧ (Meets i (fun s => reached s ∧ P s ∧ s.frozen = true ∧ s.debugAllowed = false)) ∧ (Meets i (fun s => reached s ∧ P s ∧ s.frozen = false)) ∧ (Meets i (fun s => ¬ reached s));
    ∃ c, shifts (.corescan c) (fun _ => True) fun s => Config.coreScan (s.coreFlops c)) ∧
  (
  let reached (s : State) : Prop := s.dbg.tap = 0x10 ∧ s.domainOn 78 = true;
  let shifts (i : Instr) (P : State → Prop) (out : State → List Nat) : Prop := (Meets i (fun s => reached s ∧ P s ∧ s.frozen = true ∧ s.debugAllowed = true)) ∧ (Meets i (fun s => reached s ∧ P s ∧ s.frozen = true ∧ s.debugAllowed = false)) ∧ (Meets i (fun s => reached s ∧ P s ∧ s.frozen = false)) ∧ (Meets i (fun s => ¬ reached s));
    ∃ a, (a % 8 = 0) ∧ (inMemory a = true) ∧ shifts (.memrd a) (fun s => s.markAt a = 0) fun s => [ofBytes (s.bytesAt a 8), (Config.checkBits a 0 (ofBytes (s.bytesAt a 8))).toNat, 0]) ∧
  (
  let reached (s : State) : Prop := s.dbg.tap = 0x10 ∧ s.domainOn 78 = true;
  let shifts (i : Instr) (P : State → Prop) (out : State → List Nat) : Prop := (Meets i (fun s => reached s ∧ P s ∧ s.frozen = true ∧ s.debugAllowed = true)) ∧ (Meets i (fun s => reached s ∧ P s ∧ s.frozen = true ∧ s.debugAllowed = false)) ∧ (Meets i (fun s => reached s ∧ P s ∧ s.frozen = false)) ∧ (Meets i (fun s => ¬ reached s));
    ∃ a, ∃ q, (a % 8 = 0) ∧ (placeOf a = .page q) ∧ shifts (.memrd a) (fun _ => True) fun s => [s.pageWord q]) ∧
  (
  let reached (s : State) : Prop := s.dbg.tap = 0x10 ∧ s.domainOn 78 = true;
    Meets (.freezeCtl true) reached) ∧
  (
  let reached (s : State) : Prop := s.dbg.tap = 0x10 ∧ s.domainOn 78 = true;
    Meets (.freezeCtl false) reached) ∧
  (
  let reached (s : State) : Prop := s.dbg.tap = 0x10 ∧ s.domainOn 78 = true;
    ∃ on, Meets (.freezeCtl on) (fun s => ¬ reached s)) := by
  refine ⟨⟨(Sys2Proof.Path.sideband), shown (states.getD 0 State.reset) ?_ ?_⟩,
    ⟨(Sys2Proof.Path.sideband), shown (states.getD 2 State.reset) ?_ ?_⟩,
    shown (states.getD 0 State.reset) ?_ ?_,
    ⟨(Sys2Proof.Path.sideband), (false), shown (states.getD 4 State.reset) ?_ ?_⟩,
    ⟨(Sys2Proof.Path.sideband), (false), shown (states.getD 0 State.reset) ?_ ?_⟩,
    ⟨(Sys2Proof.Path.sideband), (false), shown (states.getD 2 State.reset) ?_ ?_⟩,
    ⟨(Sys2Proof.Path.sideband), 25, ?_, ?_, ?_, shown (states.getD 7 State.reset) ?_ ?_⟩,
    ⟨(Sys2Proof.Path.sideband), 25, ?_, ?_, ?_, shown (states.getD 10 State.reset) ?_ ?_⟩,
    ⟨(Sys2Proof.Path.sideband), 25, ?_, ?_, ?_, shown (states.getD 0 State.reset) ?_ ?_⟩,
    shown (states.getD 0 State.reset) ?_ ?_,
    shown (states.getD 1 State.reset) ?_ ?_,
    ⟨(0), shown (states.getD 1 State.reset) ?_ ?_⟩,
    ⟨(0), shown (states.getD 14 State.reset) ?_ ?_⟩,
    ⟨(0), shown (states.getD 15 State.reset) ?_ ?_⟩,
    ⟨(0), shown (states.getD 0 State.reset) ?_ ?_⟩,
    shown (states.getD 9 State.reset) ?_ ?_,
    shown (states.getD 0 State.reset) ?_ ?_,
    ⟨(1), ({ time := 5, kind := 3, index := 300, value := 77, aux := 88, issued := 99, peer := 2147483653 }), ([{ time := 6, kind := 3, index := 30, value := 77, aux := 88, issued := 99, peer := 5 }]), shown (states.getD 4 State.reset) ?_ ?_⟩,
    ⟨(1), ({ time := 5, kind := 3, index := 300, value := 77, aux := 88, issued := 99, peer := 2147483653 }), ([{ time := 6, kind := 3, index := 30, value := 77, aux := 88, issued := 99, peer := 5 }]), shown (states.getD 18 State.reset) ?_ ?_⟩,
    shown (states.getD 0 State.reset) ?_ ?_,
    shown (states.getD 0 State.reset) ?_ ?_,
    shown (states.getD 0 State.reset) ?_ ?_,
    ⟨0, ?_, ?_, ?_, shown (states.getD 0 State.reset) ?_ ?_⟩,
    ⟨(0), ⟨shown (states.getD 19 State.reset) ?_ ?_, shown (states.getD 20 State.reset) ?_ ?_, shown (states.getD 3 State.reset) ?_ ?_, shown (states.getD 0 State.reset) ?_ ?_⟩⟩,
    ⟨(0), ?_, ?_, ⟨shown (states.getD 19 State.reset) ?_ ?_, shown (states.getD 20 State.reset) ?_ ?_, shown (states.getD 3 State.reset) ?_ ?_, shown (states.getD 0 State.reset) ?_ ?_⟩⟩,
    ⟨(2199023292480), (Sys2Proof.Machine.PageAt.die 9 64), ?_, ?_, ⟨shown (states.getD 19 State.reset) ?_ ?_, shown (states.getD 20 State.reset) ?_ ?_, shown (states.getD 3 State.reset) ?_ ?_, shown (states.getD 0 State.reset) ?_ ?_⟩⟩,
    shown (states.getD 3 State.reset) ?_ ?_,
    shown (states.getD 3 State.reset) ?_ ?_,
    ⟨(false), shown (states.getD 0 State.reset) ?_ ?_⟩⟩
  all_goals repeat' first | decide +kernel | (with_reducible first | refine State.wordFits_of ?_ | refine sidecars_of ?_ | refine apart_of ?_ ?_ ?_ | refine notWaiting_of ?_ | refine reaches_of ?_ | refine plainWord_of ?_ | refine forall_covers ?_ | refine placed_bed ?_ | refine placed_sync ?_ | refine placed_tie ?_ | refine State.branchable_of ?_ | refine ok_of ?_ | refine Sparse.sorted_of_sortedB _ ?_ | exact List.mem_cons_self | unfold vectorOk | refine error_of ?_ | refine ⟨1, 3, by decide +kernel, ?_⟩) | (intro h; exact absurd h (by decide +kernel)) | (intro q h4 h8; revert h4; revert h8; revert q; decide +kernel) | (refine Or.inl (by decide +kernel)) | (refine Or.inr (by decide +kernel)) | apply And.intro | (refine Exists.intro _ ?_) | (with_reducible constructor) | rfl | intro _
end DebugAccess

/-! Trowel -/
namespace Trowel
def dbg (s : State) (f : Debug → Debug) : State := { s with dbg := f s.dbg }
def locked (s : State) : State := setDs s [(Reg.MARK_LOCKED, 1)]
def lines : List String := ["peek 0x100 2", "peek 4096", "peek 0x2000000C040 3", "peek 0x20000080000 4", "peek 7", "peek 0x1000000 65", "peek 0x10000900000", "peek 0x30000000000", "peek 1 2 3",
  "poke 0x100 0x1122334455667788", "poke 0x10000000108 9", "poke 0x10000100000 5", "poke 0x100000C0010 77", "poke 0x100001C0018 77","poke 0x20000009078 5", "poke 0x20000004048 3", "poke 0x10000080000 2", "poke 3 4", "poke",
  "floor", "ledger", "ledger 5", "ledger 3 4", "ledger 2 65", "ties 1", "ties 0 4 3", "ties 1 250 7", "ties 1024", "arches", "ports", "power", "freeze", "thaw", "dump 0x1000", "dump 5", "set-tie 1 4 0x99", "set-tie 1024 2 3", "bogus"]
def lit (s : State) : State := { s with mem := [(0x100, 3#8), (0x10f, 4#8), (4096, 5#8), (0x10000000108, 1#8), (0x10000100002, 1#8)], marks := [(0x100, 0), (8000, 2)] }
def H (s : State) (h a : Nat) : State := setDs s [(Reg.LEDGER_HEAD_SEQ, h), (Reg.LEDGER_ACK_SEQ, a), (Reg.LEDGER_HOURS, 77), (Reg.LEDGER_MINUTES, 5)]
def states : List State :=
 [up, fr up, locked up, fr (locked up), dbg up (fun d => { d with owed := 1, lines := [[.num 3]] }), H (lit up) 20 3, H (lit up) 3 3, { H (lit up) 9000 3 with ledger := { up.ledger with slots := [(0, 4), (34, 2 ^ 51 + 7), (8*812+2, 3)], bad := [3] } },
  inTask (setDs (lit up) [(Reg.DEBUG_MODE, 1)]) [0, 2], setDs (lit up) [(Reg.ARCH_DUMP_BUSY, 1)], setR up [(Reg.POWER_REASON, 0, 3, 2), (Reg.POWER_LEVEL, 0, 3, 40)], dbg up (fun d => { d with drives := [1, 2] })]
theorem witness :
  let name (l : List Char) : List Nat := l.map Char.toNat
  let commands (l : Line) : List (Instr × List Char × Nat × Nat × Bool) :=
    [(.trowelPeek l, ['p', 'e', 'e', 'k'], 1, 2, false), (.trowelPoke l, ['p', 'o', 'k', 'e'], 2, 2, false),
     (.trowelFloor l, ['f', 'l', 'o', 'o', 'r'], 0, 0, false), (.trowelLedger l, ['l', 'e', 'd', 'g', 'e', 'r'], 0, 2, false),
     (.trowelTies l, ['t', 'i', 'e', 's'], 1, 3, false), (.trowelArches l, ['a', 'r', 'c', 'h', 'e', 's'], 0, 0, false),
     (.trowelPorts l, ['p', 'o', 'r', 't', 's'], 0, 0, false), (.trowelPower l, ['p', 'o', 'w', 'e', 'r'], 0, 0, false),
     (.trowelFreeze l, ['f', 'r', 'e', 'e', 'z', 'e'], 0, 0, true), (.trowelThaw true l, ['t', 'h', 'a', 'w'], 0, 0, true),
     (.trowelThaw false l, ['t', 'h', 'a', 'w'], 0, 0, true), (.trowelDump l, ['d', 'u', 'm', 'p'], 1, 1, false),
     (.trowelSetTie l, ['s', 'e', 't', '-', 't', 'i', 'e'], 3, 3, false)]
  let ready (s : State) : Prop := s.df Reg.BOOT_PHASE ≠ 0 ∧ s.dbg.owed = 0
  let runs (s : State) : Prop := ready s ∧ s.frozen = false
  let whole (l : Line) : Prop := l.past = false ∧ l.text.length ≤ 128
  let num (l : List Nat) : List Tok := l.map Tok.num
  (∃ (l : Line), ∃ x ∈ commands l, Meets x.1 (fun s => ready s ∧ l.past = true)) ∧
  (∃ (l : Line), ∃ x ∈ commands l, Meets x.1 (fun s => ready s ∧ l.past = false ∧ 128 < l.text.length)) ∧
  (∃ (l : Line), ∃ x ∈ commands l,
  let args := lineArgs (name x.2.1) x.2.2.1 x.2.2.2.1 l.text;
    Meets x.1 (fun s => ready s ∧ whole l ∧ args = none)) ∧
  (∃ (l : Line), ∃ x ∈ commands l,
  let args := lineArgs (name x.2.1) x.2.2.1 x.2.2.2.1 l.text;
    Meets x.1 (fun s => ready s ∧ whole l ∧ args ≠ none ∧ s.frozen = true ∧ x.2.2.2.2 = false)) ∧
  (∃ (l : Line), ∃ x ∈ commands l, Meets x.1 (fun s => s.df Reg.BOOT_PHASE = 0 ∨ s.dbg.owed ≠ 0)) ∧
  (∃ (l : Line), ∃ (v : List Nat), (whole l) ∧
  let told (w : List Char) (lo hi : Nat) : Prop := lineArgs (name w) lo hi l.text = some v;
  let reads (i : Instr) (lines : State → List (List Tok)) : Prop := (Meets i runs);
    (told ['f', 'l', 'o', 'o', 'r'] 0 0) ∧ reads (.trowelFloor l) fun s =>
      num [s.df Reg.FLOOR_GEN, s.df Reg.FLOOR_SOURCE, s.df Reg.FLOOR_FULL_COUNT, s.df Reg.FLOOR_NARROW_COUNT, s.df Reg.FLOOR_DEAD_COUNT,
        s.df Reg.FLOOR_FUSED_FULL] ::
      ((List.range 1024).filter fun c => decide (s.floorState c ≠ 2)).map fun c =>
        num [c, s.floorState c, s.arrays c, s.rd Reg.FLOOR_CAUSE (c / 512) (c % 512)]) ∧
  (∃ (l : Line), ∃ (v : List Nat), (whole l) ∧
  let told (w : List Char) (lo hi : Nat) : Prop := lineArgs (name w) lo hi l.text = some v;
  let reads (i : Instr) (lines : State → List (List Tok)) : Prop := (Meets i runs);
    (told ['a', 'r', 'c', 'h', 'e', 's'] 0 0) ∧ reads (.trowelArches l) fun s =>
      (List.range 8).map fun a => num ([Reg.ARCH_CROSS, Reg.ARCH_DIES, Reg.ARCH_OPEN, Reg.ARCH_ARRIVED_COUNT, Reg.ARCH_CLOSURES].foldl
        (fun x r => x ++ [s.rd r 0 a]) [a])) ∧
  (∃ (l : Line), ∃ (v : List Nat), (whole l) ∧
  let told (w : List Char) (lo hi : Nat) : Prop := lineArgs (name w) lo hi l.text = some v;
  let reads (i : Instr) (lines : State → List (List Tok)) : Prop := (Meets i runs);
    (told ['p', 'o', 'r', 't', 's'] 0 0) ∧ reads (.trowelPorts l) fun s =>
      ((List.range 8).map fun p => num ([p] ++ ([Reg.LINK_STATE, Reg.LINK_TX_WIDTH, Reg.LINK_RX_WIDTH, Reg.LINK_DOWN_CAUSE].map fun r => s.rd r p 0) ++
        [s.role p, s.peerOf p])) ++ [num [s.df Reg.RING_LINKS, s.df Reg.RING_CURRENT]]) ∧
  (∃ (l : Line), ∃ (v : List Nat), (whole l) ∧
  let told (w : List Char) (lo hi : Nat) : Prop := lineArgs (name w) lo hi l.text = some v;
  let reads (i : Instr) (lines : State → List (List Tok)) : Prop := (Meets i runs);
    (told ['p', 'o', 'w', 'e', 'r'] 0 0) ∧ reads (.trowelPower l) fun s =>
      num ([Reg.POWER_SETPOINT, Reg.POWER_TARGET_NOW, Reg.POWER_EST_MW, Reg.POWER_MEAS_MW, Reg.POWER_Q_DIE, Reg.POWER_TJ_MAX].map s.df) ::
      ((List.range 64).filter fun g => decide (s.rd Reg.POWER_REASON 0 g ≠ 0)).map fun g =>
        num [g, s.rd Reg.POWER_LEVEL 0 g, s.rd Reg.POWER_REASON 0 g]) ∧
  (∃ (l : Line), ∃ (v : List Nat), (whole l) ∧
  let told (w : List Char) (lo hi : Nat) : Prop := lineArgs (name w) lo hi l.text = some v;
  let at0 := v.getD 0 0;
    (told ['t', 'i', 'e', 's'] 1 3) ∧
  let t0 := v.getD 1 0;
  let n := v.getD 2 (256 - t0);
    Meets (.trowelTies l) (fun s => runs s ∧ at0 < 1024 ∧ t0 < 256 ∧ t0 + n ≤ 256 ∧ s.accessStatus (windowBase at0) 8 = 0)) ∧
  (∃ (l : Line), ∃ (v : List Nat), (whole l) ∧
  let told (w : List Char) (lo hi : Nat) : Prop := lineArgs (name w) lo hi l.text = some v;
  let at0 := v.getD 0 0;
    (told ['t', 'i', 'e', 's'] 1 3) ∧
  let t0 := v.getD 1 0;
  let n := v.getD 2 (256 - t0);
    Meets (.trowelTies l) (fun s => runs s ∧ (1024 ≤ at0 ∨ 256 ≤ t0 ∨ 256 < t0 + n))) ∧
  (∃ (l : Line), ∃ (v : List Nat), (whole l) ∧
  let told (w : List Char) (lo hi : Nat) : Prop := lineArgs (name w) lo hi l.text = some v;
    (told ['l', 'e', 'd', 'g', 'e', 'r'] 0 2) ∧
  let n := v.getD 1 16;
    Meets (.trowelLedger l) (fun s => runs s ∧ n ≤ 64 ∧ s.ledger.bad = [])) ∧
  (∃ (l : Line), ∃ (v : List Nat), (whole l) ∧
  let told (w : List Char) (lo hi : Nat) : Prop := lineArgs (name w) lo hi l.text = some v;
    (told ['l', 'e', 'd', 'g', 'e', 'r'] 0 2) ∧
  let n := v.getD 1 16;
    Meets (.trowelLedger l) (fun s => runs s ∧ 64 < n)) ∧
  (∃ (l : Line), ∃ (v : List Nat), (whole l) ∧
  let told (w : List Char) (lo hi : Nat) : Prop := lineArgs (name w) lo hi l.text = some v;
  let at0 := v.getD 0 0;
    (told ['p', 'e', 'e', 'k'] 1 2) ∧
  let n := v.getD 1 1;
  let fit := at0 % 8 = 0 ∧ 1 ≤ n ∧ n ≤ 64;
    Meets (.trowelPeek l) (fun s => runs s ∧ fit ∧ s.accessStatus at0 (8 * n) = 0 ∧ ∀ i < n, s.markAt (at0 + 8 * i) = 0)) ∧
  (∃ (l : Line), ∃ (v : List Nat), (whole l) ∧
  let told (w : List Char) (lo hi : Nat) : Prop := lineArgs (name w) lo hi l.text = some v;
  let at0 := v.getD 0 0;
    (told ['p', 'e', 'e', 'k'] 1 2) ∧
  let n := v.getD 1 1;
  let fit := at0 % 8 = 0 ∧ 1 ≤ n ∧ n ≤ 64;
    Meets (.trowelPeek l) (fun s => runs s ∧ ¬ fit)) ∧
  (∃ (l : Line), ∃ (v : List Nat), (whole l) ∧
  let told (w : List Char) (lo hi : Nat) : Prop := lineArgs (name w) lo hi l.text = some v;
  let at0 := v.getD 0 0;
    (told ['p', 'e', 'e', 'k'] 1 2) ∧
  let n := v.getD 1 1;
  let fit := at0 % 8 = 0 ∧ 1 ≤ n ∧ n ≤ 64;
    Meets (.trowelPeek l) (fun s => runs s ∧ fit ∧ s.accessStatus at0 (8 * n) ≠ 0)) ∧
  (∃ (l : Line), ∃ (v : List Nat), (whole l) ∧
  let told (w : List Char) (lo hi : Nat) : Prop := lineArgs (name w) lo hi l.text = some v;
    (told ['p', 'o', 'k', 'e'] 2 2) ∧ Meets (.trowelPoke l) (fun s => runs s ∧ s.debugAllowed = false)) ∧
  (∃ (l : Line), ∃ (v : List Nat), (whole l) ∧
  let told (w : List Char) (lo hi : Nat) : Prop := lineArgs (name w) lo hi l.text = some v;
  let at0 := v.getD 0 0;
    (told ['p', 'o', 'k', 'e'] 2 2) ∧ Meets (.trowelPoke l) (fun s => runs s ∧ s.debugAllowed = true ∧ at0 % 8 ≠ 0)) ∧
  (∃ (l : Line), ∃ (v : List Nat), (whole l) ∧
  let told (w : List Char) (lo hi : Nat) : Prop := lineArgs (name w) lo hi l.text = some v;
  let at0 := v.getD 0 0;
    (told ['p', 'o', 'k', 'e'] 2 2) ∧
  let may (s : State) : Prop := runs s ∧ s.debugAllowed = true ∧ at0 % 8 = 0 ∧ s.accessStatus at0 8 = 0;
    Meets (.trowelPoke l) (fun s => may s ∧ (placeOf at0 = .yard ∨ ∃ c o, placeOf at0 = .bed c o ∧ s.running c = false))) ∧
  (∃ (l : Line), ∃ (v : List Nat), (whole l) ∧
  let told (w : List Char) (lo hi : Nat) : Prop := lineArgs (name w) lo hi l.text = some v;
  let at0 := v.getD 0 0;
    (told ['p', 'o', 'k', 'e'] 2 2) ∧
  let may (s : State) : Prop := runs s ∧ s.debugAllowed = true ∧ at0 % 8 = 0 ∧ s.accessStatus at0 8 = 0;
    ∃ c, ∃ o, (placeOf at0 = .bed c o) ∧ Meets (.trowelPoke l) (fun s => may s ∧ s.running c = true)) ∧
  (∃ (l : Line), ∃ (v : List Nat), (whole l) ∧
  let told (w : List Char) (lo hi : Nat) : Prop := lineArgs (name w) lo hi l.text = some v;
  let at0 := v.getD 0 0;
    (told ['p', 'o', 'k', 'e'] 2 2) ∧
  let may (s : State) : Prop := runs s ∧ s.debugAllowed = true ∧ at0 % 8 = 0 ∧ s.accessStatus at0 8 = 0;
    ∃ c, ∃ o, (placeOf at0 = .sync c o) ∧ (o < 0x800) ∧ Meets (.trowelPoke l) (fun s => may s ∧ s.running c = false)) ∧
  (∃ (l : Line), ∃ (v : List Nat), (whole l) ∧
  let told (w : List Char) (lo hi : Nat) : Prop := lineArgs (name w) lo hi l.text = some v;
  let at0 := v.getD 0 0;
    (told ['p', 'o', 'k', 'e'] 2 2) ∧
  let may (s : State) : Prop := runs s ∧ s.debugAllowed = true ∧ at0 % 8 = 0 ∧ s.accessStatus at0 8 = 0;
    ∃ c, ∃ o, (placeOf at0 = .sync c o) ∧ (o < 0x800) ∧ Meets (.trowelPoke l) (fun s => may s ∧ s.running c = true)) ∧
  (∃ (l : Line), ∃ (v : List Nat), (whole l) ∧
  let told (w : List Char) (lo hi : Nat) : Prop := lineArgs (name w) lo hi l.text = some v;
  let at0 := v.getD 0 0;
    (told ['p', 'o', 'k', 'e'] 2 2) ∧
  let may (s : State) : Prop := runs s ∧ s.debugAllowed = true ∧ at0 % 8 = 0 ∧ s.accessStatus at0 8 = 0;
    ∃ q, (placeOf at0 = .page q) ∧ Meets (.trowelPoke l) may) ∧
  (∃ (l : Line), ∃ (v : List Nat), (whole l) ∧
  let told (w : List Char) (lo hi : Nat) : Prop := lineArgs (name w) lo hi l.text = some v;
    (told ['s', 'e', 't', '-', 't', 'i', 'e'] 3 3) ∧ Meets (.trowelSetTie l) (fun s => runs s ∧ s.debugAllowed = false)) ∧
  (∃ (l : Line), ∃ (v : List Nat), (whole l) ∧
  let told (w : List Char) (lo hi : Nat) : Prop := lineArgs (name w) lo hi l.text = some v;
  let at0 := v.getD 0 0;
    (told ['s', 'e', 't', '-', 't', 'i', 'e'] 3 3) ∧
  let k := v.getD 1 0;
    Meets (.trowelSetTie l) (fun s => runs s ∧ s.debugAllowed = true ∧ (1024 ≤ at0 ∨ 256 ≤ k))) ∧
  (∃ (l : Line), ∃ (v : List Nat), (whole l) ∧
  let told (w : List Char) (lo hi : Nat) : Prop := lineArgs (name w) lo hi l.text = some v;
  let at0 := v.getD 0 0;
    (told ['s', 'e', 't', '-', 't', 'i', 'e'] 3 3) ∧
  let k := v.getD 1 0;
  let x := v.getD 2 0;
    Meets (.trowelSetTie l) (fun s => runs s ∧ s.debugAllowed = true ∧ at0 < 1024 ∧ k < 256 ∧ x < 2 ^ 64 ∧ s.coreAlive at0 = true ∧ s.clocksRun = true ∧
          ∀ y ∈ s.sync.slots, ¬ (y.req.home = at0 ∧ y.req.tie = k))) ∧
  (∃ (l : Line), ∃ (v : List Nat), (whole l) ∧
  let told (w : List Char) (lo hi : Nat) : Prop := lineArgs (name w) lo hi l.text = some v;
    (told ['d', 'u', 'm', 'p'] 1 1) ∧ Meets (.trowelDump l) (fun s => runs s ∧ s.df Reg.ARCH_DUMP_BUSY = 1)) ∧
  (∃ (l : Line), ∃ (v : List Nat), (whole l) ∧
  let told (w : List Char) (lo hi : Nat) : Prop := lineArgs (name w) lo hi l.text = some v;
  let at0 := v.getD 0 0;
    (told ['d', 'u', 'm', 'p'] 1 1) ∧ Meets (.trowelDump l) (fun s => runs s ∧ s.df Reg.ARCH_DUMP_BUSY = 0 ∧ (at0 % 4096 ≠ 0 ∨ yardSize < at0 + 0x600800))) ∧
  (∃ (l : Line), ∃ (v : List Nat), (whole l) ∧
  let told (w : List Char) (lo hi : Nat) : Prop := lineArgs (name w) lo hi l.text = some v;
  let at0 := v.getD 0 0;
    (told ['d', 'u', 'm', 'p'] 1 1) ∧ Meets (.trowelDump l) (fun s => runs s ∧ s.df Reg.ARCH_DUMP_BUSY = 0 ∧ at0 % 4096 = 0 ∧ at0 + 0x600800 ≤ yardSize)) ∧
  (∃ (l : Line), ∃ (v : List Nat), (whole l) ∧
  let told (w : List Char) (lo hi : Nat) : Prop := lineArgs (name w) lo hi l.text = some v;
    (told ['f', 'r', 'e', 'e', 'z', 'e'] 0 0) ∧ Meets (.trowelFreeze l) (fun s => ready s ∧ s.debugAllowed = false)) ∧
  (∃ (l : Line), ∃ (v : List Nat), (whole l) ∧
  let told (w : List Char) (lo hi : Nat) : Prop := lineArgs (name w) lo hi l.text = some v;
    (told ['f', 'r', 'e', 'e', 'z', 'e'] 0 0) ∧ Meets (.trowelFreeze l) (fun s => runs s ∧ s.debugAllowed = true)) ∧
  (∃ (l : Line), ∃ (v : List Nat), (whole l) ∧
  let told (w : List Char) (lo hi : Nat) : Prop := lineArgs (name w) lo hi l.text = some v;
    (told ['f', 'r', 'e', 'e', 'z', 'e'] 0 0) ∧ Meets (.trowelFreeze l) (fun s => ready s ∧ s.frozen = true ∧ s.debugAllowed = true)) ∧
  (∃ (l : Line), ∃ (v : List Nat), (whole l) ∧
  let told (w : List Char) (lo hi : Nat) : Prop := lineArgs (name w) lo hi l.text = some v;
    (told ['t', 'h', 'a', 'w'] 0 0) ∧ ∃ held, Meets (.trowelThaw held l) runs) ∧
  (∃ (l : Line), ∃ (v : List Nat), (whole l) ∧
  let told (w : List Char) (lo hi : Nat) : Prop := lineArgs (name w) lo hi l.text = some v;
    (told ['t', 'h', 'a', 'w'] 0 0) ∧ ∃ held, Meets (.trowelThaw held l) (fun s => ready s ∧ s.frozen = true)) := by
  refine ⟨⟨({ past := true, text := [] }), ((Sys2Proof.Instr.trowelPeek { past := true, text := [] }, ['p', 'e', 'e', 'k'], 1, 2, false)), ?_, shown (states.getD 0 State.reset) ?_ ?_⟩,
    ⟨({ past := false,   text := [0x41#8,            0x41#8,            0x41#8,            0x41#8,            0x41#8,            0x41#8,            0x41#8,            0x41#8,            0x41#8,            0x41#8,            0x41#8,            0x41#8,            0x41#8,            0x41#8,            0x41#8,            0x41#8,            0x41#8,            0x41#8,            0x41#8,            0x41#8,            0x41#8,            0x41#8,            0x41#8,            0x41#8,            0x41#8,            0x41#8,            0x41#8,            0x41#8,            0x41#8,            0x41#8,            0x41#8,            0x41#8,            0x41#8,            0x41#8,            0x41#8,            0x41#8,            0x41#8,            0x41#8,            0x41#8,            0x41#8,            0x41#8,            0x41#8,            0x41#8,            0x41#8,            0x41#8,            0x41#8,            0x41#8,            0x41#8,            0x41#8,            0x41#8,            0x41#8,            0x41#8,            0x41#8,            0x41#8,            0x41#8,            0x41#8,            0x41#8,            0x41#8,            0x41#8,            0x41#8,            0x41#8,            0x41#8,            0x41#8,            0x41#8,            0x41#8,            0x41#8,            0x41#8,            0x41#8,            0x41#8,            0x41#8,            0x41#8,            0x41#8,            0x41#8,            0x41#8,            0x41#8,            0x41#8,            0x41#8,            0x41#8,            0x41#8,            0x41#8,            0x41#8,            0x41#8,            0x41#8,            0x41#8,            0x41#8,            0x41#8,            0x41#8,            0x41#8,            0x41#8,            0x41#8,            0x41#8,            0x41#8,            0x41#8,            0x41#8,            0x41#8,            0x41#8,            0x41#8,            0x41#8,            0x41#8,            0x41#8,            0x41#8,            0x41#8,            0x41#8,            0x41#8,            0x41#8,            0x41#8,            0x41#8,            0x41#8,            0x41#8,            0x41#8,            0x41#8,            0x41#8,            0x41#8,            0x41#8,            0x41#8,            0x41#8,            0x41#8,            0x41#8,            0x41#8,            0x41#8,            0x41#8,            0x41#8,            0x41#8,            0x41#8,            0x41#8,            0x41#8,            0x41#8,            0x41#8,            0x41#8] }), ((Sys2Proof.Instr.trowelPeek    { past := false,      text := [0x41#8,               0x41#8,               0x41#8,               0x41#8,               0x41#8,               0x41#8,               0x41#8,               0x41#8,               0x41#8,               0x41#8,               0x41#8,               0x41#8,               0x41#8,               0x41#8,               0x41#8,               0x41#8,               0x41#8,               0x41#8,               0x41#8,               0x41#8,               0x41#8,               0x41#8,               0x41#8,               0x41#8,               0x41#8,               0x41#8,               0x41#8,               0x41#8,               0x41#8,               0x41#8,               0x41#8,               0x41#8,               0x41#8,               0x41#8,               0x41#8,               0x41#8,               0x41#8,               0x41#8,               0x41#8,               0x41#8,               0x41#8,               0x41#8,               0x41#8,               0x41#8,               0x41#8,               0x41#8,               0x41#8,               0x41#8,               0x41#8,               0x41#8,               0x41#8,               0x41#8,               0x41#8,               0x41#8,               0x41#8,               0x41#8,               0x41#8,               0x41#8,               0x41#8,               0x41#8,               0x41#8,               0x41#8,               0x41#8,               0x41#8,               0x41#8,               0x41#8,               0x41#8,               0x41#8,               0x41#8,               0x41#8,               0x41#8,               0x41#8,               0x41#8,               0x41#8,               0x41#8,               0x41#8,               0x41#8,               0x41#8,               0x41#8,               0x41#8,               0x41#8,               0x41#8,               0x41#8,               0x41#8,               0x41#8,               0x41#8,               0x41#8,               0x41#8,               0x41#8,               0x41#8,               0x41#8,               0x41#8,               0x41#8,               0x41#8,               0x41#8,               0x41#8,               0x41#8,               0x41#8,               0x41#8,               0x41#8,               0x41#8,               0x41#8,               0x41#8,               0x41#8,               0x41#8,               0x41#8,               0x41#8,               0x41#8,               0x41#8,               0x41#8,               0x41#8,               0x41#8,               0x41#8,               0x41#8,               0x41#8,               0x41#8,               0x41#8,               0x41#8,               0x41#8,               0x41#8,               0x41#8,               0x41#8,               0x41#8,               0x41#8,               0x41#8,               0x41#8,               0x41#8,               0x41#8,               0x41#8] },  ['p', 'e', 'e', 'k'],  1,  2,  false)), ?_, shown (states.getD 0 State.reset) ?_ ?_⟩,
    ⟨({ past := false,   text := [0x70#8, 0x65#8, 0x65#8, 0x6b#8, 0x20#8, 0x30#8, 0x78#8, 0x31#8, 0x30#8, 0x30#8, 0x20#8, 0x32#8] }), ((Sys2Proof.Instr.trowelPoke    { past := false,      text := [0x70#8, 0x65#8, 0x65#8, 0x6b#8, 0x20#8, 0x30#8, 0x78#8, 0x31#8, 0x30#8, 0x30#8, 0x20#8, 0x32#8] },  ['p', 'o', 'k', 'e'],  2,  2,  false)), ?_, shown (states.getD 0 State.reset) ?_ ?_⟩,
    ⟨({ past := false,   text := [0x70#8, 0x65#8, 0x65#8, 0x6b#8, 0x20#8, 0x30#8, 0x78#8, 0x31#8, 0x30#8, 0x30#8, 0x20#8, 0x32#8] }), ((Sys2Proof.Instr.trowelPeek    { past := false,      text := [0x70#8, 0x65#8, 0x65#8, 0x6b#8, 0x20#8, 0x30#8, 0x78#8, 0x31#8, 0x30#8, 0x30#8, 0x20#8, 0x32#8] },  ['p', 'e', 'e', 'k'],  1,  2,  false)), ?_, shown (states.getD 1 State.reset) ?_ ?_⟩,
    ⟨({ past := false,   text := [0x70#8, 0x65#8, 0x65#8, 0x6b#8, 0x20#8, 0x30#8, 0x78#8, 0x31#8, 0x30#8, 0x30#8, 0x20#8, 0x32#8] }), ((Sys2Proof.Instr.trowelPeek    { past := false,      text := [0x70#8, 0x65#8, 0x65#8, 0x6b#8, 0x20#8, 0x30#8, 0x78#8, 0x31#8, 0x30#8, 0x30#8, 0x20#8, 0x32#8] },  ['p', 'e', 'e', 'k'],  1,  2,  false)), ?_, shown (states.getD 4 State.reset) ?_ ?_⟩,
    ⟨({ past := false, text := [0x66#8, 0x6c#8, 0x6f#8, 0x6f#8, 0x72#8] }), ([]), ?_, ?_, shown (states.getD 0 State.reset) ?_ ?_⟩,
    ⟨({ past := false, text := [0x61#8, 0x72#8, 0x63#8, 0x68#8, 0x65#8, 0x73#8] }), ([]), ?_, ?_, shown (states.getD 0 State.reset) ?_ ?_⟩,
    ⟨({ past := false, text := [0x70#8, 0x6f#8, 0x72#8, 0x74#8, 0x73#8] }), ([]), ?_, ?_, shown (states.getD 0 State.reset) ?_ ?_⟩,
    ⟨({ past := false, text := [0x70#8, 0x6f#8, 0x77#8, 0x65#8, 0x72#8] }), ([]), ?_, ?_, shown (states.getD 0 State.reset) ?_ ?_⟩,
    ⟨({ past := false, text := [0x74#8, 0x69#8, 0x65#8, 0x73#8, 0x20#8, 0x31#8] }), ([1]), ?_, ?_, shown (states.getD 0 State.reset) ?_ ?_⟩,
    ⟨({ past := false,   text := [0x74#8, 0x69#8, 0x65#8, 0x73#8, 0x20#8, 0x31#8, 0x20#8, 0x32#8, 0x35#8, 0x30#8, 0x20#8, 0x37#8] }), ([1, 250, 7]), ?_, ?_, shown (states.getD 0 State.reset) ?_ ?_⟩,
    ⟨({ past := false, text := [0x6c#8, 0x65#8, 0x64#8, 0x67#8, 0x65#8, 0x72#8] }), ([]), ?_, ?_, shown (states.getD 0 State.reset) ?_ ?_⟩,
    ⟨({ past := false, text := [0x6c#8, 0x65#8, 0x64#8, 0x67#8, 0x65#8, 0x72#8, 0x20#8, 0x32#8, 0x20#8, 0x36#8, 0x35#8] }), ([2, 65]), ?_, ?_, shown (states.getD 0 State.reset) ?_ ?_⟩,
    ⟨({ past := false,   text := [0x70#8, 0x65#8, 0x65#8, 0x6b#8, 0x20#8, 0x30#8, 0x78#8, 0x31#8, 0x30#8, 0x30#8, 0x20#8, 0x32#8] }), ([256, 2]), ?_, ?_, shown (states.getD 0 State.reset) ?_ ?_⟩,
    ⟨({ past := false, text := [0x70#8, 0x65#8, 0x65#8, 0x6b#8, 0x20#8, 0x37#8] }), ([7]), ?_, ?_, shown (states.getD 0 State.reset) ?_ ?_⟩,
    ⟨({ past := false,   text := [0x70#8,            0x65#8,            0x65#8,            0x6b#8,            0x20#8,            0x30#8,            0x78#8,            0x31#8,            0x30#8,            0x30#8,            0x30#8,            0x30#8,            0x39#8,            0x30#8,            0x30#8,            0x30#8,            0x30#8,            0x30#8] }), ([1099521064960]), ?_, ?_, shown (states.getD 0 State.reset) ?_ ?_⟩,
    ⟨({ past := false,   text := [0x70#8,            0x6f#8,            0x6b#8,            0x65#8,            0x20#8,            0x30#8,            0x78#8,            0x31#8,            0x30#8,            0x30#8,            0x20#8,            0x30#8,            0x78#8,            0x31#8,            0x31#8,            0x32#8,            0x32#8,            0x33#8,            0x33#8,            0x34#8,            0x34#8,            0x35#8,            0x35#8,            0x36#8,            0x36#8,            0x37#8,            0x37#8,            0x38#8,            0x38#8] }), ([256, 1234605616436508552]), ?_, ?_, shown (states.getD 2 State.reset) ?_ ?_⟩,
    ⟨({ past := false, text := [0x70#8, 0x6f#8, 0x6b#8, 0x65#8, 0x20#8, 0x33#8, 0x20#8, 0x34#8] }), ([3, 4]), ?_, ?_, shown (states.getD 0 State.reset) ?_ ?_⟩,
    ⟨({ past := false,   text := [0x70#8,            0x6f#8,            0x6b#8,            0x65#8,            0x20#8,            0x30#8,            0x78#8,            0x31#8,            0x30#8,            0x30#8,            0x20#8,            0x30#8,            0x78#8,            0x31#8,            0x31#8,            0x32#8,            0x32#8,            0x33#8,            0x33#8,            0x34#8,            0x34#8,            0x35#8,            0x35#8,            0x36#8,            0x36#8,            0x37#8,            0x37#8,            0x38#8,            0x38#8] }), ([256, 1234605616436508552]), ?_, ?_, shown (states.getD 0 State.reset) ?_ ?_⟩,
    ⟨({ past := false,   text := [0x70#8,            0x6f#8,            0x6b#8,            0x65#8,            0x20#8,            0x30#8,            0x78#8,            0x31#8,            0x30#8,            0x30#8,            0x30#8,            0x30#8,            0x30#8,            0x30#8,            0x30#8,            0x31#8,            0x30#8,            0x38#8,            0x20#8,            0x39#8] }), ([1099511628040, 9]), ?_, ?_, (0), (264), ?_, shown (states.getD 8 State.reset) ?_ ?_⟩,
    ⟨({ past := false,   text := [0x70#8,            0x6f#8,            0x6b#8,            0x65#8,            0x20#8,            0x30#8,            0x78#8,            0x31#8,            0x30#8,            0x30#8,            0x30#8,            0x30#8,            0x30#8,            0x43#8,            0x30#8,            0x30#8,            0x31#8,            0x30#8,            0x20#8,            0x37#8,            0x37#8] }), ([1099512414224, 77]), ?_, ?_, (0), (16), ?_, ?_, shown (states.getD 0 State.reset) ?_ ?_⟩,
    ⟨({ past := false,   text := [0x70#8,            0x6f#8,            0x6b#8,            0x65#8,            0x20#8,            0x30#8,            0x78#8,            0x31#8,            0x30#8,            0x30#8,            0x30#8,            0x30#8,            0x30#8,            0x43#8,            0x30#8,            0x30#8,            0x31#8,            0x30#8,            0x20#8,            0x37#8,            0x37#8] }), ([1099512414224, 77]), ?_, ?_, (0), (16), ?_, ?_, shown (states.getD 8 State.reset) ?_ ?_⟩,
    ⟨({ past := false,   text := [0x70#8,            0x6f#8,            0x6b#8,            0x65#8,            0x20#8,            0x30#8,            0x78#8,            0x32#8,            0x30#8,            0x30#8,            0x30#8,            0x30#8,            0x30#8,            0x30#8,            0x39#8,            0x30#8,            0x37#8,            0x38#8,            0x20#8,            0x35#8] }), ([2199023292536, 5]), ?_, ?_, (Sys2Proof.Machine.PageAt.die 9 120), ?_, shown (states.getD 0 State.reset) ?_ ?_⟩,
    ⟨({ past := false,   text := [0x73#8,            0x65#8,            0x74#8,            0x2d#8,            0x74#8,            0x69#8,            0x65#8,            0x20#8,            0x31#8,            0x20#8,            0x34#8,            0x20#8,            0x30#8,            0x78#8,            0x39#8,            0x39#8] }), ([1, 4, 153]), ?_, ?_, shown (states.getD 2 State.reset) ?_ ?_⟩,
    ⟨({ past := false,   text := [0x73#8,            0x65#8,            0x74#8,            0x2d#8,            0x74#8,            0x69#8,            0x65#8,            0x20#8,            0x31#8,            0x30#8,            0x32#8,            0x34#8,            0x20#8,            0x32#8,            0x20#8,            0x33#8] }), ([1024, 2, 3]), ?_, ?_, shown (states.getD 0 State.reset) ?_ ?_⟩,
    ⟨({ past := false,   text := [0x73#8,            0x65#8,            0x74#8,            0x2d#8,            0x74#8,            0x69#8,            0x65#8,            0x20#8,            0x31#8,            0x20#8,            0x34#8,            0x20#8,            0x30#8,            0x78#8,            0x39#8,            0x39#8] }), ([1, 4, 153]), ?_, ?_, shown (states.getD 0 State.reset) ?_ ?_⟩,
    ⟨({ past := false, text := [0x64#8, 0x75#8, 0x6d#8, 0x70#8, 0x20#8, 0x30#8, 0x78#8, 0x31#8, 0x30#8, 0x30#8, 0x30#8] }), ([4096]), ?_, ?_, shown (states.getD 9 State.reset) ?_ ?_⟩,
    ⟨({ past := false, text := [0x64#8, 0x75#8, 0x6d#8, 0x70#8, 0x20#8, 0x35#8] }), ([5]), ?_, ?_, shown (states.getD 0 State.reset) ?_ ?_⟩,
    ⟨({ past := false, text := [0x64#8, 0x75#8, 0x6d#8, 0x70#8, 0x20#8, 0x30#8, 0x78#8, 0x31#8, 0x30#8, 0x30#8, 0x30#8] }), ([4096]), ?_, ?_, shown (states.getD 0 State.reset) ?_ ?_⟩,
    ⟨({ past := false, text := [0x66#8, 0x72#8, 0x65#8, 0x65#8, 0x7a#8, 0x65#8] }), ([]), ?_, ?_, shown (states.getD 2 State.reset) ?_ ?_⟩,
    ⟨({ past := false, text := [0x66#8, 0x72#8, 0x65#8, 0x65#8, 0x7a#8, 0x65#8] }), ([]), ?_, ?_, shown (states.getD 0 State.reset) ?_ ?_⟩,
    ⟨({ past := false, text := [0x66#8, 0x72#8, 0x65#8, 0x65#8, 0x7a#8, 0x65#8] }), ([]), ?_, ?_, shown (states.getD 1 State.reset) ?_ ?_⟩,
    ⟨({ past := false, text := [0x74#8, 0x68#8, 0x61#8, 0x77#8] }), ([]), ?_, ?_, (false), shown (states.getD 0 State.reset) ?_ ?_⟩,
    ⟨({ past := false, text := [0x74#8, 0x68#8, 0x61#8, 0x77#8] }), ([]), ?_, ?_, (false), shown (states.getD 1 State.reset) ?_ ?_⟩⟩
  all_goals repeat' first | decide +kernel | (with_reducible first | refine State.wordFits_of ?_ | refine sidecars_of ?_ | refine apart_of ?_ ?_ ?_ | refine notWaiting_of ?_ | refine reaches_of ?_ | refine plainWord_of ?_ | refine forall_covers ?_ | refine placed_bed ?_ | refine placed_sync ?_ | refine placed_tie ?_ | refine State.branchable_of ?_ | refine ok_of ?_ | refine Sparse.sorted_of_sortedB _ ?_ | exact List.mem_cons_self | unfold vectorOk | refine error_of ?_ | refine ⟨1, 3, by decide +kernel, ?_⟩) | (intro h; exact absurd h (by decide +kernel)) | (intro q h4 h8; revert h4; revert h8; revert q; decide +kernel) | (refine Or.inl (by decide +kernel)) | (refine Or.inr (by decide +kernel)) | apply And.intro | (refine Exists.intro _ ?_) | (with_reducible constructor) | rfl | intro _
end Trowel

/-! Sideband -/
namespace Sideband
def sid (s : State) (f : Sideband → Sideband) : State := { s with side := f s.side }
def H (s : State) (h a : Nat) : State := setDs s [(Reg.LEDGER_HEAD_SEQ, h), (Reg.LEDGER_ACK_SEQ, a), (Reg.LEDGER_HOURS, 77), (Reg.LEDGER_MINUTES, 5)]
def states : List State :=
 [up, fr up, setDs up [(Reg.BOOT_PHASE, 0)], { H up 12 3 with ledger := { up.ledger with slots := [(0, 4), (34, 2 ^ 51 + 7), (8*7+2, 3), (8*9+1, 77)], bad := [3, 7] } },
  sid (H up 9000 3) fun x => { x with resp := some [1#8, 2#8, 3#8], mrl := 2, mwl := 1000, pending := [(3, []), (2, []), (1, [1#8]), (2, [1#8])], rails := [⟨1, 7⟩, ⟨0, 7⟩, ⟨1, 9⟩] }, setDs up [(Reg.PLACE_POS_STRAP, 4), (Reg.MARK_SERIAL, 0x123456789abcdef)],
  setDs up [(Reg.BOOT_PHASE, 3), (Reg.POWER_STOPPED, 1)], sid up fun x => { x with mwl := 4 }]
theorem witness :
  let field (f : List Byte) (i n : Nat) : Nat := ofBytes ((f.drop i).take n)
  let sum (f : List Byte) : Nat := (f.map (·.toNat)).foldl (· + ·) 0
  let pages (s : State) (a n : Nat) : Prop := a % 8 = 0 ∧ (∀ i < n, pageAt (a + 8 * i) ≠ none) ∧ s.accessStatus a (8 * n) = 0
  (∃ x ∈ [(Instr.sbRegWrite, 1), (Instr.sbRegRead, 2), (Instr.sbEnvelope, 3), (Instr.telemetry, 4), (Instr.sbRailDone, 5), (Instr.sbLedgerRead, 6)], ∃ (f : List Byte),
  let op := field f 0 1;
  let heard (s : State) : Prop := s.frozen = false ∧ s.df Reg.BOOT_PHASE ≠ 0 ∧ f.length ≤ s.side.mwl;
    Meets (x.1 f) (fun s => heard s ∧ (op = 0 ∨ 6 < op))) ∧
  (∃ x ∈ [(Instr.sbRegWrite, 1), (Instr.sbRegRead, 2), (Instr.sbEnvelope, 3), (Instr.telemetry, 4), (Instr.sbRailDone, 5), (Instr.sbLedgerRead, 6)], ∃ (f : List Byte),
  let op := field f 0 1;
  let len := field f 2 2;
  let heard (s : State) : Prop := s.frozen = false ∧ s.df Reg.BOOT_PHASE ≠ 0 ∧ f.length ≤ s.side.mwl;
    Meets (x.1 f) (fun s => heard s ∧ op = x.2 ∧ (lenFits op len = false ∨ f.length ≠ len + 5))) ∧
  (∃ x ∈ [(Instr.sbRegWrite, 1), (Instr.sbRegRead, 2), (Instr.sbEnvelope, 3), (Instr.telemetry, 4), (Instr.sbRailDone, 5), (Instr.sbLedgerRead, 6)], ∃ (f : List Byte),
  let op := field f 0 1;
  let len := field f 2 2;
  let heard (s : State) : Prop := s.frozen = false ∧ s.df Reg.BOOT_PHASE ≠ 0 ∧ f.length ≤ s.side.mwl;
    Meets (x.1 f) (fun s => heard s ∧ op = x.2 ∧ lenFits op len = true ∧ f.length = len + 5 ∧ sum f % 256 ≠ 0)) ∧
  (∃ x ∈ [(Instr.sbRegWrite, 1), (Instr.sbRegRead, 2), (Instr.sbEnvelope, 3), (Instr.telemetry, 4), (Instr.sbRailDone, 5), (Instr.sbLedgerRead, 6)], ∃ (f : List Byte), Meets (x.1 f) (fun s => s.frozen = true ∨ s.df Reg.BOOT_PHASE = 0)) ∧
  (∃ a, ∃ tag, ∃ (ws : List Nat), (a < 2 ^ 64) ∧ ((∀ w ∈ ws, w < 2 ^ 64)) ∧
  let p := toBytes 8 a ++ ws.flatMap (toBytes 8);
  let m := Instr.sbRegWrite (messageFrame 1 tag p);
    Meets m (fun s => s.Receives 1 tag p ∧ pages s a ws.length)) ∧
  (∃ a, ∃ tag, ∃ (ws : List Nat), (a < 2 ^ 64) ∧ ((∀ w ∈ ws, w < 2 ^ 64)) ∧
  let p := toBytes 8 a ++ ws.flatMap (toBytes 8);
  let m := Instr.sbRegWrite (messageFrame 1 tag p);
    Meets m (fun s => s.Receives 1 tag p ∧ ¬ pages s a ws.length)) ∧
  (∃ a, ∃ n, ∃ tag, (a < 2 ^ 64) ∧ (n < 256) ∧
  let p := toBytes 8 a ++ toBytes 1 n;
  let m := Instr.sbRegRead (messageFrame 2 tag p);
    Meets m (fun s => s.Receives 2 tag p ∧ 1 ≤ n ∧ n ≤ 32 ∧ pages s a n)) ∧
  (∃ a, ∃ n, ∃ tag, (a < 2 ^ 64) ∧ (n < 256) ∧
  let p := toBytes 8 a ++ toBytes 1 n;
  let m := Instr.sbRegRead (messageFrame 2 tag p);
    Meets m (fun s => s.Receives 2 tag p ∧ (n = 0 ∨ 32 < n))) ∧
  (∃ a, ∃ n, ∃ tag, (a < 2 ^ 64) ∧ (n < 256) ∧
  let p := toBytes 8 a ++ toBytes 1 n;
  let m := Instr.sbRegRead (messageFrame 2 tag p);
    Meets m (fun s => s.Receives 2 tag p ∧ 1 ≤ n ∧ n ≤ 32 ∧ ¬ pages s a n)) ∧
  (∃ v, ∃ tag, (v < 2 ^ 64) ∧ Meets (.sbEnvelope (messageFrame 3 tag (toBytes 8 v))) (fun s => s.Receives 3 tag (toBytes 8 v))) ∧
  (∃ rail, ∃ setting, ∃ tag, (rail < 256) ∧ (setting < 2 ^ 16) ∧
  let p := toBytes 1 rail ++ toBytes 2 setting;
    Meets (.sbRailDone (messageFrame 5 tag p)) (fun s => s.Receives 5 tag p ∧ rail < 2)) ∧
  (∃ rail, ∃ setting, ∃ tag, (rail < 256) ∧ (setting < 2 ^ 16) ∧
  let p := toBytes 1 rail ++ toBytes 2 setting;
    Meets (.sbRailDone (messageFrame 5 tag p)) (fun s => s.Receives 5 tag p ∧ 2 ≤ rail)) ∧
  (∃ q, ∃ tag, (q < 2 ^ 48) ∧
  let p := toBytes 6 q;
  let m := Instr.sbLedgerRead (messageFrame 6 tag p);
  let k := q % 8192;
  let held (s : State) : Prop := s.Receives 6 tag p ∧ q < s.df Reg.LEDGER_HEAD_SEQ ∧ s.df Reg.LEDGER_HEAD_SEQ ≤ q + 8192;
    Meets m (fun s => held s ∧ k ∉ s.ledger.bad)) ∧
  (∃ q, ∃ tag, (q < 2 ^ 48) ∧
  let p := toBytes 6 q;
  let m := Instr.sbLedgerRead (messageFrame 6 tag p);
  let k := q % 8192;
  let held (s : State) : Prop := s.Receives 6 tag p ∧ q < s.df Reg.LEDGER_HEAD_SEQ ∧ s.df Reg.LEDGER_HEAD_SEQ ≤ q + 8192;
  let stored (s : State) (w : Nat) : Nat := Sparse.get 0 s.ledger.slots (8 * k + w);
    Meets m (fun s => held s ∧ k ∈ s.ledger.bad ∧ k ∉ s.ledger.reported ∧ bit (stored s 2) 51 = false)) ∧
  (∃ q, ∃ tag, (q < 2 ^ 48) ∧
  let p := toBytes 6 q;
  let m := Instr.sbLedgerRead (messageFrame 6 tag p);
    Meets m (fun s => s.Receives 6 tag p ∧ (s.df Reg.LEDGER_HEAD_SEQ ≤ q ∨ q + 8192 < s.df Reg.LEDGER_HEAD_SEQ))) ∧
  (
  let live (s : State) : Prop := s.frozen = false;
    ∃ r, Meets .sbPrivateRead (fun s => live s ∧ s.side.resp = some r)) ∧
  (
  let live (s : State) : Prop := s.frozen = false;
    Meets .sbPrivateRead (fun s => live s ∧ s.side.resp = none)) ∧
  (
  let live (s : State) : Prop := s.frozen = false;
    Meets .enec live) ∧
  (
  let live (s : State) : Prop := s.frozen = false;
    Meets .disec live) ∧
  (
  let live (s : State) : Prop := s.frozen = false;
    Meets .rstdaa live) ∧
  (
  let live (s : State) : Prop := s.frozen = false;
    ∃ static, ∃ dyn, (dyn < 128) ∧ Meets (.setdasa static dyn) (fun s => live s ∧ static = 0x30 + s.df Reg.PLACE_POS_STRAP)) ∧
  (
  let live (s : State) : Prop := s.frozen = false;
    ∃ static, ∃ dyn, (dyn < 128) ∧ Meets (.setdasa static dyn) (fun s => live s ∧ static ≠ 0x30 + s.df Reg.PLACE_POS_STRAP)) ∧
  (
  let live (s : State) : Prop := s.frozen = false;
    ∃ n, (n < 2 ^ 16) ∧ Meets (.setmwl n) live) ∧
  (
  let live (s : State) : Prop := s.frozen = false;
    ∃ n, (n < 2 ^ 16) ∧ Meets (.setmrl n) live) ∧
  (
  let live (s : State) : Prop := s.frozen = false;
  let drives (i : Instr) (P : List Byte → State → Prop) : Prop := (Meets i live);
    drives .getmwl (fun l s => l.length = 2 ∧ ofBytes l.reverse = s.side.mwl % 2 ^ 16)) ∧
  (
  let live (s : State) : Prop := s.frozen = false;
  let drives (i : Instr) (P : List Byte → State → Prop) : Prop := (Meets i live);
    drives .getmrl (fun l s => l.length = 2 ∧ ofBytes l.reverse = s.side.mrl % 2 ^ 16)) ∧
  (
  let live (s : State) : Prop := s.frozen = false;
  let drives (i : Instr) (P : List Byte → State → Prop) : Prop := (Meets i live);
    drives .getpid (fun l s => l.length = 6 ∧ ofBytes l.reverse = 2 ^ 32 + s.df Reg.MARK_SERIAL % 2 ^ 32)) ∧
  (
  let live (s : State) : Prop := s.frozen = false;
  let drives (i : Instr) (P : List Byte → State → Prop) : Prop := (Meets i live);
    drives .getbcr (fun l _ => l = [0x06#8])) ∧
  (
  let live (s : State) : Prop := s.frozen = false;
  let drives (i : Instr) (P : List Byte → State → Prop) : Prop := (Meets i live);
    drives .getdcr (fun l _ => l = [0x00#8])) ∧
  (
  let live (s : State) : Prop := s.frozen = false;
  let drives (i : Instr) (P : List Byte → State → Prop) : Prop := (Meets i live);
    drives .getstatus (fun l _ => l.length = 2)) := by
  refine ⟨⟨((Instr.sbRegWrite, 1)), ?_, ([]), shown (states.getD 0 State.reset) ?_ ?_⟩,
    ⟨((Instr.sbRegWrite, 1)), ?_, ([0x01#8, 0x02#8, 0x03#8]), shown (states.getD 0 State.reset) ?_ ?_⟩,
    ⟨((Instr.sbRegWrite, 1)), ?_, ([0x01#8,  0x03#8,  0x10#8,  0x00#8,  0x05#8,  0x00#8,  0x00#8,  0x00#8,  0x00#8,  0x00#8,  0x00#8,  0x00#8,  0x00#8,  0x00#8,  0x00#8,  0x00#8,  0x00#8,  0x00#8,  0x00#8,  0x00#8,  0x01#8]), shown (states.getD 0 State.reset) ?_ ?_⟩,
    ⟨((Instr.sbRegWrite, 1)), ?_, ([]), shown (states.getD 1 State.reset) ?_ ?_⟩,
    ⟨(2199023292520), (0), ([5]), ?_, ?_, shown (states.getD 0 State.reset) ?_ ?_⟩,
    ⟨(0), (0), ([5]), ?_, ?_, shown (states.getD 0 State.reset) ?_ ?_⟩,
    ⟨(2199023292520), (32), (0), ?_, ?_, shown (states.getD 0 State.reset) ?_ ?_⟩,
    ⟨(0), (0), (0), ?_, ?_, shown (states.getD 0 State.reset) ?_ ?_⟩,
    ⟨(0), (32), (0), ?_, ?_, shown (states.getD 0 State.reset) ?_ ?_⟩,
    ⟨(0), (0), ?_, shown (states.getD 0 State.reset) ?_ ?_⟩,
    ⟨(0), (0), (0), ?_, ?_, shown (states.getD 0 State.reset) ?_ ?_⟩,
    ⟨(33), (0), (0), ?_, ?_, shown (states.getD 0 State.reset) ?_ ?_⟩,
    ⟨(0), (0), ?_, shown (states.getD 3 State.reset) ?_ ?_⟩,
    ⟨(7), (0), ?_, shown (states.getD 3 State.reset) ?_ ?_⟩,
    ⟨(0), (0), ?_, shown (states.getD 0 State.reset) ?_ ?_⟩,
    ⟨([0x01#8, 0x02#8, 0x03#8]), shown (states.getD 4 State.reset) ?_ ?_⟩,
    shown (states.getD 0 State.reset) ?_ ?_,
    shown (states.getD 0 State.reset) ?_ ?_,
    shown (states.getD 0 State.reset) ?_ ?_,
    shown (states.getD 0 State.reset) ?_ ?_,
    ⟨(48), 0, ?_, shown (states.getD 0 State.reset) ?_ ?_⟩,
    ⟨(0), 0, ?_, shown (states.getD 0 State.reset) ?_ ?_⟩,
    ⟨0, ?_, shown (states.getD 0 State.reset) ?_ ?_⟩,
    ⟨0, ?_, shown (states.getD 0 State.reset) ?_ ?_⟩,
    shown (states.getD 0 State.reset) ?_ ?_,
    shown (states.getD 0 State.reset) ?_ ?_,
    shown (states.getD 0 State.reset) ?_ ?_,
    shown (states.getD 0 State.reset) ?_ ?_,
    shown (states.getD 0 State.reset) ?_ ?_,
    shown (states.getD 0 State.reset) ?_ ?_⟩
  all_goals repeat' first | decide +kernel | (with_reducible first | refine State.wordFits_of ?_ | refine sidecars_of ?_ | refine apart_of ?_ ?_ ?_ | refine notWaiting_of ?_ | refine reaches_of ?_ | refine plainWord_of ?_ | refine forall_covers ?_ | refine placed_bed ?_ | refine placed_sync ?_ | refine placed_tie ?_ | refine State.branchable_of ?_ | refine ok_of ?_ | refine Sparse.sorted_of_sortedB _ ?_ | exact List.mem_cons_self | unfold vectorOk | refine error_of ?_ | refine ⟨1, 3, by decide +kernel, ?_⟩) | (intro h; exact absurd h (by decide +kernel)) | (intro q h4 h8; revert h4; revert h8; revert q; decide +kernel) | (refine Or.inl (by decide +kernel)) | (refine Or.inr (by decide +kernel)) | apply And.intro | (refine Exists.intro _ ?_) | (with_reducible constructor) | rfl | intro _
end Sideband
end Sys2Proof.Tests
end

section
/-!
SUPPORT. What the dresser's bundle finds once it has opened, the loop-shape writes and the fail-stop of a range fault, and the proof of the loop-shape
statement (R149, R152, R186).
-/

namespace Sys2Proof.Machine

/-! Keys of register fields. -/

/-- The part of a field's key that its page, offset and lowest bit give. -/
def Row.place (r : Row) : Nat := (r.page * 0x1000 + r.off) * 64 + r.lsb

theorem Row.key_core (r : Row) (c : Nat) (h : r.core = true) : r.key c 0 = (0x10000000000 + c * 0x100000 + 0xE0000) * 64 + r.place := by
  simp only [Row.key, Row.addr, Row.place, h, if_true]
  omega

theorem Row.key_die (r : Row) (u : Nat) (h : r.core = false) : r.key u 0 = (0x20000000000 + u * 0x1000) * 64 + r.place := by
  simp only [Row.key, Row.addr, Row.place, h, Bool.false_eq_true, if_false]
  omega

/-- Fields at two places of one unit have two keys. -/
theorem Row.key_ne_of_place {r r' : Row} {u : Nat} (h : r.core = r'.core ∧ r.place ≠ r'.place) : r.key u 0 ≠ r'.key u 0 := by
  obtain ⟨same, place⟩ := h
  cases hr : r.core with
  | true => rw [r.key_core u hr, r'.key_core u (same ▸ hr)]; omega
  | false => rw [r.key_die u hr, r'.key_die u (same ▸ hr)]; omega

/-- No field of a core has the key of a field of the die. -/
theorem Row.key_core_ne_die {r r' : Row} {c : Nat} (hc : c < 1024) (h : r.core = true ∧ r.place < 2 ^ 26 ∧ r'.core = false) :
    r.key c 0 ≠ r'.key 0 0 := by
  obtain ⟨core, place, die⟩ := h
  rw [r.key_core c core, r'.key_die 0 die]
  omega

/-! Register fields outside a list. -/

/-- A field whose key is not listed reads as before. -/
theorem State.RegsBut.rd {s t : State} {keys : List Nat} (h : s.RegsBut t keys) (r : Row) (u i : Nat) (hk : r.key u i ∉ keys) :
    t.rd r u i = s.rd r u i := h _ _ hk

theorem State.RegsBut.trans {s t u : State} {keys : List Nat} (h : s.RegsBut t keys) (g : t.RegsBut u keys) : s.RegsBut u keys :=
  fun d k hk => (g d k hk).trans (h d k hk)

theorem State.RegsBut.mono {s t : State} {keys keys' : List Nat} (h : s.RegsBut t keys) (hs : ∀ k ∈ keys, k ∈ keys') : s.RegsBut t keys' :=
  fun d k hk => h d k fun hk' => hk (hs k hk')

theorem State.regsBut_wr (s : State) (r : Row) (u i v : Nat) (keys : List Nat) (h : r.key u i ∈ keys) : s.RegsBut (s.wr r u i v) keys :=
  fun d k hk => State.regs_wr s r u i v d k fun e => hk (e ▸ h)

/-- The clock of a step keeps every field but the timestamp. -/
theorem State.regsBut_notBefore (s : State) (old : Nat) : s.RegsBut (s.notBefore old) [Reg.CTRL_TIMESTAMP.key 0 0] :=
  (State.near_notBefore s 0 old _ List.mem_cons_self).frame.regs

@[simp] theorem State.mem_notBefore (s : State) (old : Nat) : (s.notBefore old).mem = s.mem := by
  unfold State.notBefore; split <;> rfl

@[simp] theorem State.detected_notBefore (s : State) (old : Nat) : (s.notBefore old).detected = s.detected := by
  unfold State.notBefore; split <;> rfl

/-- A core that issues is one of the die's 1,024. -/
theorem State.Issues.core_lt {s : State} {c : Nat} {sl : Slot} {b : Bundle} (h : s.Issues c sl b) : c < 1024 := by
  have hi := h.issuing
  simp only [State.issuing, State.coreAlive, Bool.and_eq_true, decide_eq_true_eq] at hi
  obtain ⟨⟨⟨-, ⟨hc, -⟩, -⟩, -⟩, -⟩ := hi
  exact hc

/-! The dresser's view of an opened bundle. -/

/-- Two cores agree in what the dresser's checks and row writes rest on: stored tile rows, row writes on their way, and the next free cycle. -/
structure Core.SameDresser (k k' : Core) : Prop where
  tile : k'.tile = k.tile
  rowWrites : k'.rowWrites = k.rowWrites
  vNext : k'.tm.vNext = k.tm.vNext

theorem Core.SameDresser.trans {k k' k'' : Core} (h : k.SameDresser k') (g : k'.SameDresser k'') : k.SameDresser k'' :=
  ⟨g.tile.trans h.tile, g.rowWrites.trans h.rowWrites, g.vNext.trans h.vNext⟩

theorem Core.heldOn.sameDresser {k k' : Core} (h : k.heldOn k') : k.SameDresser k' := by
  obtain ⟨m, v, -, rfl⟩ := h
  exact ⟨rfl, rfl, rfl⟩

theorem Core.sameButBanks.settle_sameDresser {k k' : Core} (h : k.sameButBanks k') (n : Nat) : (k.settle n).SameDresser (k'.settle n) := by
  obtain ⟨l, o, rfl⟩ := h
  exact ⟨rfl, rfl, rfl⟩

/-- A bundle that waits stays opened. -/
theorem Core.Opened.heldOn {k k' k'' : Core} {sl : Slot} {b : Bundle} (h : k.Opened k' sl b) (g : k'.heldOn k'') : k.Opened k'' sl b := by
  obtain ⟨m, v, hm, rfl⟩ := g
  exact { h with held := Nat.le_trans h.held hm }

/-- Row writes that lie ahead of a cycle stay on their way. -/
theorem Core.settle_sameDresser_of_ahead (k : Core) (n : Nat) (h : ∀ w ∈ k.rowWrites, n < w.cycle) : k.SameDresser (k.settle n) where
  tile := by
    have hnone : (k.rowWrites.filter fun w => w.cycle ≤ n) = [] :=
      List.filter_eq_nil_iff.mpr fun w hw => by simpa using h w hw
    simp [Core.settle, hnone]
  rowWrites := List.filter_eq_self.mpr fun w hw => by simpa using h w hw
  vNext := rfl

/-- Opening a bundle settles the row writes due by its cycle, and leaves the dresser as it is otherwise. -/
theorem State.opened_sameDresser (s : State) (c : Nat) (sl : Slot) (b : Bundle) (h : s.Canon) :
    ((s.core c).settle (s.issueCycle c)).SameDresser ((s.opened c sl b).core c) := by
  have banks := State.bankEvents_spec s c (s.core c).seq.nextCycle h
  have canon (f : Core → Core) : ((State.mapCore (s.bankEvents c (s.core c).seq.nextCycle) c f).atIssue c).Canon :=
    ((State.near_mapCore _ c f (issueKeys c)).trans (State.near_atIssue _ c _ (by simp [issueKeys]))).canon (banks.1.canon h)
  refine (banks.2.settle_sameDresser (s.issueCycle c)).trans ?_
  unfold State.opened State.startBundle
  rw [State.core_bumpC, State.core_bumpC]
  refine .trans ?_ (State.awaitFill_spec _ c (issueKeys c) (by simp [issueKeys]) (by simp [issueKeys]) (canon _)).2.sameDresser
  rw [State.atIssue, State.core_setD, State.core_mapCore _ c _ (banks.1.canon h)]
  exact ⟨rfl, rfl, rfl⟩

/-- State u follows s once bundle b has opened for its V slot at core c and that slot has waited for its scalar registers (R186, R189). -/
structure State.Waited (s u : State) (c : Nat) (b : Bundle) : Prop where
  near : s.Near u c (issueKeys c)
  opened : (s.core c).Opened (u.core c) .v b
  dresser : ((s.core c).settle (s.issueCycle c)).SameDresser (u.core c)

theorem State.waited_opened (s : State) (c : Nat) (b : Bundle) (h : s.Canon) : s.Waited (s.opened c .v b) c b :=
  ⟨(State.opened_spec s c .v b h).1, (State.opened_spec s c .v b h).2, State.opened_sameDresser s c .v b h⟩

theorem State.Waited.waitReg {s u : State} {c : Nat} {b : Bundle} (w : s.Waited u c b) (h : s.Canon) (r : Nat) : s.Waited (u.waitReg c r) c b := by
  obtain ⟨near, held⟩ := State.waitReg_spec u c r (w.near.canon h)
  exact ⟨w.near.trans near, w.opened.heldOn held, w.dresser.trans held.sameDresser⟩

/-- The slot reads the scalar registers as they stood before its bundle. -/
theorem State.Waited.sval {s u : State} {c : Nat} {b : Bundle} (w : s.Waited u c b) (r : Nat) : u.sval c r = s.sregNext c r := by
  simp [State.sval, Core.sval, State.sregNext, w.opened.view]

/-- The dresser is free for the slot where it was before the bundle opened. -/
theorem State.Waited.free {s u : State} {c : Nat} {b : Bundle} (w : s.Waited u c b) (hf : (s.core c).tm.vNext ≤ s.issueCycle c) :
    (u.core c).tm.vNext ≤ u.cyc c :=
  calc (u.core c).tm.vNext = (s.core c).tm.vNext := w.dresser.vNext
    _ ≤ s.issueCycle c := hf
    _ = u.cyc c := w.opened.cycle.symm

/-- A scalar register as a number is what later bundles see of it. -/
theorem State.word_toNat (s : State) (c r : Nat) : (s.word c r).toNat = s.sregNext c r := by
  have hlt : s.sregNext c r < 2 ^ 64 := by
    unfold State.sregNext; split
    · exact BitVec.isLt _
    · exact Nat.two_pow_pos 64
  rw [State.word, BitVec.toNat_ofNat, Nat.mod_eq_of_lt hlt]

/-! Checks and commit of an instruction that reads and writes no tile row. -/

/-- On a free dresser only the instruction's own condition can fault. -/
theorem vCheck_no_rows (s : State) (c : Nat) (b : Bundle) (own : Option (Nat × Nat)) (hf : (s.core c).tm.vNext ≤ s.cyc c) :
    vCheck s c b [] [] own [] = own.map fun f => s.dressFault c f.1 f.2 := by
  cases own <;> simp [vCheck, Nat.not_lt.mpr hf]

/-- The counts of an instruction change registers of the dresser alone. -/
theorem State.near_vCount (s : State) (c q : Nat) : s.Near ((s.bumpC Reg.DRESS_VOPS c 1).bumpC Reg.DRESS_BUSY c q) c (vectorKeys c) :=
  (State.near_wr s c Reg.DRESS_VOPS c 0 _ _ (by simp [vectorKeys])).trans (State.near_wr _ c Reg.DRESS_BUSY c 0 _ _ (by simp [vectorKeys]))

theorem State.near_vCommit (s : State) (c q : Nat) (srcs : List Nat) (writes : List RowWrite) :
    s.Near (s.vCommit c q srcs writes) c (vectorKeys c) := by
  unfold State.vCommit
  exact (State.near_vCount s c q).trans (State.near_mapCore _ c _ _)

theorem State.core_vCommit_no_rows (s : State) (c q : Nat) (h : s.Canon) :
    (s.vCommit c q [] []).core c = { s.core c with tm := { (s.core c).tm with vNext := s.cyc c + q } } := by
  unfold State.vCommit
  simp only
  rw [State.core_mapCore _ c _ ((State.near_vCount s c q).canon h)]
  rfl

/-! The loop shape. -/

/-- Registers that SETVL and SETVL.R may change. -/
def shapeKeys (c : Nat) : List Nat := vectorKeys c ++ [Reg.DRESS_VL.key c 0, Reg.DRESS_RL.key c 0]

theorem mem_shapeKeys_of_vectorKeys {c k : Nat} (h : k ∈ vectorKeys c) : k ∈ shapeKeys c := List.mem_append_left _ h

theorem mem_shapeKeys_of_issueKeys {c k : Nat} (h : k ∈ issueKeys c) : k ∈ shapeKeys c :=
  mem_shapeKeys_of_vectorKeys (List.mem_append_left _ (List.mem_append_left _ h))

theorem State.near_setShape (s : State) (c vl rl : Nat) : s.Near (s.setShape c vl rl) c (shapeKeys c) :=
  (State.near_wr s c _ c 0 _ _ (by simp [shapeKeys])).trans (State.near_wr _ c _ c 0 _ _ (by simp [shapeKeys]))

theorem State.cf_setShape (s : State) (c vl rl : Nat) (h : s.Canon) (hv : vl < 2 ^ 7) (hr : rl < 2 ^ 5) :
    (s.setShape c vl rl).cf Reg.DRESS_VL c = vl ∧ (s.setShape c vl rl).cf Reg.DRESS_RL c = rl := by
  have sorted : Sparse.sorted (s.setC Reg.DRESS_VL c vl).regs := State.wr_sorted s _ _ _ _ h.regs
  have apart : Reg.DRESS_VL.key c 0 ∉ [Reg.DRESS_RL.key c 0] := by simpa using Row.key_ne_of_place (by decide)
  constructor
  · calc (s.setShape c vl rl).rd Reg.DRESS_VL c 0
        = (s.setC Reg.DRESS_VL c vl).rd Reg.DRESS_VL c 0 := (State.regsBut_wr _ _ c 0 rl _ List.mem_cons_self).rd _ _ _ apart
      _ = vl % 2 ^ 7 := State.rd_wr s _ _ _ _ h.regs
      _ = vl := Nat.mod_eq_of_lt hv
  · exact (State.rd_wr _ _ _ _ _ sorted).trans (Nat.mod_eq_of_lt hr)

/-- A loop shape set on a dresser that no due row write waits for: VL and RL hold it and the rest is kept (R149). -/
def State.Shaped (s : State) (c vl rl : Nat) (t : State) : Prop :=
  t.cf Reg.DRESS_VL c = vl ∧ t.cf Reg.DRESS_RL c = rl ∧ s.InCore t c (shapeKeys c) ∧ (∀ a, t.byteAt a = s.byteAt a) ∧
  (t.core c).sreg = (s.core c).sreg ∧ (t.core c).lc = (s.core c).lc ∧ (t.core c).rest = (s.core c).rest ∧
  (t.core c).tile = (s.core c).tile ∧ (t.core c).rowWrites = (s.core c).rowWrites

/-- The state that a loop-shape instruction leaves when it meets no fault. -/
def State.reshape (u : State) (c vl rl : Nat) : State := (u.vCommit c 1 [] []).setShape c vl rl

theorem State.core_reshape (u : State) (c vl rl : Nat) (h : u.Canon) :
    (u.reshape c vl rl).core c = { u.core c with tm := { (u.core c).tm with vNext := u.cyc c + 1 } } :=
  State.core_vCommit_no_rows u c 1 h

theorem State.near_reshape (u : State) (c vl rl : Nat) : u.Near (u.reshape c vl rl) c (shapeKeys c) :=
  ((State.near_vCommit u c 1 [] []).mono fun _ => mem_shapeKeys_of_vectorKeys).trans (State.near_setShape _ c vl rl)

theorem State.Waited.tryRetire_reshape {s u : State} {c : Nat} {b : Bundle} (w : s.Waited u c b) (h : s.Canon)
    (going : (s.core c).seq.endEntry = none) (vl rl : Nat) : (u.reshape c vl rl).tryRetire c = u.reshape c vl rl := by
  refine State.tryRetire_of_going _ c ?_
  rw [State.core_reshape u c vl rl (w.near.canon h)]
  exact w.opened.endEntry.trans going

theorem State.Waited.shaped {s u : State} {c : Nat} {b : Bundle} (w : s.Waited u c b) (h : s.Canon) (hc : c < 1024)
    (ahead : ∀ x ∈ (s.core c).rowWrites, s.issueCycle c < x.cycle) (vl rl old : Nat) (hv : vl < 2 ^ 7) (hr : rl < 2 ^ 5) :
    s.Shaped c vl rl ((u.reshape c vl rl).notBefore old) := by
  have canon := w.near.canon h
  have near : s.Near ((u.reshape c vl rl).notBefore old) c (shapeKeys c) :=
    ((w.near.mono fun _ => mem_shapeKeys_of_issueKeys).trans (State.near_reshape u c vl rl)).trans
      (State.near_notBefore _ c old _ (mem_shapeKeys_of_issueKeys (by simp [issueKeys])))
  have dresser := ((s.core c).settle_sameDresser_of_ahead _ ahead).trans w.dresser
  obtain ⟨vlSet, rlSet⟩ := State.cf_setShape (u.vCommit c 1 [] []) c vl rl ((State.near_vCommit u c 1 [] []).canon canon) hv hr
  have clock := State.regsBut_notBefore (u.reshape c vl rl) old
  refine ⟨(clock.rd _ c 0 ?_).trans vlSet, (clock.rd _ c 0 ?_).trans rlSet, near.frame, fun a => by simp only [State.byteAt, near.mem], ?_⟩
  · simpa using Row.key_core_ne_die hc (by decide)
  · simpa using Row.key_core_ne_die hc (by decide)
  · rw [State.core_notBefore, State.core_reshape u c vl rl canon]
    exact ⟨w.opened.sreg, w.opened.lc, w.opened.rest, dresser.tile, dresser.rowWrites⟩

/-! The fail-stop. -/

/-- A fail-stop records its event, stops the core, and fails the task; beside that only fields of the task change (R51, R368). -/
theorem State.failStop_eq_failOp (s : State) (c code unit : Nat) (data : List Nat) (sev cause : Nat) :
    ∃ task, s.failStop c code unit data sev cause = State.failOp { (s.noteSev code unit data sev true).stopCore c with task := task } cause := by
  unfold State.failStop State.haltCore
  simp only
  split <;> exact ⟨_, rfl⟩

theorem State.failOp_mem (s : State) (cause : Nat) : (s.failOp cause).mem = s.mem := by
  unfold State.failOp; split <;> rfl

theorem State.mem_detected_failOp (s : State) (cause : Nat) {e : Event} (h : e ∈ s.detected) : e ∈ (s.failOp cause).detected := by
  unfold State.failOp
  split
  · exact List.mem_append_left _ h
  · exact h

/-- Registers that the failure of a task changes. -/
def failKeys : List Nat := [Reg.CMD_CAUSE.key 0 0, Reg.CMD_OPS_STATE.key 0 0]

theorem State.regsBut_failOp (s : State) (cause : Nat) : s.RegsBut (s.failOp cause) failKeys := by
  unfold State.failOp
  split
  · exact (State.regsBut_wr s Reg.CMD_CAUSE 0 0 cause _ (by simp [failKeys])).trans
      (State.regsBut_wr (s.setD Reg.CMD_CAUSE cause) Reg.CMD_OPS_STATE 0 0 7 _ (by simp [failKeys]))
  · exact fun _ _ _ => rfl

theorem State.taskState_failOp (s : State) (cause : Nat) (h : Sparse.sorted s.regs) (hr : s.taskRuns = true) : (s.failOp cause).taskState = 7 := by
  unfold State.failOp
  rw [if_pos hr]
  exact State.rd_wr (s.setD Reg.CMD_CAUSE cause) Reg.CMD_OPS_STATE 0 0 7 (State.wr_sorted s _ _ _ _ h)

theorem State.taskRuns_of_taskState {s t : State} (h : t.taskState = s.taskState) : t.taskRuns = s.taskRuns := by
  simp only [State.taskRuns, h]

/-- Registers that a fail-stop at core c changes. -/
def stopKeys (c : Nat) : List Nat := Reg.SEQ_RUN.key c 0 :: failKeys

section
variable (s : State) (c code unit : Nat) (data : List Nat) (sev cause : Nat)

theorem State.failStop_mem : (s.failStop c code unit data sev cause).mem = s.mem := by
  obtain ⟨task, e⟩ := s.failStop_eq_failOp c code unit data sev cause
  rw [e, State.failOp_mem]
  rfl

theorem State.detects_failStop : (s.failStop c code unit data sev cause).Detects code unit data := by
  obtain ⟨task, e⟩ := s.failStop_eq_failOp c code unit data sev cause
  rw [e]
  exact ⟨⟨code, unit, data, s.now, sev, true⟩, State.mem_detected_failOp _ cause (List.mem_append_right _ List.mem_cons_self), rfl, rfl, rfl⟩

theorem State.regsBut_failStop : s.RegsBut (s.failStop c code unit data sev cause) (stopKeys c) := by
  obtain ⟨task, e⟩ := s.failStop_eq_failOp c code unit data sev cause
  rw [e]
  exact (State.regsBut_wr s Reg.SEQ_RUN c 0 3 _ List.mem_cons_self).trans
    ((State.regsBut_failOp _ cause).mono fun _ => List.mem_cons_of_mem _)

theorem State.run_failStop (h : Sparse.sorted s.regs) (hc : c < 1024) : (s.failStop c code unit data sev cause).run c = 3 := by
  obtain ⟨task, e⟩ := s.failStop_eq_failOp c code unit data sev cause
  have apart : Reg.SEQ_RUN.key c 0 ∉ failKeys := by simp (disch := decide) [failKeys, Row.key_core_ne_die hc]
  rw [e]
  exact ((State.regsBut_failOp _ cause).rd Reg.SEQ_RUN c 0 apart).trans (State.rd_wr s Reg.SEQ_RUN c 0 3 h)

theorem State.taskState_failStop (h : Sparse.sorted s.regs) (hc : c < 1024) (hr : s.taskRuns = true) :
    (s.failStop c code unit data sev cause).taskState = 7 := by
  obtain ⟨task, e⟩ := s.failStop_eq_failOp c code unit data sev cause
  have apart : Reg.CMD_OPS_STATE.key 0 0 ∉ [Reg.SEQ_RUN.key c 0] := by simpa using (Row.key_core_ne_die hc (by decide)).symm
  have state : (s.stopCore c).taskState = s.taskState := (State.regsBut_wr s Reg.SEQ_RUN c 0 3 _ List.mem_cons_self).rd _ _ _ apart
  rw [e]
  refine State.taskState_failOp _ cause (State.wr_sorted s _ _ _ _ h) ?_
  exact (State.taskRuns_of_taskState state).trans hr

end

/-! A fault of the dresser. -/

/-- Registers that the capture of a dresser fault changes. -/
def captureKeys (c : Nat) : List Nat := [Reg.DRESS_FAULT.key c 0, Reg.DRESS_FAULT_CYCLE.key c 0]

/-- A dresser fault is its capture and a fail-stop (R164). -/
theorem State.dressFault_eq_failStop (s : State) (c fault code : Nat) :
    ∃ u, s.Near u c (captureKeys c) ∧ s.dressFault c fault code = u.failStop c code c [s.cyc c] 2 2 := by
  unfold State.dressFault
  simp only
  split
  · exact ⟨s, State.Near.refl s c _, rfl⟩
  · exact ⟨_, (State.near_wr s c Reg.DRESS_FAULT c 0 _ _ (by simp [captureKeys])).trans
      (State.near_wr _ c Reg.DRESS_FAULT_CYCLE c 0 _ _ (by simp [captureKeys])), rfl⟩

/-- Registers that the bundle of a dresser fault changes before the fail-stop. -/
def faultKeys (c : Nat) : List Nat := issueKeys c ++ captureKeys c

/-- A bundle that faults in the dresser: the event, the core's stop, the task's failure, and what stays (R51, R164). -/
theorem State.dressFault_opened (s : State) (c fault code : Nat) (b : Bundle) (old : Nat) (h : s.Canon) (hc : c < 1024) :
    let t := ((s.opened c .v b).dressFault c fault code).notBefore old
    t.Detects code c [s.issueCycle c] ∧ t.run c = 3 ∧ s.RegsBut t (faultKeys c ++ stopKeys c) ∧ (s.taskRuns = true → t.taskState = 7) ∧
      ∀ a, t.byteAt a = s.byteAt a := by
  have w := State.waited_opened s c b h
  obtain ⟨u, capture, fault⟩ := State.dressFault_eq_failStop (s.opened c .v b) c fault code
  rw [fault, show (s.opened c .v b).cyc c = s.issueCycle c from w.opened.cycle]
  have near : s.Near u c (faultKeys c) :=
    (w.near.mono fun _ => List.mem_append_left _).trans (capture.mono fun _ => List.mem_append_right _)
  have sorted := (near.canon h).regs
  have stop := u.regsBut_failStop c code c [s.issueCycle c] 2 2
  have clock := State.regsBut_notBefore (u.failStop c code c [s.issueCycle c] 2 2) old
  refine ⟨?_, ?_, ?_, fun hr => ?_, fun a => ?_⟩
  · simpa only [State.Detects, State.detected_notBefore] using u.detects_failStop c code c [s.issueCycle c] 2 2
  · refine (clock.rd _ c 0 ?_).trans (u.run_failStop c code c _ 2 2 sorted hc)
    simpa using Row.key_core_ne_die hc (by decide)
  · refine ((near.frame.regs.mono fun _ => List.mem_append_left _).trans (stop.mono fun _ => List.mem_append_right _)).trans (clock.mono ?_)
    simp [faultKeys, issueKeys]
  · have apart : Reg.CMD_OPS_STATE.key 0 0 ∉ faultKeys c := by
      have dieApart {r : Row} (hr : r.core = true ∧ r.place < 2 ^ 26) : Reg.CMD_OPS_STATE.key 0 0 ≠ r.key c 0 :=
        (Row.key_core_ne_die hc ⟨hr.1, hr.2, rfl⟩).symm
      simp (disch := decide) [faultKeys, issueKeys, captureKeys, dieApart, Row.key_ne_of_place]
    have state : u.taskState = s.taskState := near.frame.regs.rd _ 0 0 apart
    have runs : u.taskRuns = true := (State.taskRuns_of_taskState state).trans hr
    refine (clock.rd _ 0 0 ?_).trans (u.taskState_failStop c code c _ 2 2 sorted hc runs)
    simpa using Row.key_ne_of_place (by decide)
  · simp only [State.byteAt, State.mem_notBefore, State.failStop_mem, near.mem]

/-- The loop shape is no register of a dresser fault. -/
theorem shape_not_mem_faultKeys (c : Nat) (hc : c < 1024) :
    Reg.DRESS_VL.key c 0 ∉ faultKeys c ++ stopKeys c ∧ Reg.DRESS_RL.key c 0 ∉ faultKeys c ++ stopKeys c := by
  constructor <;> simp (disch := decide) [faultKeys, issueKeys, captureKeys, stopKeys, failKeys, Row.key_ne_of_place, Row.key_core_ne_die hc]

/-! SETVL and SETVL.R. -/

theorem exec_setvl (c : Nat) (b : Bundle) (s : State) : exec (.setvl c b) s = execSetvl c b s := rfl

theorem exec_setvlR (c : Nat) (b : Bundle) (s : State) : exec (.setvlR c b) s = execSetvlR c b s := rfl

/-- Fields inside their ranges: SETVL sets the loop shape. -/
theorem exec_setvl_in_range (s : State) (c : Nat) (b d : Bundle) (hd : coded .v 0x48 b = d) (h : s.Canon) (issues : s.Issues c .v d)
    (free : (s.core c).tm.vNext ≤ s.issueCycle c) (vl : fld (bV d) 13 7 ≤ 64) (rlLow : 1 ≤ fld (bV d) 18 14) (rlHigh : fld (bV d) 18 14 ≤ 16) :
    exec (.setvl c b) s = .next (((s.opened c .v d).reshape c (fld (bV d) 13 7) (fld (bV d) 18 14)).notBefore s.now) := by
  subst hd
  have w := State.waited_opened s c (coded .v 0x48 b) h
  have inRange : ¬(64 < fld (bV (coded .v 0x48 b)) 13 7 ∨ fld (bV (coded .v 0x48 b)) 18 14 = 0 ∨ 16 < fld (bV (coded .v 0x48 b)) 18 14) := by omega
  rw [exec_setvl, execSetvl, runSlot_of_issues _ _ _ _ _ _ h issues]
  simp only [if_neg inRange, vCheck_no_rows _ _ _ _ (w.free free), Option.map_none]
  exact congrArg (fun t => Host.Outcome.next (State.notBefore t s.now)) (w.tryRetire_reshape h issues.going _ _)

/-- A field outside its range: SETVL faults and sets no loop shape. -/
theorem exec_setvl_out_of_range (s : State) (c : Nat) (b d : Bundle) (hd : coded .v 0x48 b = d) (h : s.Canon) (issues : s.Issues c .v d)
    (free : (s.core c).tm.vNext ≤ s.issueCycle c) (out : 64 < fld (bV d) 13 7 ∨ fld (bV d) 18 14 = 0 ∨ 16 < fld (bV d) 18 14) :
    exec (.setvl c b) s = .next (((s.opened c .v d).dressFault c 6 0x0405).notBefore s.now) := by
  subst hd
  have w := State.waited_opened s c (coded .v 0x48 b) h
  rw [exec_setvl, execSetvl, runSlot_of_issues _ _ _ _ _ _ h issues]
  simp only [if_pos out, vCheck_no_rows _ _ _ _ (w.free free), Option.map_some]

/-- The state in which SETVL.R has read its two scalar registers. -/
def State.shapeRead (s : State) (c : Nat) (b : Bundle) : State :=
  ((s.opened c .v b).waitReg c (fld (bV b) 11 7)).waitReg c (fld (bV b) 16 12)

theorem State.waited_shapeRead (s : State) (c : Nat) (b : Bundle) (h : s.Canon) : s.Waited (s.shapeRead c b) c b :=
  ((State.waited_opened s c b h).waitReg h _).waitReg h _

/-- SETVL.R sets the loop shape from its registers, clamped. -/
theorem exec_setvlR_of_issues (s : State) (c : Nat) (b d : Bundle) (hd : coded .v 0x49 b = d) (h : s.Canon) (issues : s.Issues c .v d)
    (free : (s.core c).tm.vNext ≤ s.issueCycle c) :
    exec (.setvlR c b) s = .next (((s.shapeRead c d).reshape c (min (s.word c (fld (bV d) 11 7)).toNat 64)
      (max 1 (min (s.word c (fld (bV d) 16 12)).toNat 16))).notBefore s.now) := by
  subst hd
  have w := State.waited_shapeRead s c (coded .v 0x49 b) h
  unfold State.shapeRead at w ⊢
  have clamp (x : Nat) : min (max x 1) 16 = max 1 (min x 16) := by omega
  rw [exec_setvlR, execSetvlR, runSlot_of_issues _ _ _ _ _ _ h issues]
  simp only [vCheck_no_rows _ _ _ _ (w.free free), Option.map_none, w.sval, ← State.word_toNat, clamp]
  exact congrArg (fun t => Host.Outcome.next (State.notBefore t s.now)) (w.tryRetire_reshape h issues.going _ _)

/-- Settles O20: each form checks and then writes the loop shape after its bundle has opened, and row writes ahead of the issue cycle stay on
their way. -/
theorem loopShape : Obligations.LoopShape := by
  unfold Obligations.LoopShape
  refine ⟨?inRange, ?outOfRange, ?register⟩
  case inRange =>
    rintro s c b h - issues ⟨free, ahead, vl, rlLow, rlHigh⟩
    exact ⟨_, exec_setvl_in_range s c b _ rfl h issues free vl rlLow rlHigh,
      (State.waited_opened s c _ h).shaped h issues.core_lt ahead _ _ _ (by omega) (by omega)⟩
  case outOfRange =>
    rintro s c b h - issues ⟨free, out⟩
    obtain ⟨event, run, regs, task, bytes⟩ := State.dressFault_opened s c 6 0x0405 (coded .v 0x48 b) s.now h issues.core_lt
    obtain ⟨vlKey, rlKey⟩ := shape_not_mem_faultKeys c issues.core_lt
    exact ⟨_, exec_setvl_out_of_range s c b _ rfl h issues free out, event, run, regs.rd _ c 0 vlKey, regs.rd _ c 0 rlKey, task, bytes⟩
  case register =>
    rintro s c b h - issues ⟨free, ahead⟩
    exact ⟨_, exec_setvlR_of_issues s c b _ rfl h issues free,
      (State.waited_shapeRead s c _ h).shaped h issues.core_lt ahead _ _ _ (by omega) (by omega)⟩

end Sys2Proof.Machine
end

section
/-!
SUPPORT. Steps of the sync plane beside the cores, waits that end, a batch of updates at a tie, and the proof of the statement about tie limits
(R235–R239, R241).
-/

namespace Sys2Proof.Machine

/-! Steps beside the cores. -/

/-- No field of the die has the key of a field of a core. -/
theorem Row.key_die_ne_core {r r' : Row} {c : Nat} (hc : c < 1024) (h : r.core = false ∧ r'.core = true ∧ r'.place < 2 ^ 26) :
    r.key 0 0 ≠ r'.key c 0 := by
  obtain ⟨die, core, place⟩ := h
  exact (Row.key_core_ne_die hc ⟨core, place, die⟩).symm

/-- A counter just raised reads as the sum, to its maximum at most. -/
theorem State.rd_bump (s : State) (r : Row) (u i n : Nat) (h : Sparse.sorted s.regs) :
    (s.bump r u i n).rd r u i = min (s.rd r u i + n) (2 ^ r.width - 1) := by
  have room : min (s.rd r u i + n) (2 ^ r.width - 1) < 2 ^ r.width := by
    have := Nat.two_pow_pos r.width
    omega
  exact (State.rd_wr s r u i _ h).trans (Nat.mod_eq_of_lt room)

/-- A traced event changes the trace, and counts a record that it drops (R411). -/
theorem State.trace_cases (s : State) (c : Nat) (r : TraceRec) :
    ∃ dbg, s.trace c r = { s with dbg := dbg } ∨ s.trace c r = ({ s with dbg := dbg } : State).bumpD Reg.DEBUG_TRACE_DROPPED 1 := by
  unfold State.trace
  split
  · exact ⟨s.dbg, .inl rfl⟩
  · simp only
    split
    · exact ⟨_, .inr rfl⟩
    · exact ⟨_, .inl rfl⟩

@[simp] theorem State.trace_sync (s : State) (c : Nat) (r : TraceRec) : (s.trace c r).sync = s.sync := by
  obtain ⟨dbg, e | e⟩ := s.trace_cases c r
  · rw [e]
  · rw [e, State.bumpD_sync]

@[simp] theorem State.trace_cores (s : State) (c : Nat) (r : TraceRec) : (s.trace c r).cores = s.cores := by
  obtain ⟨dbg, e | e⟩ := s.trace_cases c r
  · rw [e]
  · rw [e, State.bumpD_cores]

/-- Fields of the die that steps of the sync plane change: dropped trace records, the timestamp, stalls of the plane. -/
def asideKeys : List Nat := dieKeys [Reg.DEBUG_TRACE_DROPPED, Reg.CTRL_TIMESTAMP, Reg.ARCH_PLANE_STALL]

/-- A step beside the cores: no core, no byte, no event and nothing of the task changes, and no register but those of the sync plane. -/
structure State.Aside (s t : State) : Prop where
  cores : t.cores = s.cores
  mem : t.mem = s.mem
  task : t.task = s.task
  detected : t.detected = s.detected
  regs : s.RegsBut t asideKeys
  sorted : Sparse.sorted s.regs → Sparse.sorted t.regs

theorem State.Aside.refl (s : State) : s.Aside s := ⟨rfl, rfl, rfl, rfl, fun _ _ _ => rfl, id⟩

theorem State.Aside.trans {s t u : State} (h : s.Aside t) (g : t.Aside u) : s.Aside u :=
  ⟨g.cores.trans h.cores, g.mem.trans h.mem, g.task.trans h.task, g.detected.trans h.detected, h.regs.trans g.regs, fun x => g.sorted (h.sorted x)⟩

theorem State.Aside.core {s t : State} (h : s.Aside t) (c : Nat) : t.core c = s.core c := by
  simp only [State.core, h.cores]

theorem State.aside_wr (s : State) (r : Row) (v : Nat) (h : r.key 0 0 ∈ asideKeys) : s.Aside (s.wr r 0 0 v) :=
  ⟨rfl, rfl, rfl, rfl, State.regsBut_wr s r 0 0 v _ h, State.wr_sorted s r 0 0 v⟩

theorem State.aside_sync (s : State) (y : Sync) : s.Aside { s with sync := y } := ⟨rfl, rfl, rfl, rfl, fun _ _ _ => rfl, id⟩

theorem State.aside_dbg (s : State) (g : Debug) : s.Aside { s with dbg := g } := ⟨rfl, rfl, rfl, rfl, fun _ _ _ => rfl, id⟩

theorem State.aside_trace (s : State) (c : Nat) (r : TraceRec) : s.Aside (s.trace c r) := by
  obtain ⟨dbg, e | e⟩ := s.trace_cases c r <;> rw [e]
  · exact s.aside_dbg dbg
  · exact (s.aside_dbg dbg).trans (State.aside_wr _ _ _ (by simp [asideKeys, dieKeys]))

theorem State.aside_notBefore (s : State) (old : Nat) : s.Aside (s.notBefore old) := by
  unfold State.notBefore
  split
  · exact State.aside_wr s _ _ (by simp [asideKeys, dieKeys])
  · exact State.Aside.refl s

/-- A fold of steps beside the cores is one. -/
theorem State.aside_foldl {α β : Type} (state : β → State) (f : β → α → β) (h : ∀ b a, (state b).Aside (state (f b a))) (l : List α) (b : β) :
    (state b).Aside (state (l.foldl f b)) := by
  induction l generalizing b with
  | nil => exact State.Aside.refl _
  | cons a l ih => exact (h b a).trans (ih (f b a))

/-- What is done in a cycle starts with that cycle's timestamp, and the clock does not fall back after it. -/
theorem State.inCycle_aside (s : State) (x : Nat) (f : State → State) : ∃ u, s.Aside u ∧ u.sync = s.sync ∧ (f u).Aside (s.inCycle x f) :=
  ⟨_, State.aside_wr s Reg.CTRL_TIMESTAMP _ (by simp [asideKeys, dieKeys]), rfl, State.aside_notBefore _ _⟩

/-! Waits that end. -/

theorem State.aside_crossLink (x : State × Nat) (link : Nat) : x.1.Aside (State.crossLink x link).1 := by
  unfold State.crossLink
  exact (State.aside_sync _ _).trans (State.aside_wr _ Reg.ARCH_PLANE_STALL _ (by simp [asideKeys, dieKeys]))

theorem State.aside_sendPlane (s : State) (c d x : Nat) : s.Aside (s.sendPlane c d x).1 := by
  unfold State.sendPlane
  exact (State.aside_sync s { s.sync with links := _ }).trans
    (State.aside_foldl Prod.fst State.crossLink State.aside_crossLink (planeRoute c d) (_, x + 1))

theorem State.aside_result (s : State) (q : WaitReq) (x : Nat) : s.Aside (s.result q x).1 := by
  unfold State.result
  split
  · exact State.Aside.refl s
  · exact State.aside_sendPlane s _ _ _

theorem State.aside_endWait (s : State) (y : WaitSlot) (x v : Nat) : s.Aside (s.endWait y x v) := by
  unfold State.endWait State.traceEnd
  have drop : s.Aside (s.dropSlot y x) := State.aside_sync s _
  exact ((drop.trans (State.aside_result _ _ _)).trans (State.aside_sync _ _)).trans (State.aside_trace _ _ _)

theorem State.aside_satisfyWaits (s : State) (v x : Nat) (l : List WaitSlot) : s.Aside (s.satisfyWaits v x l) := by
  induction l generalizing s with
  | nil => exact State.Aside.refl s
  | cons y l ih =>
    unfold State.satisfyWaits
    split
    · exact (State.aside_endWait s y x v).trans (ih _)
    · exact ih s

theorem State.aside_grantTakes (s : State) (v x : Nat) (l : List WaitSlot) : s.Aside (s.grantTakes v x l).1 := by
  induction l generalizing s v with
  | nil => exact State.Aside.refl s
  | cons y l ih =>
    unfold State.grantTakes
    split
    · exact (State.aside_endWait s y x _).trans (ih _ _)
    · exact ih s v

/-- Where no wait takes, the value stays. -/
theorem State.grantTakes_of_no_take (s : State) (v x : Nat) (l : List WaitSlot) (h : ∀ y ∈ l, y.req.take = false) :
    (s.grantTakes v x l).2 = v := by
  induction l generalizing s with
  | nil => rfl
  | cons y l ih =>
    obtain ⟨plain, rest⟩ := List.forall_mem_cons.mp h
    simpa [State.grantTakes, plain] using ih s rest

/-- Where no deadline has come, no wait times out. -/
theorem State.timeOuts_of_calm (s : State) (v x : Nat) (l : List WaitSlot) (h : ∀ y ∈ l, ∀ d, y.req.deadline = some d → x < d) :
    s.timeOuts v x l = s := by
  induction l with
  | nil => rfl
  | cons y l ih =>
    obtain ⟨calm, rest⟩ := List.forall_mem_cons.mp h
    unfold State.timeOuts
    cases hd : y.req.deadline with
    | none => exact ih rest
    | some d =>
      have early : ¬(d ≤ x ∧ s.sync.slots.contains y = true) := fun due => absurd (calm d hd) (Nat.not_lt.mpr due.1)
      simpa only [if_neg early] using ih rest

/-- The waits of tie t of core h, in the order in which R239 serves them. -/
def State.waitsHere (s : State) (h t : Nat) : List WaitSlot :=
  (s.sync.slots.filter fun y => y.req.home = h && y.req.tie = t).foldl (fun l y => insertSlot y l) []

theorem mem_insertSlot {x y : WaitSlot} {l : List WaitSlot} (h : y ∈ insertSlot x l) : y = x ∨ y ∈ l := by
  induction l with
  | nil => simpa [insertSlot] using h
  | cons z l ih =>
    unfold insertSlot at h
    split at h
    · exact List.mem_cons.mp h
    · rcases List.mem_cons.mp h with rfl | h
      · exact .inr List.mem_cons_self
      · exact (ih h).imp_right (List.mem_cons_of_mem _)

theorem mem_foldl_insertSlot {y : WaitSlot} (l acc : List WaitSlot) (h : y ∈ l.foldl (fun l y => insertSlot y l) acc) : y ∈ l ∨ y ∈ acc := by
  induction l generalizing acc with
  | nil => exact .inr h
  | cons x l ih =>
    rcases ih _ h with h | h
    · exact .inl (List.mem_cons_of_mem _ h)
    · rcases mem_insertSlot h with rfl | h
      · exact .inl List.mem_cons_self
      · exact .inr h

theorem State.mem_waitsHere {s : State} {h t : Nat} {y : WaitSlot} (hy : y ∈ s.waitsHere h t) :
    y ∈ s.sync.slots ∧ y.req.home = h ∧ y.req.tie = t := by
  rcases mem_foldl_insertSlot _ _ hy with hy | hy
  · simpa using hy
  · cases hy

/-! A batch of updates at a tie. -/

/-- Adds and decrements of a batch at value v: the events and counters, and the value that the waits meet (R235, R236). -/
def State.applyBatch (s : State) (h t v : Nat) (us : List TieUpdate) : State × Nat :=
  let adds := us.filter fun u => !u.dec
  let sum := (adds.map fun u => u.amount).foldl (· + ·) v
  let past := decide (2 ^ 64 ≤ sum)
  let s := s.bumpC Reg.SYNC_ADDS_APPLIED h adds.length
  let s := if past then (s.note 0x0701 h [t]).bumpC Reg.SYNC_OVERFLOWS h 1 else s
  s.applyDecs h t (if past then 2 ^ 64 - 1 else sum) ((us.filter fun u => u.dec).foldl (fun l u => insertUpdate u l) [])

/-- Waits, takes, the store of the value they leave, and timeouts, in the cycle with count x (R237–R239). -/
def State.serveWaits (s : State) (h t x v : Nat) (us : List TieUpdate) : State :=
  let here := s.waitsHere h t
  let (s, v) := (s.satisfyWaits v x here).grantTakes v x here
  (us.foldl (fun s u => s.trace h ⟨s.now, 1, t, v, u.amount, u.issued, u.peer⟩) (s.setTie h t v)).timeOuts v x here

/-- The steps of R239 are those of the batch and those of the waits. -/
theorem State.tieCycle_eq (s : State) (h t x : Nat) (us : List TieUpdate) :
    s.tieCycle h t x none us = s.inCycle x fun s => (s.applyBatch h t (s.tie h t) us).1.serveWaits h t x (s.applyBatch h t (s.tie h t) us).2 us := rfl

/-- No wait of tie t of core h takes. -/
def State.NoTake (s : State) (h t : Nat) : Prop := ∀ y ∈ s.sync.slots, y.req.home = h → y.req.tie = t → y.req.take = false

/-- Where no deadline has come, the waits leave a value that only takes lower. -/
theorem State.serveWaits_calm (s : State) (h t x v : Nat) (us : List TieUpdate)
    (calm : ∀ y ∈ s.sync.slots, y.req.home = h → y.req.tie = t → ∀ d, y.req.deadline = some d → x < d) :
    ∃ w left, s.Aside w ∧ (w.setTie h t left).Aside (s.serveWaits h t x v us) ∧ (s.NoTake h t → left = v) := by
  have here (p : WaitSlot → Prop) (hp : ∀ y ∈ s.sync.slots, y.req.home = h → y.req.tie = t → p y) : ∀ y ∈ s.waitsHere h t, p y := by
    intro y hy
    obtain ⟨slot, home, tie⟩ := State.mem_waitsHere hy
    exact hp y slot home tie
  unfold State.serveWaits
  simp only [State.timeOuts_of_calm _ _ _ _ (here _ calm)]
  exact ⟨_, _, (State.aside_satisfyWaits s v x _).trans (State.aside_grantTakes _ v x _),
    State.aside_foldl id _ (fun s u => State.aside_trace s h _) us _,
    fun plain => State.grantTakes_of_no_take _ v x _ (here _ plain)⟩

/-- What a batch that meets a limit of its tie does to its core's registers and to the events: its adds count, and event `code` and counter r
record the limit. -/
def State.limitBatch (s : State) (h n code : Nat) (data : List Nat) (r : Row) : State :=
  ((s.bumpC Reg.SYNC_ADDS_APPLIED h n).note code h data).bumpC r h 1

/-- Sum of the adds of a batch. -/
def addsOf (us : List TieUpdate) : Nat := ((us.filter fun u => !u.dec).map fun u => u.amount).foldl (· + ·) 0

/-- The adds of a batch come on top of the value. -/
theorem foldl_adds (v : Nat) (us : List TieUpdate) : ((us.filter fun u => !u.dec).map fun u => u.amount).foldl (· + ·) v = v + addsOf us :=
  List.foldl_assoc (op := (· + ·)) (a₁ := v) (a₂ := 0)

/-- At value x of tie t of core h a batch meets a limit that leaves v: event `code` and counter r record it. -/
def BatchLimited (h t x : Nat) (us : List TieUpdate) (code : Nat) (data : List Nat) (r : Row) (v : Nat) : Prop :=
  ∀ s : State, ∃ w, (s.limitBatch h (us.filter fun u => !u.dec).length code data r).Aside w ∧ w.sync = s.sync ∧ s.applyBatch h t x us = (w, v)

/-- Adds past 2^64 − 1 leave the tie there (R235). -/
theorem batchLimited_past (h t x : Nat) (us : List TieUpdate) (adds : ∀ u ∈ us, u.dec = false) (past : 2 ^ 64 ≤ x + addsOf us) :
    BatchLimited h t x us 0x0701 [t] Reg.SYNC_OVERFLOWS (2 ^ 64 - 1) := by
  intro s
  have noDecs : (us.filter fun u => u.dec) = [] := List.filter_eq_nil_iff.mpr fun u hu => by simp [adds u hu]
  refine ⟨_, State.Aside.refl _, rfl, ?_⟩
  simp only [State.applyBatch, noDecs, foldl_adds, past, decide_true, if_true, List.foldl_nil, State.applyDecs, State.limitBatch]

/-- One decrement of more than the value is refused (R236). -/
theorem batchLimited_refused (h t x : Nat) (us : List TieUpdate) (u : TieUpdate) (one : (us.filter fun u => u.dec) = [u])
    (fits : x + addsOf us < 2 ^ 64) (less : x + addsOf us < u.amount) :
    BatchLimited h t x us 0x0702 [t, x + addsOf us, u.amount] Reg.SYNC_UNDERFLOWS (x + addsOf us) := by
  intro s
  refine ⟨_, State.aside_trace _ h ⟨(s.bumpC Reg.SYNC_ADDS_APPLIED h (us.filter fun u => !u.dec).length).now, 11, t, x + addsOf us,
    u.amount, 0, u.peer⟩, State.trace_sync _ h _, ?_⟩
  simp only [State.applyBatch, one, foldl_adds, Nat.not_le.mpr fits, decide_false, Bool.false_eq_true, if_false, List.foldl_cons,
    List.foldl_nil, insertUpdate, State.applyDecs, if_pos less, State.limitBatch]

/-! Delivery of a batch at a calm tie. -/

theorem State.enrollDue_of_calm (s : State) (h x : Nat) (calm : ∀ q ∈ s.sync.registering, q.home = h → x < q.at_) :
    s.enrollDue h x = (s, []) := by
  have late (q) (hq : q ∈ s.sync.registering) : (decide (q.home = h) && decide (q.at_ ≤ x)) = false := by
    simp only [Bool.and_eq_false_iff, decide_eq_false_iff_not]
    by_cases home : q.home = h
    · exact .inr (Nat.not_le.mpr (calm q hq home))
    · exact .inl home
  have noneDue : (s.sync.registering.filter fun q => decide (q.home = h) && decide (q.at_ ≤ x)) = [] :=
    List.filter_eq_nil_iff.mpr fun q hq => by simp [late q hq]
  have all : (s.sync.registering.filter fun q => !(decide (q.home = h) && decide (q.at_ ≤ x))) = s.sync.registering :=
    List.filter_eq_self.mpr fun q hq => by simp [late q hq]
  unfold State.enrollDue
  simp only [noneDue, all]
  rfl

/-- Updates that reach a living core at which no wait registers run the steps of their tie alone. -/
theorem exec_tieUpdateDelivered_of_calm (s : State) (h t n : Nat) (us rest : List TieUpdate)
    (taken : takeUpdates (fun _ => true) h t n [] s.sync.updates = (us, rest)) (clocks : s.clocksRun = true) (alive : s.coreAlive h = true)
    (nonempty : us ≠ []) (calm : ∀ q ∈ s.sync.registering, q.home = h → (us.map TieUpdate.due).foldl max 0 < q.at_) :
    exec (.tieUpdateDelivered h t n) s =
      .next (State.tieCycle { s with sync := { s.sync with updates := rest } } h t ((us.map TieUpdate.due).foldl max 0) none us) := by
  have alive' : State.coreAlive { s with sync := { s.sync with updates := rest } } h = true := alive
  change execTieUpdateDelivered h t n s = _
  have enroll := State.enrollDue_of_calm { s with sync := { s.sync with updates := rest } } h _ calm
  simp only [execTieUpdateDelivered, State.clocked, clocks, if_true, taken, List.isEmpty_iff, if_neg nonempty, alive', State.tieStep, enroll]
  rfl

/-- What a step at tie k of core h leaves: the task, every RUN, memory, the other cores, the other ties, and registers but those of the tie's
counters and of the sync plane. -/
def State.TieAlone (s t : State) (h k : Nat) : Prop :=
  t.task = s.task ∧ t.taskState = s.taskState ∧ (∀ d, t.run d = s.run d) ∧ t.mem = s.mem ∧ (∀ d, d ≠ h → t.core d = s.core d) ∧
  (∀ j, j ≠ k → t.tie h j = s.tie h j) ∧ { t.core h with ties := [] } = { s.core h with ties := [] } ∧ s.RegsBut t (tieKeys h)

theorem mem_tieKeys_of_asideKeys {h k : Nat} (hk : k ∈ asideKeys) : k ∈ tieKeys h := List.mem_append_right _ hk

theorem taskState_not_mem_tieKeys {h : Nat} (hh : h < 1024) : Reg.CMD_OPS_STATE.key 0 0 ∉ tieKeys h := by
  simp (disch := decide) [tieKeys, Row.key_ne_of_place, Row.key_die_ne_core hh]

theorem run_not_mem_tieKeys (h d : Nat) : Reg.SEQ_RUN.key d 0 ∉ tieKeys h := by
  simp only [tieKeys, List.map_cons, List.map_nil, List.cons_append, List.nil_append, List.mem_cons, List.not_mem_nil, Row.key, Row.addr,
    Reg.SEQ_RUN, Reg.SYNC_ADDS_APPLIED, Reg.SYNC_OVERFLOWS, Reg.SYNC_UNDERFLOWS, Reg.DEBUG_TRACE_DROPPED, Reg.CTRL_TIMESTAMP, Reg.ARCH_PLANE_STALL,
    if_true, Bool.false_eq_true, if_false, or_false, not_or]
  omega

/-- A state reached from s by steps beside the cores, a limit at tie k of core h, and the store of its value. -/
structure State.Limited (s t : State) (h k n code : Nat) (data : List Nat) (r : Row) (left : Nat) : Prop where
  steps : ∃ u w, s.Aside u ∧ (u.limitBatch h n code data r).Aside w ∧ (w.setTie h k left).Aside t

/-- A field of core h that counts a limit. -/
structure LimitCounter (r : Row) : Prop where
  core : r.core = true
  place : r.place < 2 ^ 26
  apart : r.place ≠ Reg.SYNC_ADDS_APPLIED.place
  listed : ∀ h, r.key h 0 ∈ tieKeys h

namespace State.Limited

variable {s t : State} {h k n code : Nat} {data : List Nat} {r : Row} {left : Nat}

theorem notes (l : s.Limited t h k n code data r left) : s.Notes t code h data := by
  obtain ⟨u, w, hu, hw, ht⟩ := l.steps
  refine ⟨⟨code, h, data, (u.bumpC Reg.SYNC_ADDS_APPLIED h n).now, sevOf code, false⟩, ?_, rfl, rfl, rfl, rfl, rfl⟩
  calc t.detected = w.detected := ht.detected
    _ = u.detected ++ [_] := hw.detected
    _ = s.detected ++ [_] := by rw [hu.detected]

theorem counts (l : s.Limited t h k n code data r left) (good : s.Good) (hh : h < 1024) (c : LimitCounter r) : s.Counts t r h 0 1 := by
  obtain ⟨u, w, hu, hw, ht⟩ := l.steps
  have dieApart {r' : Row} (hr : r'.core = false) : r.key h 0 ≠ r'.key 0 0 := Row.key_core_ne_die hh ⟨c.core, c.place, hr⟩
  have aside : r.key h 0 ∉ asideKeys := by simp (disch := decide) [asideKeys, dieKeys, dieApart]
  have adds : r.key h 0 ∉ [Reg.SYNC_ADDS_APPLIED.key h 0] := by simpa using Row.key_ne_of_place ⟨c.core, c.apart⟩
  have sorted := State.wr_sorted u Reg.SYNC_ADDS_APPLIED h 0 (min (u.rd Reg.SYNC_ADDS_APPLIED h 0 + n) (2 ^ 32 - 1)) (hu.sorted good.canon.regs)
  have before : (u.bumpC Reg.SYNC_ADDS_APPLIED h n).rd r h 0 = s.rd r h 0 :=
    ((State.regsBut_wr u _ h 0 _ _ List.mem_cons_self).rd r h 0 adds).trans (hu.regs.rd r h 0 aside)
  calc t.rd r h 0 = w.rd r h 0 := ht.regs.rd r h 0 aside
    _ = (u.limitBatch h n code data r).rd r h 0 := hw.regs.rd r h 0 aside
    _ = min ((u.bumpC Reg.SYNC_ADDS_APPLIED h n).rd r h 0 + 1) (2 ^ r.width - 1) := State.rd_bump _ r h 0 1 sorted
    _ = min (s.rd r h 0 + 1) (2 ^ r.width - 1) := by rw [before]

theorem cores (l : s.Limited t h k n code data r left) : t.cores = (s.setTie h k left).cores := by
  obtain ⟨u, w, hu, hw, ht⟩ := l.steps
  have same : w.cores = s.cores := hw.cores.trans hu.cores
  rw [ht.cores]
  simp only [State.setTie, State.mapCore, State.setCore, State.core, same]

theorem tie (l : s.Limited t h k n code data r left) (good : s.Good) (j : Nat) : t.tie h j = if j = k then left else s.tie h j := by
  have core : t.core h = (s.setTie h k left).core h := by simp only [State.core, l.cores]
  rw [State.tie, core, State.setTie, State.core_mapCore _ _ _ good.canon]
  exact Sparse.get_put 0 _ k left (good.cores h).ties j

theorem regsBut (l : s.Limited t h k n code data r left) (c : LimitCounter r) : s.RegsBut t (tieKeys h) := by
  obtain ⟨u, w, hu, hw, ht⟩ := l.steps
  have aside {x y : State} (g : x.Aside y) : x.RegsBut y (tieKeys h) := g.regs.mono fun _ => mem_tieKeys_of_asideKeys
  have limit : u.RegsBut (u.limitBatch h n code data r) (tieKeys h) :=
    (State.regsBut_wr u Reg.SYNC_ADDS_APPLIED h 0 _ _ (by simp [tieKeys])).trans (State.regsBut_wr _ r h 0 _ _ (c.listed h))
  have store : w.RegsBut (w.setTie h k left) (tieKeys h) := fun _ _ _ => rfl
  exact ((((aside hu).trans limit).trans (aside hw)).trans store).trans (aside ht)

theorem alone (l : s.Limited t h k n code data r left) (good : s.Good) (hh : h < 1024) (c : LimitCounter r) : s.TieAlone t h k := by
  have regs := l.regsBut c
  have core (d : Nat) : t.core d = (s.setTie h k left).core d := by simp only [State.core, l.cores]
  obtain ⟨u, w, hu, hw, ht⟩ := l.steps
  refine ⟨ht.task.trans (hw.task.trans hu.task), regs.rd _ 0 0 (taskState_not_mem_tieKeys hh), fun d => regs.rd _ d 0 (run_not_mem_tieKeys h d),
    ht.mem.trans (hw.mem.trans hu.mem), fun d hd => ?_, fun j hj => ?_, ?_, regs⟩
  · exact (core d).trans (State.core_setCore_ne s h _ d hd)
  · rw [l.tie good, if_neg hj]
  · rw [core h, State.setTie, State.core_mapCore _ _ _ good.canon]

end State.Limited

/-- A batch that meets a limit at a calm tie: what the limit leaves stands in the tie where no wait takes. -/
theorem State.tieCycle_limited (s : State) (h k x code : Nat) (us : List TieUpdate) (data : List Nat) (r : Row) (v : Nat)
    (calm : ∀ y ∈ s.sync.slots, y.req.home = h → y.req.tie = k → ∀ d, y.req.deadline = some d → x < d)
    (batch : BatchLimited h k (s.tie h k) us code data r v) :
    ∃ left, s.Limited (s.tieCycle h k x none us) h k (us.filter fun u => !u.dec).length code data r left ∧
      (s.NoTake h k → left = v) := by
  rw [State.tieCycle_eq]
  obtain ⟨u, hu, sync, ht⟩ := s.inCycle_aside x fun s => (s.applyBatch h k (s.tie h k) us).1.serveWaits h k x (s.applyBatch h k (s.tie h k) us).2 us
  obtain ⟨w, hw, sync', applied⟩ := batch u
  have tie : u.tie h k = s.tie h k := by simp only [State.tie, hu.core]
  have same : w.sync = s.sync := sync'.trans sync
  obtain ⟨w', left, hw', hl, plain⟩ := w.serveWaits_calm h k x v us (same ▸ calm)
  rw [tie, applied] at ht
  exact ⟨left, ⟨u, w', hu, hw.trans hw', hl.trans ht⟩, fun noTake => plain (by simpa only [State.NoTake, same] using noTake)⟩

theorem limitCounter_overflows : LimitCounter Reg.SYNC_OVERFLOWS := ⟨rfl, by decide, by decide, fun _ => by simp [tieKeys]⟩

theorem limitCounter_underflows : LimitCounter Reg.SYNC_UNDERFLOWS := ⟨rfl, by decide, by decide, fun _ => by simp [tieKeys]⟩

/-- A batch that meets a limit, delivered at a living core at a calm tie. -/
theorem tieUpdateDelivered_limited (h k n code : Nat) (us : List TieUpdate) (data : List Nat) (r : Row) (v : Nat) (s : State) (good : s.Good)
    (taken : (takeUpdates (fun _ => true) h k n [] s.sync.updates).1 = us) (clocks : s.clocksRun = true) (alive : s.coreAlive h = true)
    (nonempty : us ≠ []) (calm : s.TieCalm h k ((us.map TieUpdate.due).foldl max 0)) (c : LimitCounter r)
    (batch : BatchLimited h k (s.tie h k) us code data r v) :
    ∃ t, exec (.tieUpdateDelivered h k n) s = .next t ∧ (s.NoTake h k → t.tie h k = v) ∧
      s.Notes t code h data ∧ s.Counts t r h 0 1 ∧ s.TieAlone t h k := by
  subst taken
  have hh : h < 1024 := by
    simp only [State.coreAlive, Bool.and_eq_true, decide_eq_true_eq] at alive
    obtain ⟨⟨core, -⟩, -⟩ := alive
    exact core
  obtain ⟨registrations, deadlines⟩ := calm
  obtain ⟨left, ⟨u, w, hu, hw, ht⟩, plain⟩ := State.tieCycle_limited { s with sync := { s.sync with
    updates := (takeUpdates (fun _ => true) h k n [] s.sync.updates).2 } } h k _ code _ data r v deadlines batch
  have l : s.Limited _ h k _ code data r left := ⟨u, w, (State.aside_sync s _).trans hu, hw, ht⟩
  refine ⟨_, exec_tieUpdateDelivered_of_calm s h k n _ _ rfl clocks alive nonempty registrations, fun noTake => ?_, l.notes, l.counts good hh c,
    l.alone good hh c⟩
  rw [l.tie good, if_pos rfl, plain noTake]

/-- Settles O47: either limit leaves its record, and what it leaves in the tie meets the waits. -/
theorem tieLimits : Obligations.TieLimits := by
  unfold Obligations.TieLimits
  intro h k n
  refine ⟨?past, fun u => ?refused⟩
  case past =>
    rintro s good ⟨⟨clocks, alive, nonempty, calm⟩, adds, past⟩
    exact tieUpdateDelivered_limited h k n 0x0701 _ [k] Reg.SYNC_OVERFLOWS _ s good rfl clocks alive nonempty calm limitCounter_overflows
      (batchLimited_past h k _ _ adds past)
  case refused =>
    rintro s good ⟨⟨clocks, alive, nonempty, calm⟩, one, fits, less⟩
    exact tieUpdateDelivered_limited h k n 0x0702 _ _ Reg.SYNC_UNDERFLOWS _ s good rfl clocks alive nonempty calm limitCounter_underflows
      (batchLimited_refused h k _ _ u one fits less)

end Sys2Proof.Machine
end

section
/-!
SUPPORT. The descriptor words of a core's windows, a fault of the sync plane, and the proof of the statement about WOPEN and WCLOSE (R244, R245,
R258).
-/

namespace Sys2Proof.Machine

/-! Bits of a word. -/

theorem bit_eq_testBit (w i : Nat) : bit w i = w.testBit i := by
  simp [bit, Nat.testBit_eq_decide_div_mod_eq]

/-- Clearing the lowest bits leaves the word above them. -/
theorem putFld_low_zero (w n : Nat) : putFld w n 0 0 = 2 ^ (n + 1) * (w / 2 ^ (n + 1)) := by
  have := Nat.div_add_mod w (2 ^ (n + 1))
  simp only [putFld, fld, Nat.pow_zero, Nat.div_one, Nat.mul_one, Nat.zero_mod, Nat.add_zero, Nat.sub_zero]
  omega

theorem fld_putFld_low_zero (w n : Nat) : fld (putFld w n 0 0) n 0 = 0 := by
  simp [putFld_low_zero, fld]

theorem putFld_low_zero_div (w n : Nat) : putFld w n 0 0 / 2 ^ (n + 1) = w / 2 ^ (n + 1) := by
  rw [putFld_low_zero, Nat.mul_div_cancel_left _ (Nat.two_pow_pos _)]

theorem putFld_low_one (w : Nat) : putFld w 0 0 1 = 2 * (w / 2) + 1 := by
  simp only [putFld, fld]
  omega

/-- Clearing bit n: the bits above it and those below it stand. -/
theorem putFld_bit_zero (w n : Nat) : putFld w n n 0 = 2 ^ (n + 1) * (w / 2 ^ (n + 1)) + w % 2 ^ n := by
  have whole := Nat.div_add_mod w (2 ^ n)
  have half : w / 2 ^ n = 2 * (w / 2 ^ (n + 1)) + w / 2 ^ n % 2 := by rw [Nat.pow_succ, ← Nat.div_div_eq_div_mul]; omega
  have one : n + 1 - n = 1 := by omega
  simp only [putFld, fld, one, Nat.pow_one, Nat.zero_mod, Nat.zero_mul, Nat.add_zero]
  refine Nat.sub_eq_of_eq_add ?_
  calc w = 2 ^ n * (2 * (w / 2 ^ (n + 1)) + w / 2 ^ n % 2) + w % 2 ^ n := by rw [← half, whole]
    _ = 2 ^ (n + 1) * (w / 2 ^ (n + 1)) + w % 2 ^ n + w / 2 ^ n % 2 * 2 ^ n := by
      rw [Nat.pow_succ, Nat.mul_add, Nat.mul_assoc (2 ^ n) 2, Nat.mul_comm (w / 2 ^ n % 2), Nat.add_right_comm]

theorem bit_putFld_bit_zero (w n i : Nat) : bit (putFld w n n 0) i = (bit w i && decide (i ≠ n)) := by
  have low : w % 2 ^ n < 2 ^ (n + 1) := Nat.lt_of_lt_of_le (Nat.mod_lt _ (Nat.two_pow_pos n)) (Nat.pow_le_pow_right (by omega) (by omega))
  rw [bit_eq_testBit, bit_eq_testBit, putFld_bit_zero, Nat.testBit_two_pow_mul_add _ low, Nat.testBit_div_two_pow, Nat.testBit_mod_two_pow]
  rcases Nat.lt_trichotomy i n with below | rfl | above
  · simp [below, Nat.lt_succ_of_lt below, Nat.ne_of_lt below]
  · simp
  · have notBelow : ¬i < n + 1 := by omega
    simp [notBelow, Nat.ne_of_gt above, Nat.sub_add_cancel above]

/-! Steps at the windows of a core. -/

/-- Fields that a command on a window changes: those of issue, and the dropped trace records. -/
def windowKeys (c : Nat) : List Nat := Reg.DEBUG_TRACE_DROPPED.key 0 0 :: issueKeys c

theorem mem_windowKeys_of_issueKeys {c k : Nat} (h : k ∈ issueKeys c) : k ∈ windowKeys c := List.mem_cons_of_mem _ h

theorem mem_syncKeys_of_windowKeys {c k : Nat} (h : k ∈ windowKeys c) : k ∈ syncKeys c := by
  refine List.mem_append_left _ ?_
  rcases List.mem_cons.mp h with rfl | h
  · exact List.mem_append_right _ (by simp)
  · exact List.mem_append_left _ h

/-- Everything of the die but registers, memory, cores, the trace and the events. -/
def State.beside (s : State) : State := { s with regs := [], mem := [], marks := [], cores := [], dbg := Debug.init, detected := [] }

/-- A step that changes the windows of core c, the trace, the events and registers in a list, and nothing else. -/
structure State.AtWindows (s t : State) (c : Nat) : Prop where
  beside : t.beside = s.beside
  others : ∀ d, d ≠ c → t.core d = s.core d
  core : s.Canon → { t.core c with windows := [] } = { s.core c with windows := [] }
  mem : t.mem = s.mem
  regs : s.RegsBut t (windowKeys c)
  canon : s.Canon → t.Canon

theorem State.AtWindows.refl (s : State) (c : Nat) : s.AtWindows s c := ⟨rfl, fun _ _ => rfl, fun _ => rfl, rfl, fun _ _ _ => rfl, id⟩

theorem State.AtWindows.trans {s t u : State} {c : Nat} (h : s.AtWindows t c) (g : t.AtWindows u c) : s.AtWindows u c :=
  ⟨g.beside.trans h.beside, fun d hd => (g.others d hd).trans (h.others d hd), fun x => (g.core (h.canon x)).trans (h.core x), g.mem.trans h.mem,
    h.regs.trans g.regs, fun x => g.canon (h.canon x)⟩

theorem State.atWindows_wr (s : State) (c : Nat) (r : Row) (v : Nat) (h : r.key 0 0 ∈ windowKeys c) : s.AtWindows (s.wr r 0 0 v) c :=
  ⟨rfl, fun _ _ => rfl, fun _ => rfl, rfl, State.regsBut_wr s r 0 0 v _ h, fun x => ⟨x.mem, State.wr_sorted s r 0 0 v x.regs, x.cores⟩⟩

theorem State.atWindows_setWin (s : State) (c w i v : Nat) : s.AtWindows (s.setWin c w i v) c where
  beside := rfl
  others := fun d hd => State.core_setCore_ne s c _ d hd
  core := fun x => by rw [State.setWin, State.core_mapCore s c _ x]
  mem := rfl
  regs := fun _ _ _ => rfl
  canon := fun x => ⟨x.mem, x.regs, State.setCore_sorted s c _ x.cores⟩

theorem State.atWindows_note (s : State) (c code unit : Nat) (data : List Nat) : s.AtWindows (s.note code unit data) c :=
  ⟨rfl, fun _ _ => rfl, fun _ => rfl, rfl, fun _ _ _ => rfl, fun x => ⟨x.mem, x.regs, x.cores⟩⟩

theorem State.atWindows_dbg (s : State) (c : Nat) (g : Debug) : s.AtWindows { s with dbg := g } c :=
  ⟨rfl, fun _ _ => rfl, fun _ => rfl, rfl, fun _ _ _ => rfl, fun x => ⟨x.mem, x.regs, x.cores⟩⟩

theorem State.atWindows_trace (s : State) (c : Nat) (r : TraceRec) : s.AtWindows (s.trace c r) c := by
  obtain ⟨dbg, e | e⟩ := s.trace_cases c r <;> rw [e]
  · exact s.atWindows_dbg c dbg
  · exact (s.atWindows_dbg c dbg).trans (State.atWindows_wr _ c _ _ List.mem_cons_self)

theorem State.atWindows_notBefore (s : State) (c old : Nat) : s.AtWindows (s.notBefore old) c := by
  unfold State.notBefore
  split
  · exact State.atWindows_wr s c _ _ (by simp [windowKeys, issueKeys])
  · exact State.AtWindows.refl s c

/-! Descriptor words. -/

/-- A core's windows are listed with rising keys. -/
structure State.WinSorted (s : State) (c : Nat) : Prop where
  canon : s.Canon
  windows : Sparse.sorted (s.core c).windows

theorem State.WinSorted.setWin {s : State} {c : Nat} (h : s.WinSorted c) (w i v : Nat) : (s.setWin c w i v).WinSorted c := by
  refine ⟨(s.atWindows_setWin c w i v).canon h.canon, ?_⟩
  rw [State.setWin, State.core_mapCore s c _ h.canon]
  exact Sparse.put_sorted _ _ _ _ h.windows

theorem State.WinSorted.winWord_setWin {s : State} {c : Nat} (h : s.WinSorted c) (w i x v j : Nat) (hi : i < 8) (hj : j < 8) :
    (s.setWin c w i x).winWord c v j = if v = w ∧ j = i then x else s.winWord c v j := by
  have same : 8 * v + j = 8 * w + i ↔ v = w ∧ j = i := by omega
  rw [State.winWord, State.setWin, State.core_mapCore s c _ h.canon, Sparse.get_put _ _ _ _ h.windows]
  simp only [same, State.winWord]

theorem State.winWord_of_cores {s t : State} (h : t.cores = s.cores) (c v j : Nat) : t.winWord c v j = s.winWord c v j := by
  simp only [State.winWord, State.core, h]

theorem State.notBefore_cores (s : State) (old : Nat) : (s.notBefore old).cores = s.cores := (s.aside_notBefore old).cores

/-- The event of a window that opens after more than one late write (R245). -/
def State.lateNoted (s : State) (c w : Nat) : State := if 1 < s.winLate c w then s.note 0x0705 c [w, s.winLate c w] else s

/-- OPEN set, the counters and LATE_VALID zero (R245). -/
def State.startWindow (s : State) (c w : Nat) : State :=
  let s := s.setWin c w 0 (putFld (s.winWord c w 0) 0 0 1)
  ((s.setWin c w 2 0).setWin c w 3 (putFld (s.winWord c w 3) 31 0 0)).setWin c w 4 (putFld (s.winWord c w 4) 30 30 0)

/-- A window opens with its event, its words and a trace record. -/
theorem State.openWindow_eq (s : State) (c w : Nat) : ∃ r, s.openWindow c w = ((s.lateNoted c w).startWindow c w).trace c r := ⟨_, rfl⟩

theorem State.closeWindow_eq (s : State) (c w : Nat) :
    ∃ r, s.closeWindow c w = (s.setWin c w 0 (putFld (s.winWord c w 0) 0 0 0)).trace c r := ⟨_, rfl⟩

theorem State.lateNoted_cores (s : State) (c w : Nat) : (s.lateNoted c w).cores = s.cores := by
  unfold State.lateNoted; split <;> rfl

theorem State.atWindows_lateNoted (s : State) (c w : Nat) : s.AtWindows (s.lateNoted c w) c := by
  unfold State.lateNoted
  split
  · exact s.atWindows_note c _ _ _
  · exact State.AtWindows.refl s c

theorem State.WinSorted.lateNoted {s : State} {c : Nat} (h : s.WinSorted c) (w : Nat) : (s.lateNoted c w).WinSorted c :=
  ⟨(s.atWindows_lateNoted c w).canon h.canon, by simpa only [State.core, State.lateNoted_cores] using h.windows⟩

theorem State.atWindows_startWindow (s : State) (c w : Nat) : s.AtWindows (s.startWindow c w) c :=
  (((s.atWindows_setWin c w _ _).trans (State.atWindows_setWin _ c w _ _)).trans (State.atWindows_setWin _ c w _ _)).trans
    (State.atWindows_setWin _ c w _ _)

theorem State.atWindows_openWindow (s : State) (c w : Nat) : s.AtWindows (s.openWindow c w) c := by
  obtain ⟨r, e⟩ := s.openWindow_eq c w
  rw [e]
  exact ((s.atWindows_lateNoted c w).trans (State.atWindows_startWindow _ c w)).trans (State.atWindows_trace _ c r)

theorem State.atWindows_closeWindow (s : State) (c w : Nat) : s.AtWindows (s.closeWindow c w) c := by
  obtain ⟨r, e⟩ := s.closeWindow_eq c w
  rw [e]
  exact (s.atWindows_setWin c w _ _).trans (State.atWindows_trace _ c r)

/-- Word j of a window that opens, by what it held before (R244, R245). -/
def openedWord (j x : Nat) : Nat :=
  match j with
  | 0 => putFld x 0 0 1
  | 2 => 0
  | 3 => putFld x 31 0 0
  | 4 => putFld x 30 30 0
  | _ => x

theorem State.WinSorted.winWord_startWindow {s : State} {c : Nat} (h : s.WinSorted c) (w v j : Nat) (hj : j < 8) :
    (s.startWindow c w).winWord c v j = if v = w then openedWord j (s.winWord c v j) else s.winWord c v j := by
  have h0 := h.setWin w 0 (putFld (s.winWord c w 0) 0 0 1)
  have h2 := h0.setWin w 2 0
  have h3 := h2.setWin w 3 (putFld ((s.setWin c w 0 (putFld (s.winWord c w 0) 0 0 1)).winWord c w 3) 31 0 0)
  unfold State.startWindow
  rw [h3.winWord_setWin _ _ _ _ _ (by decide) hj, h2.winWord_setWin _ _ _ _ _ (by decide) hj, h0.winWord_setWin _ _ _ _ _ (by decide) hj,
    h.winWord_setWin _ _ _ _ _ (by decide) hj, h.winWord_setWin _ _ _ _ _ (by decide) (by decide), h.winWord_setWin _ _ _ _ _ (by decide) (by decide)]
  by_cases hv : v = w
  · subst hv
    have word : j = 0 ∨ j = 1 ∨ j = 2 ∨ j = 3 ∨ j = 4 ∨ j = 5 ∨ j = 6 ∨ j = 7 := by omega
    rcases word with rfl | rfl | rfl | rfl | rfl | rfl | rfl | rfl <;> simp [openedWord]
  · simp [hv]

theorem State.WinSorted.winWord_openWindow {s : State} {c : Nat} (h : s.WinSorted c) (w v j : Nat) (hj : j < 8) :
    (s.openWindow c w).winWord c v j = if v = w then openedWord j (s.winWord c v j) else s.winWord c v j := by
  obtain ⟨r, e⟩ := s.openWindow_eq c w
  rw [e, State.winWord_of_cores (State.trace_cores _ c r), (h.lateNoted w).winWord_startWindow w v j hj,
    State.winWord_of_cores (s.lateNoted_cores c w)]

theorem State.WinSorted.winWord_closeWindow {s : State} {c : Nat} (h : s.WinSorted c) (w v j : Nat) (hj : j < 8) :
    (s.closeWindow c w).winWord c v j = if v = w ∧ j = 0 then putFld (s.winWord c w 0) 0 0 0 else s.winWord c v j := by
  obtain ⟨r, e⟩ := s.closeWindow_eq c w
  rw [e, State.winWord_of_cores (State.trace_cores _ c r), h.winWord_setWin _ _ _ _ _ (by decide) hj]

@[simp] theorem State.trace_detected (s : State) (c : Nat) (r : TraceRec) : (s.trace c r).detected = s.detected := (s.aside_trace c r).detected

theorem State.detected_openWindow (s : State) (c w : Nat) : (s.openWindow c w).detected = (s.lateNoted c w).detected := by
  obtain ⟨r, e⟩ := s.openWindow_eq c w
  rw [e, State.trace_detected]
  rfl

theorem State.detected_closeWindow (s : State) (c w : Nat) : (s.closeWindow c w).detected = s.detected := by
  obtain ⟨r, e⟩ := s.closeWindow_eq c w
  rw [e, State.trace_detected]
  rfl

/-! A bundle of the Y slot that has opened. -/

/-- The windows of a core stand when its bundle opens. -/
theorem State.windows_opened (s : State) (c : Nat) (sl : Slot) (b : Bundle) (h : s.Canon) :
    ((s.opened c sl b).core c).windows = (s.core c).windows := by
  have same := congrArg Core.windows (s.opened_spec c sl b h).2.rest
  exact same

theorem State.winWord_opened (s : State) (c : Nat) (sl : Slot) (b : Bundle) (h : s.Canon) (v j : Nat) :
    (s.opened c sl b).winWord c v j = s.winWord c v j := by
  simp only [State.winWord, s.windows_opened c sl b h]

theorem State.winSorted_opened (s : State) (c : Nat) (sl : Slot) (b : Bundle) (h : s.Canon) (core : (s.core c).Canon) :
    (s.opened c sl b).WinSorted c :=
  ⟨(s.opened_spec c sl b h).1.canon h, s.windows_opened c sl b h ▸ core.windows⟩

theorem State.detected_opened (s : State) (c : Nat) (sl : Slot) (b : Bundle) (h : s.Canon) : (s.opened c sl b).detected = s.detected := by
  have same := congrArg State.detected (s.opened_spec c sl b h).1.frame.rest
  exact same

theorem State.beside_opened (s : State) (c : Nat) (sl : Slot) (b : Bundle) (h : s.Canon) : (s.opened c sl b).beside = s.beside := by
  have same := congrArg State.beside (s.opened_spec c sl b h).1.frame.rest
  exact same

theorem run_not_mem_windowKeys {c : Nat} (hc : c < 1024) : Reg.SEQ_RUN.key c 0 ∉ windowKeys c := by
  simp (disch := decide) [windowKeys, issueKeys, Row.key_ne_of_place, Row.key_core_ne_die hc]

theorem State.Issues.run {s : State} {c : Nat} {sl : Slot} {b : Bundle} (h : s.Issues c sl b) : s.run c = 1 := by
  have hi := h.issuing
  simp only [State.issuing, Bool.and_eq_true, decide_eq_true_eq] at hi
  obtain ⟨⟨-, run⟩, -⟩ := hi
  exact run

/-- What WOPEN and WCLOSE leave unchanged where they meet no fault. -/
def State.WindowFrame (s t : State) (c : Nat) : Prop :=
  t.run c = 1 ∧ t.sync = s.sync ∧ t.net = s.net ∧ s.SyncFrame t c fun k => { k with windows := [] }

/-- A step at the windows after a bundle has opened meets their frame. -/
theorem State.AtWindows.frame {s t : State} {c : Nat} {b : Bundle} (w : (s.opened c .y b).AtWindows t c) (h : s.Canon) (issues : s.Issues c .y b) :
    s.WindowFrame t c := by
  obtain ⟨near, o⟩ := s.opened_spec c .y b h
  have core := w.core (near.canon h)
  have regs : s.RegsBut t (windowKeys c) := (near.frame.regs.mono fun _ => mem_windowKeys_of_issueKeys).trans w.regs
  have beside : t.beside = s.beside := w.beside.trans (s.beside_opened c .y b h)
  have sync := congrArg State.sync beside
  have net := congrArg State.net beside
  refine ⟨(regs.rd _ c 0 (run_not_mem_windowKeys issues.core_lt)).trans issues.run, sync, net,
    ⟨fun d hd => (w.others d hd).trans (near.frame.others d hd), regs.mono fun _ => mem_syncKeys_of_windowKeys, fun a => ?_, ?_, ?_, ?_, ?_⟩, ?_⟩
  · simp only [State.byteAt, w.mem, near.mem]
  · exact (congrArg Core.sreg core).trans o.sreg
  · exact (congrArg Core.lc core).trans o.lc
  · exact fun noWrites => (congrArg Core.tile core).trans (o.tile noWrites).1
  · exact (congrArg Core.rest core).trans (congrArg (fun k : Core => { k with windows := [] }) o.rest)
  · exact congrArg (fun x : State => { x with sync := s.sync, net := s.net, dbg := s.dbg, detected := s.detected }) beside

/-- The course goes on after a command on a window. -/
theorem State.AtWindows.tryRetire {s t : State} {c : Nat} {b : Bundle} (w : (s.opened c .y b).AtWindows t c) (h : s.Canon)
    (issues : s.Issues c .y b) : t.tryRetire c = t := by
  obtain ⟨near, o⟩ := s.opened_spec c .y b h
  refine State.tryRetire_of_going t c ?_
  exact ((congrArg (fun k => k.seq.endEntry) (w.core (near.canon h))).trans o.endEntry).trans issues.going

/-! A fault of the sync plane. -/

theorem State.failStop_cores (s : State) (c code unit : Nat) (data : List Nat) (sev cause : Nat) :
    (s.failStop c code unit data sev cause).cores = s.cores := by
  obtain ⟨task, e⟩ := s.failStop_eq_failOp c code unit data sev cause
  rw [e]
  unfold State.failOp
  split <;> rfl

/-- A task that fails shows its cause (R51, R357). -/
theorem State.cause_failOp (s : State) (cause : Nat) (h : Sparse.sorted s.regs) (hr : s.taskRuns = true) (hx : cause < 16) :
    (s.failOp cause).df Reg.CMD_CAUSE = cause := by
  have apart : Reg.CMD_CAUSE.key 0 0 ∉ [Reg.CMD_OPS_STATE.key 0 0] := by simpa using Row.key_ne_of_place (by decide)
  unfold State.failOp
  rw [if_pos hr]
  calc _ = (s.setD Reg.CMD_CAUSE cause).rd Reg.CMD_CAUSE 0 0 :=
        (State.regsBut_wr (s.setD Reg.CMD_CAUSE cause) Reg.CMD_OPS_STATE 0 0 7 _ List.mem_cons_self).rd _ 0 0 apart
    _ = cause % 2 ^ 4 := State.rd_wr s Reg.CMD_CAUSE 0 0 cause h
    _ = cause := Nat.mod_eq_of_lt hx

theorem State.cause_failStop (s : State) (c code unit : Nat) (data : List Nat) (sev cause : Nat) (h : Sparse.sorted s.regs) (hc : c < 1024)
    (hr : s.taskRuns = true) (hx : cause < 16) : (s.failStop c code unit data sev cause).df Reg.CMD_CAUSE = cause := by
  obtain ⟨task, e⟩ := s.failStop_eq_failOp c code unit data sev cause
  have apart : Reg.CMD_OPS_STATE.key 0 0 ∉ [Reg.SEQ_RUN.key c 0] := by simpa using (Row.key_core_ne_die hc (by decide)).symm
  have state : (s.stopCore c).taskState = s.taskState := (State.regsBut_wr s Reg.SEQ_RUN c 0 3 _ List.mem_cons_self).rd _ _ _ apart
  rw [e]
  refine State.cause_failOp _ cause (State.wr_sorted s _ _ _ _ h) ?_ hx
  exact (State.taskRuns_of_taskState state).trans hr

/-- Registers that the capture of a sync fault changes. -/
def syncCaptureKeys (c : Nat) : List Nat := [Reg.SYNC_FAULT.key c 0, Reg.SYNC_FAULT_CYCLE.key c 0, Reg.SYNC_FAULT_INDEX.key c 0]

/-- A sync fault is its capture, which keeps an earlier one, and a fail-stop (R258). -/
theorem State.syncFault_eq_failStop (s : State) (c fault code index : Nat) (data : List Nat) (h : Sparse.sorted s.regs) (hf : fault < 8) :
    ∃ u, s.Near u c (syncCaptureKeys c) ∧ u.cores = s.cores ∧
      u.cf Reg.SYNC_FAULT c = (if s.cf Reg.SYNC_FAULT c = 0 then fault else s.cf Reg.SYNC_FAULT c) ∧
      s.syncFault c fault code index data = u.failStop c code c data 2 2 := by
  unfold State.syncFault
  by_cases earlier : s.cf Reg.SYNC_FAULT c = 0
  · have apart : Reg.SYNC_FAULT.key c 0 ∉ [Reg.SYNC_FAULT_CYCLE.key c 0, Reg.SYNC_FAULT_INDEX.key c 0] := by
      simp (disch := decide) [Row.key_ne_of_place]
    have later (x y : Nat) : (s.setC Reg.SYNC_FAULT c fault).RegsBut
        (((s.setC Reg.SYNC_FAULT c fault).setC Reg.SYNC_FAULT_CYCLE c x).setC Reg.SYNC_FAULT_INDEX c y)
        [Reg.SYNC_FAULT_CYCLE.key c 0, Reg.SYNC_FAULT_INDEX.key c 0] :=
      (State.regsBut_wr _ _ c 0 x _ (by simp)).trans (State.regsBut_wr _ _ c 0 y _ (by simp))
    simp only [ne_eq, earlier, not_true_eq_false, if_false, if_true]
    exact ⟨_, ((State.near_wr s c _ c 0 _ _ (by simp [syncCaptureKeys])).trans (State.near_wr _ c _ c 0 _ _ (by simp [syncCaptureKeys]))).trans
      (State.near_wr _ c _ c 0 _ _ (by simp [syncCaptureKeys])), rfl,
      ((later _ _).rd _ c 0 apart).trans ((State.rd_wr s _ c 0 fault h).trans (Nat.mod_eq_of_lt hf)), rfl⟩
  · simp only [ne_eq, earlier, not_false_eq_true, if_true, if_false]
    exact ⟨s, State.Near.refl s c _, rfl, rfl, rfl⟩

/-- A bundle of the Y slot that faults: the event, the core's stop, the task's failure, the capture, and what stays (R51, R258). -/
theorem State.syncFault_opened (s : State) (c fault code index : Nat) (data : List Nat) (b : Bundle) (old : Nat) (h : s.Canon) (hc : c < 1024)
    (hf : fault < 8) :
    let t := ((s.opened c .y b).syncFault c fault code index data).notBefore old
    t.Detects code c data ∧ t.run c = 3 ∧ (s.taskRuns = true → t.taskState = 7 ∧ t.df Reg.CMD_CAUSE = 2) ∧ t.mem = s.mem ∧
      t.cf Reg.SYNC_FAULT c = (if s.cf Reg.SYNC_FAULT c = 0 then fault else s.cf Reg.SYNC_FAULT c) ∧ t.cores = (s.opened c .y b).cores := by
  obtain ⟨near, -⟩ := s.opened_spec c .y b h
  obtain ⟨u, capture, cores, captured, fault⟩ := (s.opened c .y b).syncFault_eq_failStop c fault code index data (near.canon h).regs hf
  have sorted := (capture.canon (near.canon h)).regs
  have clock := State.regsBut_notBefore (u.failStop c code c data 2 2) old
  have dieApart {r r' : Row} (hr : r.core = false ∧ r'.core = true ∧ r'.place < 2 ^ 26) : r.key 0 0 ≠ r'.key c 0 := Row.key_die_ne_core hc hr
  have runs : u.taskRuns = s.taskRuns := by
    have first : Reg.CMD_OPS_STATE.key 0 0 ∉ issueKeys c := by simp (disch := decide) [issueKeys, dieApart, Row.key_ne_of_place]
    have second : Reg.CMD_OPS_STATE.key 0 0 ∉ syncCaptureKeys c := by simp (disch := decide) [syncCaptureKeys, dieApart]
    exact State.taskRuns_of_taskState ((capture.frame.regs.rd _ 0 0 second).trans (near.frame.regs.rd _ 0 0 first))
  have fresh : (s.opened c .y b).cf Reg.SYNC_FAULT c = s.cf Reg.SYNC_FAULT c :=
    near.frame.regs.rd _ c 0 (by simp (disch := decide) [issueKeys, Row.key_ne_of_place, Row.key_core_ne_die hc])
  rw [fault]
  refine ⟨?_, ?_, fun hr => ⟨?_, ?_⟩, ?_, ?_, ?_⟩
  · simpa only [State.Detects, State.detected_notBefore] using u.detects_failStop c code c data 2 2
  · refine (clock.rd _ c 0 ?_).trans (u.run_failStop c code c data 2 2 sorted hc)
    simpa using Row.key_core_ne_die hc (by decide)
  · refine (clock.rd _ 0 0 ?_).trans (u.taskState_failStop c code c data 2 2 sorted hc (runs.trans hr))
    simpa using Row.key_ne_of_place (by decide)
  · refine (clock.rd _ 0 0 ?_).trans (u.cause_failStop c code c data 2 2 sorted hc (runs.trans hr) (by decide))
    simpa using Row.key_ne_of_place (by decide)
  · rw [State.mem_notBefore, State.failStop_mem, capture.mem, near.mem]
  · refine (clock.rd _ c 0 ?_).trans (((u.regsBut_failStop c code c data 2 2).rd _ c 0 ?_).trans (captured.trans (by rw [fresh])))
    · simpa using Row.key_core_ne_die hc (by decide)
    · simp (disch := decide) [stopKeys, failKeys, Row.key_ne_of_place, Row.key_core_ne_die hc]
  · rw [State.notBefore_cores, State.failStop_cores, cores]

/-! WOPEN and WCLOSE. -/

theorem State.windowOpen_opened (s : State) (c : Nat) (sl : Slot) (b : Bundle) (h : s.Canon) (w : Nat) :
    (s.opened c sl b).windowOpen c w = s.windowOpen c w := by
  simp only [State.windowOpen, s.winWord_opened c sl b h]

theorem State.winOk_opened (s : State) (c : Nat) (sl : Slot) (b : Bundle) (h : s.Canon) (w : Nat) :
    (s.opened c sl b).winOk c w = s.winOk c w := by
  rw [State.winOk, State.winBase, State.winExtent, s.winWord_opened c sl b h, s.winWord_opened c sl b h]
  rfl

theorem State.winLate_opened (s : State) (c : Nat) (sl : Slot) (b : Bundle) (h : s.Canon) (w : Nat) :
    (s.opened c sl b).winLate c w = s.winLate c w := by
  simp only [State.winLate, s.winWord_opened c sl b h]

/-- What WOPEN of window w does to a state at whose core its bundle has opened. -/
theorem exec_wopen_of_issues (s : State) (c : Nat) (b d : Bundle) (hd : coded .y 9 b = d) (h : s.Canon) (issues : s.Issues c .y d) :
    let w := fld (bY d) 8 4
    let u := s.opened c .y d
    exec (.wopen c b) s = .next (State.notBefore (
      if s.windowOpen c w then u
      else if s.winOk c w then u.openWindow c w
      else u.syncFault c 5 0x0707 w [s.issueCycle c, w]) s.now) := by
  subst hd
  change execWopen c b s = _
  rw [execWopen, runSlot_of_issues _ _ _ _ _ _ h issues]
  have cycle : (s.opened c .y (coded .y 9 b)).cyc c = s.issueCycle c := (s.opened_spec c .y _ h).2.cycle
  simp only [s.windowOpen_opened c _ _ h, s.winOk_opened c _ _ h, cycle]
  cases s.windowOpen c (fld (bY (coded .y 9 b)) 8 4) with
  | true => simp only [if_true, (State.AtWindows.refl _ c).tryRetire h issues]
  | false =>
    cases s.winOk c (fld (bY (coded .y 9 b)) 8 4) with
    | true => simp only [Bool.false_eq_true, if_false, if_true, (State.atWindows_openWindow _ c _).tryRetire h issues]
    | false => simp only [Bool.false_eq_true, if_false]

theorem exec_wclose_of_issues (s : State) (c : Nat) (b d : Bundle) (hd : coded .y 10 b = d) (h : s.Canon) (issues : s.Issues c .y d) :
    exec (.wclose c b) s = .next (((s.opened c .y d).closeWindow c (fld (bY d) 8 4)).notBefore s.now) := by
  subst hd
  change execWclose c b s = _
  rw [execWclose, runSlot_of_issues _ _ _ _ _ _ h issues]
  simp only [(State.atWindows_closeWindow _ c _).tryRetire h issues]

section
variable (s : State) (c w : Nat) (b : Bundle)

/-- Windows of the core after WOPEN has opened one, against those before its bundle. -/
theorem State.winWord_opened_openWindow (h : s.Canon) (core : (s.core c).Canon) (v j : Nat) (hj : j < 8) :
    (((s.opened c .y b).openWindow c w).notBefore s.now).winWord c v j = if v = w then openedWord j (s.winWord c v j) else s.winWord c v j := by
  rw [State.winWord_of_cores (State.notBefore_cores _ _), (s.winSorted_opened c .y b h core).winWord_openWindow w v j hj,
    s.winWord_opened c .y b h]

theorem State.winWord_opened_closeWindow (h : s.Canon) (core : (s.core c).Canon) (v j : Nat) (hj : j < 8) :
    (((s.opened c .y b).closeWindow c w).notBefore s.now).winWord c v j =
      if v = w ∧ j = 0 then putFld (s.winWord c w 0) 0 0 0 else s.winWord c v j := by
  rw [State.winWord_of_cores (State.notBefore_cores _ _), (s.winSorted_opened c .y b h core).winWord_closeWindow w v j hj,
    s.winWord_opened c .y b h, s.winWord_opened c .y b h]

/-- WOPEN records more than one late write, and nothing else (R245). -/
theorem State.detected_opened_openWindow (h : s.Canon) :
    let t := ((s.opened c .y b).openWindow c w).notBefore s.now
    (s.winLate c w ≤ 1 → t.detected = s.detected) ∧
    (1 < s.winLate c w → ∃ e : Event, e.code = 0x0705 ∧ e.unit = c ∧ e.data = [w, s.winLate c w] ∧ t.detected = s.detected ++ [e]) := by
  have before := s.detected_opened c .y b h
  simp only [State.detected_notBefore, State.detected_openWindow, State.lateNoted, s.winLate_opened c .y b h]
  constructor
  · intro few
    rw [if_neg (Nat.not_lt.mpr few), before]
  · intro many
    rw [if_pos many]
    exact ⟨_, rfl, rfl, rfl, congrArg (· ++ [_]) before⟩

end

/-- Words other than those WOPEN writes stand. -/
theorem openedWord_of_not_mem {j : Nat} (h : j ∉ [0, 2, 3, 4]) (x : Nat) : openedWord j x = x := by
  simp only [List.mem_cons, List.not_mem_nil, or_false, not_or] at h
  unfold openedWord
  split <;> simp_all

/-- Settles O31: the bundle opens and keeps the windows; then the words that WOPEN or WCLOSE writes are read back, or the fault stops the core. -/
theorem windows : Obligations.Windows := by
  unfold Obligations.Windows
  refine ⟨?opens, ?already, ?refused, ?closes⟩
  case opens =>
    rintro s c b h core issues ⟨closed, ok⟩
    have word := fun v j hj => s.winWord_opened_openWindow c (fld (bY (coded .y 9 b)) 8 4) (coded .y 9 b) h core v j hj
    have done := exec_wopen_of_issues s c b _ rfl h issues
    simp only [closed, ok, Bool.false_eq_true, if_false, if_true] at done
    obtain ⟨few, many⟩ := s.detected_opened_openWindow c (fld (bY (coded .y 9 b)) 8 4) (coded .y 9 b) h
    refine ⟨_, done, ?_, ?_, ?_, ?_, ?_, ?_, ?_, ?_, few, many, ?_⟩
    · rw [State.windowOpen, word _ 0 (by decide), if_pos rfl, openedWord, putFld_low_one, bit_eq_testBit, Nat.testBit_zero]
      simp
    · rw [word _ 0 (by decide), if_pos rfl, openedWord, putFld_low_one]
      omega
    · rw [word _ 2 (by decide), if_pos rfl, openedWord]
    · rw [word _ 3 (by decide), if_pos rfl, openedWord, fld_putFld_low_zero]
    · rw [word _ 3 (by decide), if_pos rfl, openedWord, putFld_low_zero_div]
    · intro i
      rw [word _ 4 (by decide), if_pos rfl, openedWord, bit_putFld_bit_zero]
    · intro i hi rest
      rw [word _ i hi, if_pos rfl, openedWord_of_not_mem rest]
    · intro v i hi other
      rw [word v i hi, if_neg other]
    · exact ((State.atWindows_openWindow _ c _).trans (State.atWindows_notBefore _ c _)).frame h issues
  case already =>
    rintro s c b h core issues isOpen
    have done := exec_wopen_of_issues s c b _ rfl h issues
    simp only [isOpen, if_true] at done
    have word (v j : Nat) : ((s.opened c .y (coded .y 9 b)).notBefore s.now).winWord c v j = s.winWord c v j := by
      rw [State.winWord_of_cores (State.notBefore_cores _ _), s.winWord_opened c .y _ h]
    refine ⟨_, done, fun i _ _ => word _ i, fun v i _ _ => word v i, ?_, (State.atWindows_notBefore _ c _).frame h issues⟩
    rw [State.detected_notBefore, s.detected_opened c .y _ h]
  case refused =>
    rintro s c b h core issues ⟨closed, bad⟩
    have done := exec_wopen_of_issues s c b _ rfl h issues
    simp only [closed, bad, Bool.false_eq_true, if_false] at done
    obtain ⟨event, run, task, mem, fault, cores⟩ := s.syncFault_opened c 5 0x0707 (fld (bY (coded .y 9 b)) 8 4)
      [s.issueCycle c, fld (bY (coded .y 9 b)) 8 4] (coded .y 9 b) s.now h issues.core_lt (by decide)
    have word (v j : Nat) := (State.winWord_of_cores cores c v j).trans (s.winWord_opened c .y (coded .y 9 b) h v j)
    exact ⟨_, done, fun i _ _ => word _ i, fun v i _ _ => word v i, event, run, task, mem, fault⟩
  case closes =>
    rintro s c b h core issues -
    have word := fun v j hj => s.winWord_opened_closeWindow c (fld (bY (coded .y 10 b)) 8 4) (coded .y 10 b) h core v j hj
    refine ⟨_, exec_wclose_of_issues s c b _ rfl h issues, ?_, ?_, ?_, ?_, ?_, ?_⟩
    · rw [State.windowOpen, word _ 0 (by decide), if_pos ⟨rfl, rfl⟩, putFld_low_zero, bit_eq_testBit, Nat.testBit_zero]
      simp
    · rw [word _ 0 (by decide), if_pos ⟨rfl, rfl⟩]
      exact putFld_low_zero_div _ 0
    · intro i hi rest
      rw [word _ i hi, if_neg fun same => rest (by simp [same.2])]
    · intro v i hi other
      rw [word v i hi, if_neg fun same => other same.1]
    · rw [State.detected_notBefore, State.detected_closeWindow, s.detected_opened c .y _ h]
    · exact ((State.atWindows_closeWindow _ c _).trans (State.atWindows_notBefore _ c _)).frame h issues

end Sys2Proof.Machine
end
